-- ==== Sys2Proof/Word.lean ====
section
/-! DEFINITION. The words of the part: bytes, 32-bit positions and registers, 64-bit host addresses, and the
numbers of its transports and lanes (00 section 4.2 and 4.3). -/

namespace Sys2Proof

/-- A byte of a host-memory record or of a line packet. -/
abbrev Byte := BitVec 8

/-- A 32-bit register, counter or field. -/
abbrev Word := BitVec 32

/-- A position counter value: 32 bits, it wraps (00 section 4.2). -/
abbrev Pos := BitVec 32

/-- A 64-bit byte address of host memory (09 section 9.1). -/
abbrev Addr := BitVec 64

/-- A transport, 0 to 3 (00 section 4.3). -/
abbrev TransportNo := Fin 4

/-- An archive lane, 0 to 7 (00 section 4.3). -/
abbrev LaneNo := Fin 8

end Sys2Proof
end

