-- ==== Sys2Proof/Syntax.lean ====
section
/-! DEFINITION. The commands of the part: one constructor of Instr for each row of spec/opcode_table.json, with the
operands the row's event brings from outside (log 11). -/

namespace Sys2Proof

/-- A face of a sheet, as taken by the camera head of that name (00 Table 0-2). -/
inductive Side where
  | front | back
  deriving DecidableEq, Repr

/-- A line of the quadrature encoder (R1). -/
inductive EncLine where
  | a | b
  deriving DecidableEq, Repr

/-- A station with a paper-present sensor, in path order (01 section 1.3). -/
inductive Station where
  | entry | df | mark | exit
  deriving DecidableEq, Repr

/-- A debounced sensor (R6): the four stations' sensors, TRAY_EMPTY and COVER_OPEN. -/
inductive Sensor where
  | station (st : Station)
  | trayEmpty
  | coverOpen
  deriving DecidableEq, Repr

/-- What a read of host memory by the part gave: a bus error, or the bytes from the first one read on (log 1). -/
inductive MemRead where
  | busError
  | data (bytes : List Byte)
  deriving DecidableEq, Repr

/-- How a write sequence of the part ended: whole, or by a bus error with its first bytes written (R175, log 8). -/
inductive BusWrite where
  | ok
  | busError (reached : Nat)
  deriving DecidableEq, Repr

/-- The raw levels of one transport's lines at the release from power-on (R6, Table 1-1). A station's level is true for
paper, trayEmpty for an empty tray, coverOpen for an open cover, dark for a dark reflective MARK sensor. -/
structure LineLevels where
  a : Bool
  b : Bool
  entry : Bool
  df : Bool
  mark : Bool
  exit : Bool
  trayEmpty : Bool
  coverOpen : Bool
  dark : Bool
  deriving DecidableEq, Repr

/-- A posted command record: the control block of a transport, or the room control block (09 sections 9.5, 9.6). -/
inductive CommandBlock where
  | control (t : TransportNo)
  | room
  deriving DecidableEq, Repr

/-- A register or field of the register window without a behaviour of its own when written (R161). runctlReadOnly stands for the
read-only fields of RUNCTL; the word of such a write is the whole of RUNCTL's. -/
inductive InertRegister where
  | evt | evtact | runctlReadOnly
  deriving DecidableEq, Repr

/-- A read that step 4 of a sweep makes for one STARVED lane (R135). -/
structure LaneRead where
  lane : LaneNo
  read : MemRead
  deriving DecidableEq, Repr

/-- The commands: one constructor per row of spec/opcode_table.json, in its order. The block of a control block's or the room
control block's command is what the sweep's reads of it gave: its first bytes, from the turn on, or a bus error (10 Tables 10-7
and 10-8). SWEEP_END brings the reads of step 4: of the links that cursors name, and of the turn bytes of bins. -/
inductive Instr where
  | powerOn (l0 l1 l2 l3 : LineLevels)
  | encoderCount (t : TransportNo) (line : EncLine) (adc : BitVec 10)
  | encoderSkip (t : TransportNo)
  | sensorRawEdge (t : TransportNo) (sensor : Sensor)
  | debounceHoldExpiry (t : TransportNo) (sensor : Sensor)
  | reflectiveTransition (t : TransportNo)
  | pickMiss (t : TransportNo)
  | leadWindowEndPassed (t : TransportNo) (st : Station)
  | trailDeadlinePassed (t : TransportNo) (st : Station)
  | runInDone (t : TransportNo)
  | gapMet (t : TransportNo)
  | captureWindowStart (t : TransportNo) (side : Side)
  | captureWindowEnd (t : TransportNo) (side : Side)
  | markWindowEnd (t : TransportNo)
  | stallTimerExpiry (t : TransportNo)
  | runOffTimerExpiry (t : TransportNo)
  | packetWaitExpiry (t : TransportNo) (side : Side)
  | flushTimerExpiry (lane : LaneNo)
  | pollTimerExpiry
  | linePacket (t : TransportNo) (side : Side) (bytes : List Byte)
  | rbaseWrite (high : Bool) (value : Word)
  | start (period : Byte)
  | startHeaderReadDone (header : MemRead)
  | halt (period : Byte)
  | softReset (period : Byte)
  | pollPeriodWrite (period : Byte)
  | sweepWrite (value : Word)
  | evtclrWrite (value : Word)
  | evtenWrite (value : Word)
  | registerWrite (reg : InertRegister) (value : Word)
  | sweepEnd (links turns : List LaneRead)
  | enable (t : TransportNo) (block : MemRead)
  | setupReadDone (t : TransportNo) (setup : MemRead)
  | disable (t : TransportNo) (block : MemRead)
  | pause (t : TransportNo) (block : MemRead)
  | resume (t : TransportNo) (block : MemRead)
  | abort (t : TransportNo) (block : MemRead)
  | ruleAccept (t : TransportNo) (block : MemRead)
  | ruleReview (t : TransportNo) (block : MemRead)
  | ruleRefeed (t : TransportNo) (block : MemRead)
  | ruleDiscard (t : TransportNo) (block : MemRead)
  | ruleClear (t : TransportNo) (block : MemRead)
  | unknownCommand (t : TransportNo) (block : MemRead)
  | laneRestart (block : MemRead)
  | laneRestartReadDone (lane : LaneNo) (record : MemRead)
  | laneClose (block : MemRead)
  | roomUnknownCommand
  | owedAnswerWrite (block : CommandBlock) (turn : MemRead)
  | answerWriteDone (result : BusWrite)
  | ticketTake (t : TransportNo) (link turn : MemRead)
  | ticketTakeDone (t : TransportNo) (ticket main alt route : MemRead)
  | binTakeDone (lane : LaneNo) (link bin : MemRead)
  | entryWriteDone (result : BusWrite)
  | handBackDone (lane : LaneNo) (result : BusWrite)
  | statusBlockWriteDone (t : TransportNo) (result : BusWrite)
  | partHalted
  | uncountedEncoderEdge (t : TransportNo) (line : EncLine)
  | outcomeWriteDone (t : TransportNo) (result : BusWrite)
  deriving DecidableEq, Repr

end Sys2Proof
end

