-- ==== Sys2Proof/Config.lean ====
section
/-! DEFINITION. What the spec leaves free: which bytes of a memory write in flight at a reset reach host memory (R164: 'A
memory write already issued may or may not reach memory'; log 6), and the values of two counts beyond the range that the spec
gives them (log 22, log 45). -/

namespace Sys2Proof

/-- Whether byte number i of the writes in flight at the k-th reset reaches host memory (R164). No body: nothing can be
proved about it. -/
opaque Config.writeReachesAtReset : Nat → Nat → Bool

/-- The rewind of a Capture Unit after a reverse count at 2^32 - 1, for the record it captures and the counter's value there:
06 Table 6-3 gives the rewind the range 0 to 2^32 - 1, and the spec states no value beyond (log 22). No body. -/
opaque Config.rewindBeyond : Nat → BitVec 32 → BitVec 32

/-- The ink count of a side whose sum, the argument, passes 2^32 - 1: 03 Table 3-1 gives it the range 0 to 2^32 - 1, and the
spec states no value beyond (log 45). No body. -/
opaque Config.inkBeyond : Nat → BitVec 32

end Sys2Proof
end

