-- ==== Sys2Proof/Machine/State.lean ====
section
/-! DEFINITION. The state of the part, as plain data: one structure per block of 00 section 2, each field at the value the
spec gives it for power-on (its default below), and the machine right after reset. -/

namespace Sys2Proof.Machine

/-! ### Names of the spec's values -/

/-- Transport states (02 Table 2-2). -/
inductive TransportState where
  | off | ready | running | draining | paused | held
  deriving DecidableEq, Repr

/-- Drain purposes (02 Table 2-1). -/
inductive Purpose where
  | none | pause | endBatch | abort | halt
  deriving DecidableEq, Repr

/-- Stop reasons (02 Table 2-1). -/
inductive StopReason where
  | none | suspect | jamEarly | jamLate | trailLate | stall | cover | misfeed
  deriving DecidableEq, Repr

/-- Pick-wait reasons, in the order of their codes (02 Table 2-5). -/
inductive PickWait where
  | none | runOn | runIn | trackFull | gap | tray | count | mark | space
  deriving DecidableEq, Repr

/-- Motor states (02 section 2.3). -/
inductive Motor where
  | standing | runIn | driving | runOff
  deriving DecidableEq, Repr

/-- Encoder multiplier modes (01 Table 1-2). -/
inductive Multiplier where
  | x1 | x2 | x4
  deriving DecidableEq, Repr

/-- A profile selector (03 Table 3-1). -/
inductive Selector where
  | main | alt
  deriving DecidableEq, Repr

/-- Lifecycle states of a sheet record (03 Table 3-2). -/
inductive Lifecycle where
  | picked | inPath | done | parked | withdrawn
  deriving DecidableEq, Repr

/-- Divider codes 2 to 6 (05 Table 5-6). -/
inductive Divider where
  | document | folder | switch | endBatch | dropNext
  deriving DecidableEq, Repr

/-- The mark result of a record (R54). -/
inductive MarkResult where
  | pending | noDivider | divider (d : Divider)
  deriving DecidableEq, Repr

/-- The action a verdict calls for, or none (R83). -/
inductive Action where
  | none | pass | review | hold
  deriving DecidableEq, Repr

/-- The ruling mark of a record (03 Table 3-1). -/
inductive RulingMark where
  | none | accepted | review
  deriving DecidableEq, Repr

/-- Standings (04 Table 4-11). -/
inductive Standing where
  | clean | flagged | accepted | review
  deriving DecidableEq, Repr

/-- Kinds of a settled record (R100). -/
inductive Kind where
  | overrun | discarded | divider | omitted | page
  deriving DecidableEq, Repr

/-- Capture states of a side (03 Table 3-1). -/
inductive CaptureState where
  | waiting | capturing | complete | discarded | notTaken
  deriving DecidableEq, Repr

/-- Line formats (06 R115). -/
inductive Format where
  | colour | grey | greyRun
  deriving DecidableEq, Repr

/-- The sides a profile takes (06 Table 6-2). -/
inductive SideChoice where
  | front | back | duplex
  deriving DecidableEq, Repr

/-- Lane states (07 Table 7-4). -/
inductive LaneState where
  | unused | idle | opened | starved | faulted
  deriving DecidableEq, Repr

/-- Part states (09 section 9.3). -/
inductive PartState where
  | halted | active | halting
  deriving DecidableEq, Repr

/-- Start results (09 Table 9-5). -/
inductive StartResult where
  | ok | version | align | range | bus
  deriving DecidableEq, Repr

/-- Answer codes of the control blocks and the room control block (10 Tables 10-7, 10-8). -/
inductive Answer where
  | done | busy | notHeld | wrongRuling | pathNotClear | setupBad | halting | unknown | badLane
  deriving DecidableEq, Repr

/-- Outcome codes (05 Table 5-9 and R91). -/
inductive OutcomeCode where
  | complete | short | over | aborted | interrupted | refused
  deriving DecidableEq, Repr

/-- Refusal reasons of a ticket (05 Table 5-2). -/
inductive RefusalReason where
  | none | profileRange | profileBad | altBad | routeRange | laneRange
  deriving DecidableEq, Repr

/-- Rulings (08 section 8.2). -/
inductive Ruling where
  | accept | review | refeed | discard | clear
  deriving DecidableEq, Repr

/-! ### Position Unit -/

/-- An armed position (R4): idle, armed, or passed with its expiry raised and not yet taken or disarmed (log 4). -/
inductive Armed where
  | idle
  | at (p : Pos)
  | raised
  deriving DecidableEq, Repr

/-- A pending change of a sensor (R6): the latch of its first raw edge, and its running hold timer's start value. -/
structure PendingChange where
  latch : Pos
  hold : Nat
  deriving DecidableEq, Repr

/-- One debounced sensor (R6): raw level, debounced level, pending change. -/
structure SensorState where
  raw : Bool := false
  level : Bool := false
  pending : Option PendingChange := none
  deriving DecidableEq, Repr

/-- The setup fields loaded at ENABLE (01 Table 1-3, 02 Table 2-4, 04 Table 4-2, 06 Table 6-1). -/
structure Setup where
  scaleMode : Nat := 0
  scale : Nat := 0
  dDF : Nat := 0
  dMK : Nat := 0
  dCF : Nat := 0
  dCB : Nat := 0
  dEX : Nat := 0
  tolerance : Nat := 0
  pickWindow : Nat := 0
  gapDistance : Nat := 0
  runInDistance : Nat := 0
  stallTime : Nat := 0
  runOffTime : Nat := 0
  pickRetries : Nat := 0
  sampleDistance : Nat := 0
  backCamera : Bool := false
  amplitudeFloor : Nat := 0
  width : Nat := 0
  kr : Nat := 0
  kg : Nat := 0
  kb : Nat := 0
  deriving DecidableEq, Repr

/-- A Position Unit (01 Table 1-1). -/
structure PositionUnit where
  levelA : Bool := false
  levelB : Bool := false
  multiplier : Multiplier := .x4
  counter : Pos := 0
  skipCount : Nat := 0
  debounce : Nat := 15
  entry : SensorState := {}
  df : SensorState := {}
  mark : SensorState := {}
  exit : SensorState := {}
  trayEmpty : SensorState := {}
  coverOpen : SensorState := {}
  dark : Bool := false
  stallTimer : Option Nat := none
  deriving DecidableEq, Repr

/-! ### Profiles, tickets and routes -/

/-- A profile (10 Table 10-3). -/
structure Profile where
  qIn : Nat := 0
  qOut : Nat := 0
  overlapMin : Nat := 0
  lMax : Nat := 0
  nominal : Nat := 0
  longTol : Nat := 0
  shortTol : Nat := 0
  suspectAction : Action := .pass
  shortAction : Action := .pass
  group : Nat := 0
  zones : List (Nat × Nat) := []
  markCheck : Bool := false
  markWait : Bool := false
  markWindow : Nat := 0
  barMin : Nat := 0
  barMax : Nat := 0
  dividerDrop : Bool := false
  sides : SideChoice := .front
  formatFront : Format := .colour
  formatBack : Format := .colour
  pitch : Nat := 65536
  reserveLines : Nat := 1
  repairLimit : Nat := 0
  sideMargin : Nat := 0
  topMargin : Nat := 0
  blankLimit : Nat := 0
  bottomMargin : Nat := 0
  inkLevel : Nat := 1
  blankDrop : Bool := false
  deriving DecidableEq, Repr

/-- A profile of the snapshot, with the two conversions made at the take (R20, R92). -/
structure ProfileCopy where
  profile : Profile := {}
  cLMax : Nat := 0
  cMarkWindow : Nat := 0
  deriving DecidableEq, Repr

/-- A route table entry as its codes (10 Table 10-4). -/
structure RouteEntry where
  group : Nat
  side : Nat
  standing : Nat
  blank : Nat
  divider : Nat
  action : Nat
  deriving DecidableEq, Repr

/-- The snapshot of a ticket take (R90). -/
structure Snapshot where
  main : ProfileCopy
  alt : Option ProfileCopy
  routes : List RouteEntry
  deriving DecidableEq, Repr

/-- The ticket copy (05 Table 5-1). -/
structure TicketCopy where
  batchId : Word
  expected : Nat
  firstDocument : Word
  accountLane : LaneNo
  endOnEmpty : Bool
  stopAtCount : Bool
  deriving DecidableEq, Repr

/-- The candidate ticket (R88). -/
inductive Candidate where
  | head
  | at (a : Addr)
  | after (a : Addr)
  deriving DecidableEq, Repr

/-- The 22 batch counters, in the order of 10 Table 10-6. -/
structure Counters where
  picked : Nat := 0
  settled : Nat := 0
  withdrawn : Nat := 0
  refed : Nat := 0
  page : Nat := 0
  divider : Nat := 0
  omitted : Nat := 0
  discarded : Nat := 0
  overrun : Nat := 0
  documents : Nat := 0
  folders : Nat := 0
  suspectsHeld : Nat := 0
  ruledAccept : Nat := 0
  ruledReview : Nat := 0
  passedFlagged : Nat := 0
  blankDropped : Nat := 0
  clipped : Nat := 0
  damaged : Nat := 0
  repaired : Nat := 0
  routeMisses : Nat := 0
  switchesObeyed : Nat := 0
  switchesRefused : Nat := 0
  deriving DecidableEq, Repr

/-- What a Batch Context writes into its ticket (R91, R106): where, the code, the reason and the counters. -/
structure OutcomeWrite where
  ticket : Addr
  code : OutcomeCode
  reason : RefusalReason
  counters : Counters
  deriving DecidableEq, Repr

/-- The batch-end closure (R104..R106): not asked; asked with these lanes not yet reported closed; the outcome being
written; the outcome written and DRAINING not yet left (log 13). -/
inductive Closure where
  | notAsked
  | asked (lanes : List LaneNo)
  | writing
  | written
  deriving DecidableEq, Repr

/-- A Batch Context (05 Table 5-1). -/
structure BatchContext where
  candidate : Candidate := .head
  take : Option Addr := none
  batch : Option Addr := none
  ticket : Option TicketCopy := none
  snapshot : Option Snapshot := none
  active : Selector := .main
  folder : Word := 1
  document : Word := 0
  sheetInDoc : Word := 0
  begun : Bool := false
  newDoc : Bool := false
  newFolder : Bool := false
  omitNext : Bool := false
  lanesTouched : List LaneNo := []
  counters : Counters := {}
  closure : Closure := .notAsked
  outcome : Option OutcomeWrite := none
  deriving DecidableEq, Repr

/-! ### The sheet track -/

/-- A stored overlap segment (R80). -/
structure Segment where
  offset : Nat
  length : Nat
  exempt : Bool
  deriving DecidableEq, Repr

/-- A record's latches at one station and the positions armed for it there (01 Table 1-4, R11). -/
structure StationTrack where
  lead : Option Pos := none
  trail : Option Pos := none
  leadEnd : Armed := .idle
  trailEnd : Armed := .idle
  deriving DecidableEq, Repr

/-- The fields of one side of a sheet record (03 Table 3-1), its stored image (R120) and its capture window (R108). -/
structure SideRecord where
  capture : CaptureState := .notTaken
  lines : Nat := 0
  repaired : Nat := 0
  clipped : Bool := false
  damaged : Bool := false
  ink : Nat := 0
  blank : Option Bool := none
  pages : List Nat := []
  reserve : Nat := 0
  image : List Byte := []
  windowStart : Armed := .idle
  windowEnd : Armed := .idle
  deriving DecidableEq, Repr

/-- The gap after a record (R37): its position not armed, armed, passed and not yet taken, or met. -/
inductive Gap where
  | unarmed
  | at (p : Pos)
  | raised
  | met
  deriving DecidableEq, Repr

/-- The verdict fields of a sheet record (R53, R83). -/
structure Verdict where
  length : Option Nat := none
  thresholds : Option (Nat × Nat) := none
  overlap : Bool := false
  long : Bool := false
  short : Bool := false
  ampUnavailable : Bool := false
  lengthUnverified : Bool := false
  decided : Bool := false
  action : Action := .none
  segments : List Segment := []
  further : Nat := 0
  deriving DecidableEq, Repr

/-- A sheet record (03 Table 3-1); id names it for the other blocks (log 21). -/
structure SheetRecord where
  id : Nat
  pickPos : Pos
  selector : Selector
  sheet : Option Word := none
  life : Lifecycle := .picked
  entry : StationTrack := {}
  df : StationTrack := {}
  mark : StationTrack := {}
  exit : StationTrack := {}
  gap : Gap := .unarmed
  verdict : Verdict := {}
  markResult : MarkResult := .pending
  switchRefused : Bool := false
  overrun : Bool := false
  suspect : Bool := false
  ruling : RulingMark := .none
  discardMark : Bool := false
  front : SideRecord := {}
  back : SideRecord := {}
  deriving DecidableEq, Repr

/-! ### Double-Feed Unit, Mark Unit, Capture Unit -/

/-- The run state (04 Table 4-1). -/
inductive RunState where
  | none
  | outside
  | inside (start : Pos)
  deriving DecidableEq, Repr

/-- A sum of samples and their count (R70, R71). -/
structure Accumulator where
  sum : Nat := 0
  count : Nat := 0
  deriving DecidableEq, Repr

/-- A Double-Feed Unit (04 Table 4-1). -/
structure DoubleFeedUnit where
  reference : Nat := 0
  step : Nat := 0
  gathering : Bool := false
  runIn : Accumulator := {}
  gap : Accumulator := {}
  trailExclusion : Nat := 0
  run : RunState := .none
  deriving DecidableEq, Repr

/-- A pulse of the reflective sensor (05 Table 5-4); its end is absent while dark. -/
structure Pulse where
  start : Pos
  stop : Option Pos
  deriving DecidableEq, Repr

/-- A measurement (05 Table 5-4): none, PROVISIONAL, or OPEN for a record. -/
inductive Measurement where
  | none
  | provisional
  | opened (id : Nat)
  deriving DecidableEq, Repr

/-- A Mark Unit (05 Table 5-4). -/
structure MarkUnit where
  measurement : Measurement := .none
  lead : Option Pos := .none
  pulses : List Pulse := []
  overflow : Bool := false
  windowEnd : Armed := .idle
  deriving DecidableEq, Repr

/-- A pixel as taken (06 section 6.3). -/
structure Pixel where
  red : Byte
  green : Byte
  blue : Byte
  deriving DecidableEq, Repr

/-- The activity of a Capture Unit (06 Table 6-3): IDLE, or CAPTURING for a record with its window end passed or not. -/
inductive Activity where
  | idle
  | capturing (id : Nat) (ended : Bool)
  deriving DecidableEq, Repr

/-- A Capture Unit (06 Table 6-3). -/
structure CaptureUnit where
  activity : Activity := .idle
  trigger : BitVec 16 := 0
  expected : BitVec 16 := 0
  accumulator : Nat := 0
  rewind : Nat := 0
  previous : Option (List Pixel) := none
  inkHistory : List Nat := []
  packetWait : Bool := false
  deriving DecidableEq, Repr

/-! ### Release queue -/

/-- The image of a piece (07 Table 7-3). -/
structure PieceImage where
  side : Side
  format : Format
  pages : List Nat
  bytes : List Byte
  width : Nat
  lines : Nat
  repaired : Nat
  damaged : Bool
  clipped : Bool
  blank : Bool
  deriving DecidableEq, Repr

/-- A piece (07 Table 7-3): no image for a placeholder. interrupted records a writing that a fault of its lane broke off
(R144). -/
structure Piece where
  lane : LaneNo
  image : Option PieceImage
  noRoute : Bool := false
  blankDropped : Bool := false
  progress : Nat := 0
  firstWritten : Bool := false
  written : Bool := false
  interrupted : Bool := false
  deriving DecidableEq, Repr

/-- An element of a release queue (07 Table 7-3). -/
structure Element where
  batchId : Word
  sheet : Word
  folder : Word
  document : Word
  sheetInDoc : Word
  standing : Standing
  kind : Kind
  markResult : MarkResult
  verdict : Verdict
  switchRefused : Bool
  sheetFirst : Bool
  pieces : List Piece
  deriving DecidableEq, Repr

/-! ### A transport -/

/-- All that one transport's blocks keep: Position Unit, Transport Controller (02 Table 2-1), Double-Feed Unit, Mark Unit,
Batch Context, two Capture Units and its release queue. -/
structure Transport where
  pos : PositionUnit := {}
  setup : Option Setup := none
  state : TransportState := .off
  purpose : Purpose := .none
  haltRequest : Bool := false
  stopReason : StopReason := .none
  pickWait : PickWait := .none
  motor : Motor := .standing
  coverWait : Bool := false
  clutch : Bool := false
  runOn : Option Nat := none
  retries : Nat := 0
  runInEnd : Armed := .idle
  runOffTimer : Option Nat := none
  track : List SheetRecord := []
  nextId : Nat := 0
  dfu : DoubleFeedUnit := {}
  marks : MarkUnit := {}
  batch : BatchContext := {}
  front : CaptureUnit := {}
  back : CaptureUnit := {}
  queue : List Element := []
  deriving DecidableEq, Repr

/-! ### Hold Store Controller -/

/-- The DRAM fitted (09 Table 9-3). -/
inductive DramSize where
  | pages4096 | pages8192 | pages16384
  deriving DecidableEq, Repr

/-- P_total (06 Table 6-7). -/
def DramSize.pages : DramSize → Nat
  | .pages4096 => 4096
  | .pages8192 => 8192
  | .pages16384 => 16384

/-- A request for admission (R122), with the profile selector it was made for (R36). -/
structure Request where
  transport : TransportNo
  need : Nat
  selector : Selector
  deriving DecidableEq, Repr

/-- The Hold Store Controller (06 Table 6-7). -/
structure HoldStore where
  dram : DramSize := .pages4096
  free : List Nat := List.range 4096
  reserved : Nat := 0
  waiting : List Request := []
  lowMark : Nat := 0
  below : Bool := false
  deriving DecidableEq, Repr

/-! ### Route and Release Unit -/

/-- A lane's bin cursor (07 Table 7-1). -/
inductive Cursor where
  | head
  | at (a : Addr)
  | after (a : Addr)
  deriving DecidableEq, Repr

/-- A lane's current bin (07 Table 7-1). -/
structure Bin where
  addr : Addr
  capacity : Nat
  filled : Nat
  count : Nat
  deriving DecidableEq, Repr

/-- A hand-back in flight (R138) with the flags it writes. -/
structure HandBack where
  isPartial : Bool
  batchEnd : Bool
  deriving DecidableEq, Repr

/-- A lane (07 Table 7-1). closeAsked is a LANE_CLOSE that waits for the entry in progress (R141). -/
structure Lane where
  state : LaneState := .idle
  cursor : Cursor := .head
  bin : Option Bin := none
  flushTime : Nat := 0
  flushTimer : Option Nat := none
  sequence : Word := 0
  restart : Bool := false
  binTake : Bool := false
  handBack : Option HandBack := none
  closeAsked : Bool := false
  requests : List TransportNo := []
  deriving DecidableEq, Repr

/-- What the lane writer's turn waits for (R131): a bin take, the end of an entry write, or the end of a hand-back. -/
inductive TurnPhase where
  | binTake | entry | handBack
  deriving DecidableEq, Repr

/-- The lane writer (R130): its pointer, and the turn it serves, if any. -/
structure Writer where
  pointer : Option TransportNo := none
  turn : Option (TransportNo × TurnPhase) := none
  deriving DecidableEq, Repr

/-! ### Room Interface -/

/-- The addresses and counts loaded from the header at START (R162); base is the latched RBASE. -/
structure RoomTable where
  base : Addr
  profileCount : Nat
  routeCount : Nat
  profiles : Addr
  routes : Addr
  room : Addr
  setup : Vector Addr 4
  control : Vector Addr 4
  status : Vector Addr 4
  deriving DecidableEq, Repr

/-- The sweep (R166): idle, or in flight with the number of its reads already behind it, in the order room control block
(0), control blocks (1 to 4), candidates (5 to 8), lanes (9 to 16). -/
inductive Sweep where
  | idle
  | inFlight (place : Nat)
  deriving DecidableEq, Repr

/-- An answer to be written into a command block (R168, R170). The room control block has no answer number. -/
structure AnswerWrite where
  block : CommandBlock
  code : Answer
  number : Word
  deriving DecidableEq, Repr

/-- A transport's status block write (09 Table 9-1). -/
inductive StatusWrite where
  | idle
  | inFlight (owed : Bool)
  deriving DecidableEq, Repr

/-- The Room Interface (09 Table 9-1). -/
structure RoomInterface where
  rbaseL : Word := 0
  rbaseH : Word := 0
  pollPeriod : Nat := 10
  part : PartState := .halted
  startInFlight : Option Addr := none
  startResult : StartResult := .ok
  table : Option RoomTable := none
  pollTimer : Option Nat := none
  sweep : Sweep := .idle
  sweepPending : Bool := false
  sweepCount : Word := 0
  setupRead : Option (TransportNo × Word) := none
  answer : Option AnswerWrite := none
  owed : Vector (Option AnswerWrite) 4 := .replicate 4 none
  owedRoom : Option AnswerWrite := none
  status : Vector StatusWrite 4 := .replicate 4 .idle
  change : Vector Word 4 := .replicate 4 0
  evt : BitVec 16 := 0
  evten : BitVec 16 := 0
  deriving DecidableEq, Repr

/-- The state of the part. hostMem holds the bytes the part has written into host memory (log 1); pending is the queue of
commands, first in, first out; freeIndex selects a fresh value of the free constant at each reset (log 6). -/
structure State where
  transports : Vector Transport 4 := .replicate 4 {}
  hold : HoldStore := {}
  lanes : Vector Lane 8 := .replicate 8 {}
  writer : Writer := {}
  room : RoomInterface := {}
  hostMem : List Host.Cell := []
  pending : List Instr := []
  freeIndex : Nat := 0
  deriving DecidableEq, Repr

/-- The part after power-on (R21, R119, R133, 09 Table 9-1), with the line levels and the DRAM size of log 5. -/
def State.reset : State := {}

/-- Faults: none. No rule of the spec stops the part: bus errors, path faults and lane faults are effects on the state
(INVENTORY.md, Faults). -/
inductive Fault where
  deriving DecidableEq, Repr

/-- Refusals. -/
inductive Refusal where
  /-- Raised by exec for a row of the table that has no meaning in this model; no arm raises it. Safe: the model stops. -/
  | notModelled (mnemonic : String)
  deriving DecidableEq, Repr

end Sys2Proof.Machine
end

