-- ==== Sys2Proof/Machine/Ops.lean ====
section
/-! DEFINITION. The named operations over the state that every family uses: reading and replacing the parts of State,
position arithmetic (01 section 1.2), the conversions L() and C() (R19, R20), little-endian fields, and the writes of the
part into host memory (R175). -/

namespace Sys2Proof.Machine

/-- What exec and step answer. -/
abbrev Result := Host.Outcome State Fault Refusal

/-! ### Parts of the state -/

/-- Transport t. -/
def State.tr (s : State) (t : TransportNo) : Transport := s.transports[t]

/-- Transport t replaced. -/
def State.setTr (s : State) (t : TransportNo) (x : Transport) : State :=
  { s with transports := s.transports.set t.val x t.isLt }

/-- Transport t changed by f. -/
def State.modTr (s : State) (t : TransportNo) (f : Transport → Transport) : State := s.setTr t (f (s.tr t))

/-- Lane n. -/
def State.lane (s : State) (n : LaneNo) : Lane := s.lanes[n]

/-- Lane n replaced. -/
def State.setLane (s : State) (n : LaneNo) (x : Lane) : State :=
  { s with lanes := s.lanes.set n.val x n.isLt }

/-- Lane n changed by f. -/
def State.modLane (s : State) (n : LaneNo) (f : Lane → Lane) : State := s.setLane n (f (s.lane n))

/-- The Room Interface replaced. -/
def State.setRoom (s : State) (r : RoomInterface) : State := { s with room := r }

/-- The Room Interface changed by f. -/
def State.modRoom (s : State) (f : RoomInterface → RoomInterface) : State := s.setRoom (f s.room)

/-- The Hold Store Controller replaced. -/
def State.setHold (s : State) (h : HoldStore) : State := { s with hold := h }

/-- The lane writer replaced. -/
def State.setWriter (s : State) (w : Writer) : State := { s with writer := w }

/-- The bytes written to host memory replaced. -/
def State.setHostMem (s : State) (m : List Host.Cell) : State := { s with hostMem := m }

/-- All transports, in the order in which the model takes them (log 38). -/
def allTransports : List TransportNo := [0, 1, 2, 3]

/-- All lanes, in order. -/
def allLanes : List LaneNo := [0, 1, 2, 3, 4, 5, 6, 7]

/-- The loaded setup; all zero while none is loaded, when no rule consults it (R5, log 23). -/
def Transport.cfg (x : Transport) : Setup := x.setup.getD {}

/-- The station's latches and armed positions of a record. -/
def SheetRecord.at (r : SheetRecord) : Station → StationTrack
  | .entry => r.entry
  | .df => r.df
  | .mark => r.mark
  | .exit => r.exit

/-- The station's latches and armed positions of a record replaced. -/
def SheetRecord.setAt (r : SheetRecord) (st : Station) (x : StationTrack) : SheetRecord :=
  match st with
  | .entry => { r with entry := x }
  | .df => { r with df := x }
  | .mark => { r with mark := x }
  | .exit => { r with exit := x }

/-- One side of a record. -/
def SheetRecord.side (r : SheetRecord) : Side → SideRecord
  | .front => r.front
  | .back => r.back

/-- One side of a record replaced. -/
def SheetRecord.setSide (r : SheetRecord) (sd : Side) (x : SideRecord) : SheetRecord :=
  match sd with
  | .front => { r with front := x }
  | .back => { r with back := x }

/-- A transport's Capture Unit of one side. -/
def Transport.unit (x : Transport) : Side → CaptureUnit
  | .front => x.front
  | .back => x.back

/-- A transport's Capture Unit of one side replaced. -/
def Transport.setUnit (x : Transport) (sd : Side) (u : CaptureUnit) : Transport :=
  match sd with
  | .front => { x with front := u }
  | .back => { x with back := u }

/-- A sensor of a Position Unit. -/
def PositionUnit.sensor (p : PositionUnit) : Sensor → SensorState
  | .station .entry => p.entry
  | .station .df => p.df
  | .station .mark => p.mark
  | .station .exit => p.exit
  | .trayEmpty => p.trayEmpty
  | .coverOpen => p.coverOpen

/-- A sensor of a Position Unit replaced. -/
def PositionUnit.setSensor (p : PositionUnit) (sn : Sensor) (x : SensorState) : PositionUnit :=
  match sn with
  | .station .entry => { p with entry := x }
  | .station .df => { p with df := x }
  | .station .mark => { p with mark := x }
  | .station .exit => { p with exit := x }
  | .trayEmpty => { p with trayEmpty := x }
  | .coverOpen => { p with coverOpen := x }

/-- The oldest record of a track with a property. -/
def Transport.findRecord (x : Transport) (p : SheetRecord → Bool) : Option SheetRecord := x.track.find? p

/-- The record with an id. -/
def Transport.record (x : Transport) (id : Nat) : Option SheetRecord := x.track.find? fun r => r.id == id

/-- The record with an id changed by f, wherever it stands in the track. -/
def Transport.modRecord (x : Transport) (id : Nat) (f : SheetRecord → SheetRecord) : Transport :=
  { x with track := x.track.map fun r => if r.id = id then f r else r }

/-- The newest record of the track (02 Table 2-5, note b). -/
def Transport.newest (x : Transport) : Option SheetRecord := x.track.getLast?

/-- The profile copy that a selector names in the batch's snapshot. -/
def Transport.copyOf (x : Transport) (sel : Selector) : ProfileCopy :=
  match x.batch.snapshot with
  | none => {}
  | some sn =>
    match sel with
    | .main => sn.main
    | .alt => sn.alt.getD sn.main

/-- The profile that a selector names in the batch's snapshot (R51). -/
def Transport.profileOf (x : Transport) (sel : Selector) : Profile := (x.copyOf sel).profile

/-- The transport is RUNNING or DRAINING: attribution, windows and deadlines are in force (R8). -/
def Transport.isActive (x : Transport) : Bool := x.state == .running || x.state == .draining

/-! ### Positions (01 section 1.2) -/

/-- The forward distance from p to q. -/
def fwd (p q : Pos) : Nat := (q - p).toNat

/-- q lies within the range from s to e. -/
def within (s e q : Pos) : Bool := decide (fwd s q ≤ fwd s e)

/-- The counter has already passed p: it is 1 to 2^31 - 1 counts beyond it (R37, R93, R108; log 4). -/
def passed (p counter : Pos) : Bool := decide (1 ≤ fwd p counter) && decide (fwd p counter < 2 ^ 31)

/-- A forward distance of 2^31 or more is taken as 0 (R78, R96). -/
def nearDistance (p q : Pos) : Nat := if fwd p q ≥ 2 ^ 31 then 0 else fwd p q

/-- p moved on by n counts. -/
def posPlus (p : Pos) (n : Nat) : Pos := p + BitVec.ofNat 32 n

/-- p moved back by n counts. -/
def posMinus (p : Pos) (n : Nat) : Pos := p - BitVec.ofNat 32 n

/-- The forward count that moves the counter from p to p + 1 raises an expiry armed at p (R4). -/
def Armed.pass (p : Pos) : Armed → Armed
  | .at q => if q = p then .raised else .at q
  | .idle => .idle
  | .raised => .raised

/-- The gap position is passed like any armed position (R37). -/
def Gap.pass (p : Pos) : Gap → Gap
  | .at q => if q = p then .raised else .at q
  | .unarmed => .unarmed
  | .raised => .raised
  | .met => .met

/-! ### Conversions (01 section 1.6) -/

/-- 2^f for a scale mode (01 Table 1-6). -/
def scaleUnit (mode : Nat) : Nat := 2 ^ (16 - mode)

/-- L(n): the length in tenths of a millimetre of n counts (R19). -/
def lengthOf (mode scale n : Nat) : Nat :=
  min 65535 ((n * scale + scaleUnit mode / 2) / scaleUnit mode)

/-- C(x): the least number of counts that covers x tenths (R20). -/
def countsOf (mode scale x : Nat) : Nat :=
  min 16777215 ((x * scaleUnit mode + (scale - 1)) / scale)

/-- L() with a transport's loaded scale. -/
def Transport.tenths (x : Transport) (n : Nat) : Nat := lengthOf x.cfg.scaleMode x.cfg.scale n

/-- C() with a transport's loaded scale. -/
def Transport.counts (x : Transport) (n : Nat) : Nat := countsOf x.cfg.scaleMode x.cfg.scale n

/-! ### Counters -/

/-- A 32-bit count that rises by n and stays at 2^32 - 1 (R103). -/
def sat32 (a n : Nat) : Nat := min (2 ^ 32 - 1) (a + n)

/-- A count that stays at 255 (R3, R80). -/
def sat255 (a : Nat) : Nat := min 255 (a + 1)

/-! ### Little-endian fields (00 section 4.2) -/

/-- The n-byte number at an offset of a record read; a byte that the read did not give counts as 0 (log 24). -/
def field (bytes : List Byte) (offset : Nat) : Nat → Nat
  | 0 => 0
  | n + 1 => (bytes.getD offset 0).toNat + 256 * field bytes (offset + 1) n

/-- A number as n bytes. -/
def leBytes (v : Nat) : Nat → List Byte
  | 0 => []
  | n + 1 => BitVec.ofNat 8 v :: leBytes (v / 256) n

/-- n bytes of 0 (R175, zero fill). -/
def zeroBytes (n : Nat) : List Byte := List.replicate n 0

/-! ### Host memory as the part has written it (log 1) -/

/-- The canonical form: addresses strictly rising. -/
def Memory.wf : List Host.Cell → Bool
  | [] => true
  | [_] => true
  | (a, _) :: (b, y) :: rest => decide (a < b) && Memory.wf ((b, y) :: rest)

/-- The last byte the part has written at an address; none where it has written nothing. -/
def readCell (a : Nat) : List Host.Cell → Option Byte
  | [] => none
  | (b, y) :: rest => if a = b then some y else readCell a rest

/-- One byte written, keeping the addresses rising. -/
def writeCell (a : Nat) (x : Byte) : List Host.Cell → List Host.Cell
  | [] => [(a, x)]
  | (b, y) :: rest =>
    if a < b then (a, x) :: (b, y) :: rest
    else if a = b then (a, x) :: rest
    else (b, y) :: writeCell a x rest

/-- Bytes written in order. -/
def writeCells (cells : List Host.Cell) (mem : List Host.Cell) : List Host.Cell :=
  cells.foldl (fun m c => writeCell c.1 c.2 m) mem

/-- The byte writes of consecutive bytes from an offset of a record; the address wraps at 2^64 (log 40). -/
def cellsAt (base : Addr) (offset : Nat) : List Byte → List Host.Cell
  | [] => []
  | x :: rest => ((base + BitVec.ofNat 64 offset).toNat, x) :: cellsAt base (offset + 1) rest

/-- The byte writes of a list of fields, each an offset and its bytes, in the order written. -/
def recordCells (base : Addr) : List (Nat × List Byte) → List Host.Cell
  | [] => []
  | f :: rest => cellsAt base f.1 f.2 ++ recordCells base rest

/-- What of a write sequence reaches memory: all of it, or its first bytes (R175, log 8). -/
def landedCells (r : BusWrite) (cells : List Host.Cell) : List Host.Cell :=
  match r with
  | .ok => cells
  | .busError n => cells.take n

/-- A write sequence ends: its bytes stand in host memory. -/
def State.hostWrite (s : State) (r : BusWrite) (cells : List Host.Cell) : State :=
  s.setHostMem (writeCells (landedCells r cells) s.hostMem)

end Sys2Proof.Machine
end

