-- ==== Sys2Proof/Machine/Flags.lean ====
section
/-! DEFINITION. The event bits and the interrupt line (09 section 9.8), the register views (09 Tables 9-2, 9-3), and the
flags of an entry header (10 Table 10-12). -/

namespace Sys2Proof.Machine

/-- The causes of 09 Table 9-4. -/
inductive Event where
  | transport (t : TransportNo)
  | lane (n : LaneNo)
  | room
  | space
  | memfault
  | halted
  deriving DecidableEq, Repr

/-- The bit position of an event (09 Table 9-4). -/
def Event.bit : Event → Nat
  | .transport t => t.val
  | .lane n => 4 + n.val
  | .room => 12
  | .space => 13
  | .memfault => 14
  | .halted => 15

/-- A cause sets its bit; a bit already set stays set (R172). -/
def State.setEvent (s : State) (e : Event) : State :=
  s.modRoom fun r => { r with evt := r.evt ||| (1#16 <<< e.bit) }

/-- EVTACT: EVT AND EVTEN (R173). -/
def State.evtact (s : State) : BitVec 16 := s.room.evt &&& s.room.evten

/-- The interrupt line is asserted while EVTACT is not 0 (R173). -/
def State.interrupt (s : State) : Bool := s.evtact != 0

/-- The code of the part state in RUNCTL (09 Table 9-3). -/
def PartState.code : PartState → Nat
  | .halted => 0
  | .active => 1
  | .halting => 2

/-- The code of the start result in RUNCTL (09 Table 9-3). -/
def StartResult.code : StartResult → Nat
  | .ok => 0
  | .version => 1
  | .align => 2
  | .range => 3
  | .bus => 4

/-- The hold-store size code (09 Table 9-3). -/
def DramSize.code : DramSize → Nat
  | .pages4096 => 0
  | .pages8192 => 1
  | .pages16384 => 2

/-- The registers of the window (09 Table 9-2). -/
inductive Register where
  | rbaseL | rbaseH | runctl | sweep | evt | evten | evtact | evtclr
  deriving DecidableEq, Repr

/-- The register at an offset of the 32-byte window (09 Table 9-2); registers are read and written as whole words. -/
def registerAt : Nat → Option Register
  | 0x00 => some .rbaseL
  | 0x04 => some .rbaseH
  | 0x08 => some .runctl
  | 0x0C => some .sweep
  | 0x10 => some .evt
  | 0x14 => some .evten
  | 0x18 => some .evtact
  | 0x1C => some .evtclr
  | _ => none

/-- What a read of a register returns (09 Tables 9-2, 9-3); a read changes nothing (log 26). -/
def State.readRegister (s : State) : Register → Word
  | .rbaseL => s.room.rbaseL
  | .rbaseH => s.room.rbaseH
  | .runctl =>
    BitVec.ofNat 32 (s.room.part.code * 2 ^ 8 + s.room.startResult.code * 2 ^ 12 + s.hold.dram.code * 2 ^ 16
      + s.room.pollPeriod * 2 ^ 24)
  | .sweep => s.room.sweepCount
  | .evt => s.room.evt.setWidth 32
  | .evten => s.room.evten.setWidth 32
  | .evtact => s.evtact.setWidth 32
  | .evtclr => 0

/-- The latched header address: RBASE_H and RBASE_L (09 Table 9-2). -/
def RoomInterface.rbase (r : RoomInterface) : Addr := r.rbaseH ++ r.rbaseL

/-- A flag as a power of two at its bit position. -/
def flagBit (b : Bool) (n : Nat) : Nat := if b then 2 ^ n else 0

/-- The mark result is a divider code. -/
def MarkResult.isDivider : MarkResult → Bool
  | .divider _ => true
  | .pending => false
  | .noDivider => false

/-- The divider code of an entry: 0 for NONE (10 Table 10-11). -/
def MarkResult.code : MarkResult → Nat
  | .pending => 0
  | .noDivider => 0
  | .divider .document => 2
  | .divider .folder => 3
  | .divider .switch => 4
  | .divider .endBatch => 5
  | .divider .dropNext => 6

/-- The flags of an entry of a piece (R137, bit positions of 10 Table 10-12). -/
def entryFlags (e : Element) (p : Piece) (sheetFirst continues : Bool) : Nat :=
  flagBit sheetFirst 0 + flagBit continues 1
    + flagBit (p.image.any fun i => decide (0 < i.repaired)) 2
    + flagBit (p.image.any (·.damaged)) 3
    + flagBit (p.image.any (·.clipped)) 4
    + flagBit (match p.image with | some i => i.blank | none => p.blankDropped) 5
    + flagBit e.markResult.isDivider 6
    + flagBit (e.kind == .overrun) 7
    + flagBit (e.standing == .accepted) 8
    + flagBit (e.standing == .flagged) 9
    + flagBit p.noRoute 10
    + flagBit e.verdict.ampUnavailable 11
    + flagBit e.verdict.lengthUnverified 12
    + flagBit (e.kind == .omitted) 13
    + flagBit (e.kind == .discarded) 14
    + flagBit e.switchRefused 15

/-- The verdict flags of an entry (10 Table 10-11). -/
def verdictBits (v : Verdict) : Nat := flagBit v.overlap 0 + flagBit v.long 1 + flagBit v.short 2

end Sys2Proof.Machine
end

