-- ==== Sys2Proof/Machine/Operands.lean ====
section
/-! DEFINITION. The records of host memory by the layouts of 10 (R174): what the part takes from the bytes a read gave, and
the bytes it writes (R175). -/

namespace Sys2Proof.Machine

/-! ### Words written to the register window -/

/-- What the command field of RUNCTL, bits 2 to 0, commands; 0 and the unknown values do nothing (R161, 09 Table 9-3). -/
inductive RunctlCommand where
  | start | halt | softReset | none
  deriving DecidableEq, Repr

/-- The command field of a word written to RUNCTL (09 Table 9-3). -/
def runctlCommand (value : Word) : RunctlCommand :=
  match (value.extractLsb' 0 3).toNat with
  | 1 => .start
  | 2 => .halt
  | 3 => .softReset
  | _ => .none

/-- The poll period field of a word written to RUNCTL, bits 31 to 24 (09 Table 9-3). -/
def runctlPeriod (value : Word) : Byte := value.extractLsb' 24 8

/-- The row that a word written to RUNCTL spells, each with the poll period field of the word; the other bits are ignored (R161,
log 34). -/
def runctlRow (value : Word) : Instr :=
  match runctlCommand value with
  | .start => .start (runctlPeriod value)
  | .halt => .halt (runctlPeriod value)
  | .softReset => .softReset (runctlPeriod value)
  | .none => .pollPeriodWrite (runctlPeriod value)

/-- The row that a word written to a register spells (R161, R165, R172, R173, 09 Table 9-2). -/
def registerRow (r : Register) (value : Word) : Instr :=
  match r with
  | .rbaseL => .rbaseWrite false value
  | .rbaseH => .rbaseWrite true value
  | .runctl => runctlRow value
  | .sweep => .sweepWrite value
  | .evt => .registerWrite .evt value
  | .evten => .evtenWrite value
  | .evtact => .registerWrite .evtact value
  | .evtclr => .evtclrWrite value

/-! ### Records the part reads -/

/-- An 8-byte address field. -/
def addrField (bytes : List Byte) (offset : Nat) : Addr := BitVec.ofNat 64 (field bytes offset 8)

/-- An address is a multiple of n. -/
def multipleOf (a : BitVec 64) (n : Nat) : Bool := a.toNat % n == 0

/-- A turn byte read as PART; any value but 1 is not posted (R160). -/
def turnPosted (bytes : List Byte) : Bool := field bytes 0 1 == 1

/-- What a control block commands by its command and argument bytes (10 Table 10-7). -/
inductive ControlCommand where
  | enable | disable | pause | resume | abort
  | rule (k : Ruling)
  | unknown
  deriving DecidableEq, Repr

/-- A RULE's argument (10 Table 10-7); any other is not known (R22). -/
def ruleArgument : Nat → ControlCommand
  | 1 => .rule .accept
  | 2 => .rule .review
  | 3 => .rule .refeed
  | 4 => .rule .discard
  | 5 => .rule .clear
  | _ => .unknown

/-- The command of a control block's bytes (10 Table 10-7); any other code is not known (R22). -/
def controlCommand (bytes : List Byte) : ControlCommand :=
  match field bytes 1 1 with
  | 1 => .enable
  | 2 => .disable
  | 3 => .pause
  | 4 => .resume
  | 5 => .abort
  | 6 => ruleArgument (field bytes 2 1)
  | _ => .unknown

/-- The answer number of a control block's bytes (10 Table 10-7). -/
def answerNumber (bytes : List Byte) : Word := BitVec.ofNat 32 (field bytes 4 4)

/-- What the room control block commands by its command byte (10 Table 10-8). -/
inductive RoomCommand where
  | laneRestart | laneClose | unknown
  deriving DecidableEq, Repr

/-- The command of the room control block's bytes (10 Table 10-8); any other code is not known (R170). -/
def roomCommand (bytes : List Byte) : RoomCommand :=
  match field bytes 1 1 with
  | 1 => .laneRestart
  | 2 => .laneClose
  | _ => .unknown

/-- The lane number of the room control block's bytes (10 Table 10-8). -/
def laneNumber (bytes : List Byte) : Nat := field bytes 2 1

/-- The row that the bytes of a posted control block spell (10 Table 10-7, R22). -/
def controlRow (t : TransportNo) (bytes : List Byte) : Instr :=
  match controlCommand bytes with
  | .enable => .enable t (.data bytes)
  | .disable => .disable t (.data bytes)
  | .pause => .pause t (.data bytes)
  | .resume => .resume t (.data bytes)
  | .abort => .abort t (.data bytes)
  | .rule .accept => .ruleAccept t (.data bytes)
  | .rule .review => .ruleReview t (.data bytes)
  | .rule .refeed => .ruleRefeed t (.data bytes)
  | .rule .discard => .ruleDiscard t (.data bytes)
  | .rule .clear => .ruleClear t (.data bytes)
  | .unknown => .unknownCommand t (.data bytes)

/-- The row that the bytes of a posted room control block spell (10 Table 10-8, R170). -/
def roomRow (bytes : List Byte) : Instr :=
  match roomCommand bytes with
  | .laneRestart => .laneRestart (.data bytes)
  | .laneClose => .laneClose (.data bytes)
  | .unknown => .roomUnknownCommand

/-- The Room Table header (10 Table 10-1). -/
structure Header where
  version : Nat
  profileCount : Nat
  routeCount : Nat
  lowMark : Nat
  profiles : Addr
  routes : Addr
  room : Addr
  setup : Vector Addr 4
  control : Vector Addr 4
  status : Vector Addr 4
  laneHead : Vector Addr 8
  laneFlush : Vector Nat 8
  deriving DecidableEq, Repr

/-- The header's fields. -/
def parseHeader (b : List Byte) : Header where
  version := field b 0 4
  profileCount := field b 4 1
  routeCount := field b 5 1
  lowMark := field b 8 4
  profiles := addrField b 16
  routes := addrField b 24
  room := addrField b 32
  setup := Vector.ofFn fun i => addrField b (40 + 8 * i.val)
  control := Vector.ofFn fun i => addrField b (72 + 8 * i.val)
  status := Vector.ofFn fun i => addrField b (104 + 8 * i.val)
  laneHead := Vector.ofFn fun i => addrField b (168 + 16 * i.val)
  laneFlush := Vector.ofFn fun i => field b (168 + 16 * i.val + 8) 2

/-- The block and table addresses that rows 3 and 4 of 09 Table 9-5 judge. -/
def Header.blocks (h : Header) : List Addr :=
  h.setup.toList ++ h.control.toList ++ h.status.toList ++ [h.profiles, h.routes, h.room]

/-- Rows 2 to 5 of 09 Table 9-5: the first that applies. -/
def Header.judge (h : Header) (total : Nat) : StartResult :=
  if h.version ≠ 1 then .version
  else if !(h.blocks.all fun a => multipleOf a 64) || !(h.laneHead.toList.all fun a => multipleOf a 4096) then .align
  else if h.blocks.any (· == 0) || h.profileCount == 0 || decide (32 < h.profileCount) || h.routeCount == 0
      || decide (8 < h.routeCount) || h.laneHead[0] == 0 || decide (total < h.lowMark) then .range
  else .ok

/-- A multiplier code (10 Table 10-2). -/
def multiplierOf : Nat → Option Multiplier
  | 1 => some .x1
  | 2 => some .x2
  | 4 => some .x4
  | _ => none

/-- A byte that is 0 or 1; other codes are unknown. -/
def boolOf : Nat → Option Bool
  | 0 => some false
  | 1 => some true
  | _ => none

/-- What an ENABLE loads. -/
structure SetupBlock where
  multiplier : Multiplier
  debounce : Nat
  fields : Setup
  deriving DecidableEq, Repr

/-- The fields of a setup block as they stand (10 Table 10-2). -/
def setupFields (b : List Byte) : Setup where
  scaleMode := field b 1 1
  scale := field b 2 2
  dDF := field b 4 2
  dMK := field b 6 2
  dCF := field b 8 2
  dCB := field b 10 2
  dEX := field b 12 2
  tolerance := field b 14 2 % 4096
  pickWindow := field b 16 2
  gapDistance := field b 18 2
  runInDistance := field b 20 2
  stallTime := field b 23 1
  runOffTime := field b 24 1
  pickRetries := field b 25 1
  sampleDistance := field b 26 1
  backCamera := field b 27 1 == 1
  amplitudeFloor := field b 28 2
  width := field b 30 2
  kr := field b 32 1
  kg := field b 33 1
  kb := field b 34 1

/-- Every range that 01 Table 1-3, 02 Table 2-4, 04 Table 4-2 and 06 Table 6-1 refuse outside of. -/
def Setup.inRange (u : Setup) : Bool :=
  decide (u.scaleMode ≤ 2) && decide (u.scale ≠ 0)
    && decide (0 < u.dDF) && decide (u.dDF < u.dMK) && decide (u.dMK < u.dCF) && decide (u.dCF < u.dCB)
    && decide (u.dCB < u.dEX) && decide (u.pickWindow ≠ 0) && decide (u.stallTime ≠ 0)
    && decide (u.runInDistance ≤ 4095) && decide (u.pickRetries ≤ 3)
    && decide (1 ≤ u.sampleDistance) && decide (u.sampleDistance ≤ 64) && decide (u.amplitudeFloor ≤ 1023)
    && decide (64 ≤ u.width) && decide (u.width ≤ 3072)

/-- A setup block judged: all its fields, or none when one of them is refused (R5, R23). -/
def parseSetup (b : List Byte) : Option SetupBlock :=
  match multiplierOf (field b 0 1), boolOf (field b 27 1) with
  | some m, some _ =>
    if (setupFields b).inRange then some { multiplier := m, debounce := field b 22 1 % 16, fields := setupFields b } else none
  | _, _ => none

/-- A profile's action code (10 Table 10-3). -/
def actionOf : Nat → Option Action
  | 0 => some .pass
  | 1 => some .review
  | 2 => some .hold
  | _ => none

/-- A profile's sides code. -/
def sidesOf : Nat → Option SideChoice
  | 0 => some .front
  | 1 => some .back
  | 2 => some .duplex
  | _ => none

/-- A profile's format code. -/
def formatOf : Nat → Option Format
  | 0 => some .colour
  | 1 => some .grey
  | 2 => some .greyRun
  | _ => none

/-- The first n zones (10 Table 10-3, note a). -/
def zonesOf (b : List Byte) (n : Nat) : List (Nat × Nat) :=
  (List.range n).map fun i => (field b (16 + 4 * i) 2, field b (18 + 4 * i) 2)

/-- The ranges that make a profile bad: 04 Table 4-3, 05 Table 5-3, 05 Table 5-2 note a and R174. -/
def Profile.inRange (p : Profile) (zoneCount : Nat) : Bool :=
  decide (p.qIn ≠ 0) && decide (p.qIn < p.qOut) && decide (zoneCount ≤ 4) && p.zones.all (fun z => decide (z.1 < z.2))
    && decide (p.lMax ≠ 0) && decide (p.nominal ≤ p.lMax) && decide (p.group ≤ 15) && decide (p.barMin ≤ p.barMax)
    && decide (65536 ≤ p.pitch) && decide (p.pitch ≤ 4194304) && decide (p.reserveLines ≠ 0)

/-- A profile judged: its fields, or none when it is bad (R90, R174). An ink level of 0 is taken as 1 and a bottom margin
above 64 as 64. -/
def parseProfile (b : List Byte) : Option Profile := do
  let suspectAction ← actionOf (field b 12 1)
  let shortAction ← actionOf (field b 13 1)
  let markCheck ← boolOf (field b 32 1)
  let markWait ← boolOf (field b 33 1)
  let dividerDrop ← boolOf (field b 40 1)
  let sides ← sidesOf (field b 41 1)
  let formatFront ← formatOf (field b 42 1)
  let formatBack ← formatOf (field b 43 1)
  let blankDrop ← boolOf (field b 60 1)
  let p : Profile :=
    { qIn := field b 0 1, qOut := field b 1 1, overlapMin := field b 2 2, lMax := field b 4 2, nominal := field b 6 2,
      longTol := field b 8 2, shortTol := field b 10 2, suspectAction, shortAction, group := field b 15 1,
      zones := zonesOf b (min 4 (field b 14 1)), markCheck, markWait, markWindow := field b 34 2, barMin := field b 36 2,
      barMax := field b 38 2, dividerDrop, sides, formatFront, formatBack, pitch := field b 44 4,
      reserveLines := field b 48 2, repairLimit := field b 50 2, sideMargin := field b 52 2, topMargin := field b 54 2,
      blankLimit := field b 56 2, bottomMargin := min 64 (field b 58 1), inkLevel := max 1 (field b 59 1), blankDrop }
  if p.inRange (field b 14 1) then some p else none

/-- The entries of a route table, entry count 0 to 32 (10 section 10.4). -/
def parseRoutes (b : List Byte) : List RouteEntry :=
  (List.range (field b 0 1)).map fun i =>
    { group := field b (64 + 8 * i) 1, side := field b (65 + 8 * i) 1, standing := field b (66 + 8 * i) 1,
      blank := field b (67 + 8 * i) 1, divider := field b (68 + 8 * i) 1, action := field b (69 + 8 * i) 1 }

/-- The fields of a ticket that a take reads (10 Table 10-5). -/
structure TicketFields where
  endOnEmpty : Bool
  stopAtCount : Bool
  main : Nat
  alt : Nat
  route : Nat
  account : Nat
  batchId : Word
  expected : Nat
  firstDocument : Word
  deriving DecidableEq, Repr

/-- The ticket's fields. -/
def parseTicket (b : List Byte) : TicketFields where
  endOnEmpty := field b 1 1 % 2 == 1
  stopAtCount := field b 1 1 / 2 % 2 == 1
  main := field b 2 1
  alt := field b 3 1
  route := field b 4 1
  account := field b 5 1
  batchId := BitVec.ofNat 32 (field b 16 4)
  expected := field b 20 4
  firstDocument := BitVec.ofNat 32 (field b 24 4)

/-! ### Codes the part writes -/

/-- Transport state codes (10 Table 10-9). -/
def TransportState.code : TransportState → Nat
  | .off => 0
  | .ready => 1
  | .running => 2
  | .draining => 3
  | .paused => 4
  | .held => 5

/-- Stop reason codes (10 Table 10-9). -/
def StopReason.code : StopReason → Nat
  | .none => 0
  | .suspect => 1
  | .jamEarly => 2
  | .jamLate => 3
  | .trailLate => 4
  | .stall => 5
  | .cover => 6
  | .misfeed => 7

/-- Pick-wait reason codes (10 Table 10-9). -/
def PickWait.code : PickWait → Nat
  | .none => 0
  | .runOn => 1
  | .runIn => 2
  | .trackFull => 3
  | .gap => 4
  | .tray => 5
  | .count => 6
  | .mark => 7
  | .space => 8

/-- Drain purpose codes (10 Table 10-9). -/
def Purpose.code : Purpose → Nat
  | .none => 0
  | .pause => 1
  | .endBatch => 2
  | .abort => 3
  | .halt => 4

/-- Answer codes of a control block (10 Table 10-7). -/
def Answer.controlCode : Answer → Nat
  | .done => 1
  | .busy => 2
  | .notHeld => 3
  | .wrongRuling => 4
  | .pathNotClear => 5
  | .setupBad => 6
  | .halting => 7
  | .unknown => 8
  | .badLane => 8

/-- Answer codes of the room control block (10 Table 10-8); the room control block is answered with these four alone. -/
def Answer.roomCode : Answer → Nat
  | .done => 1
  | .badLane => 2
  | .busy => 3
  | .unknown => 8
  | .notHeld => 8
  | .wrongRuling => 8
  | .pathNotClear => 8
  | .setupBad => 8
  | .halting => 8

/-- Outcome codes (10 Table 10-5). -/
def OutcomeCode.code : OutcomeCode → Nat
  | .complete => 1
  | .short => 2
  | .over => 3
  | .aborted => 4
  | .interrupted => 5
  | .refused => 6

/-- Refusal reason codes (10 Table 10-5). -/
def RefusalReason.code : RefusalReason → Nat
  | .none => 0
  | .profileRange => 1
  | .profileBad => 2
  | .altBad => 3
  | .routeRange => 4
  | .laneRange => 5

/-- Format codes of an entry (10 Table 10-11). -/
def Format.entryCode : Format → Nat
  | .colour => 1
  | .grey => 2
  | .greyRun => 3

/-- Side codes of an entry (10 Table 10-11). -/
def sideEntryCode : Side → Nat
  | .front => 1
  | .back => 2

/-! ### Records the part writes -/

/-- The counters in the order of 10 Table 10-6. -/
def Counters.toList (c : Counters) : List Nat :=
  [c.picked, c.settled, c.withdrawn, c.refed, c.page, c.divider, c.omitted, c.discarded, c.overrun, c.documents, c.folders,
   c.suspectsHeld, c.ruledAccept, c.ruledReview, c.passedFlagged, c.blankDropped, c.clipped, c.damaged, c.repaired,
   c.routeMisses, c.switchesObeyed, c.switchesRefused]

/-- The outcome area of a ticket, then its turn as STATION (R91, R106, R175). -/
def outcomeCells (w : OutcomeWrite) : List Host.Cell :=
  recordCells w.ticket
    [(6, leBytes w.code.code 1), (7, leBytes w.reason.code 1),
     (64, w.counters.toList.flatMap fun v => leBytes v 4), (0, [0])]

/-- An answer: code, answer number, and the turn last (R168, R170, log 25). -/
def answerCells (table : RoomTable) (w : AnswerWrite) : List Host.Cell :=
  match w.block with
  | .control t => recordCells table.control[t] [(3, leBytes w.code.controlCode 1), (4, leBytes w.number.toNat 4), (0, [0])]
  | .room => recordCells table.room [(3, leBytes w.code.roomCode 1), (0, [0])]

/-- The bytes of a status block between its two copies of the change number, zero filled (10 Table 10-9, R175). -/
def statusFields (x : Transport) : List Byte :=
  leBytes x.state.code 1 ++ leBytes x.stopReason.code 1 ++ leBytes x.pickWait.code 1 ++ leBytes x.purpose.code 1
    ++ leBytes (x.batch.ticket.elim 0 (·.batchId.toNat)) 4 ++ leBytes x.track.length 1 ++ leBytes x.queue.length 1
    ++ leBytes x.pos.skipCount 1 ++ zeroBytes 1 ++ leBytes x.batch.counters.picked 4 ++ leBytes x.batch.counters.settled 4
    ++ leBytes x.dfu.reference 2 ++ zeroBytes 34

/-- A status block: leading copy, fields, trailing copy (R171, R175). The fields between the copies are written in rising address
order, which no rule gives (DESIGN CHOICE, log 54). -/
def statusCells (base : Addr) (change : Word) (x : Transport) : List Host.Cell :=
  recordCells base [(0, leBytes change.toNat 4), (4, statusFields x), (60, leBytes change.toNat 4)]

/-- A bin header at a hand-back: filled bytes, entry count, lane, sequence number, flags, zero fill, and the turn last
(R138, 10 Table 10-10, R175). That the zero fill stands between the flags and the turn is the model's choice (DESIGN CHOICE,
log 54). -/
def handBackCells (b : Bin) (n : LaneNo) (sequence : Word) (h : HandBack) : List Host.Cell :=
  recordCells b.addr
    [(16, leBytes b.filled 4), (20, leBytes b.count 4), (2, leBytes n.val 1), (24, leBytes sequence.toNat 4),
     (1, leBytes (flagBit h.isPartial 0 + flagBit h.batchEnd 1) 1), (3, zeroBytes 1), (28, zeroBytes 36), (0, [0])]

/-- The 16-byte slot of a stored segment (10 Table 10-11). -/
def segmentBytes (g : Segment) : List Byte :=
  leBytes g.offset 2 ++ leBytes g.length 2 ++ leBytes (flagBit g.exempt 0) 1 ++ zeroBytes 11

/-- The kind of the next entry of a piece (R136). -/
inductive EntryKind where
  | image | continuation | placeholder
  deriving DecidableEq, Repr

/-- The code of an entry kind (10 Table 10-11). -/
def EntryKind.code : EntryKind → Nat
  | .image => 1
  | .continuation => 2
  | .placeholder => 3

/-- The next entry of a piece: IMAGE first, CONTINUE after a cut, PLACEHOLDER without an image (R136). -/
def Piece.entryKind (p : Piece) : EntryKind :=
  match p.image with
  | none => .placeholder
  | some _ => if p.firstWritten then .continuation else .image

/-- The image byte total of a piece, 0 for a placeholder. -/
def Piece.total (p : Piece) : Nat := p.image.elim 0 (·.bytes.length)

/-- The segments that an entry carries (R136). -/
def entrySegments (e : Element) : EntryKind → List Segment
  | .image => e.verdict.segments
  | .placeholder => e.verdict.segments
  | .continuation => []

/-- n rounded up to a multiple of 64 (R136). -/
def roundUp64 (n : Nat) : Nat := (n + 63) / 64 * 64

/-- The header length of an entry: 48 and 16 for each segment, rounded up (R136). -/
def entryHeaderLength (e : Element) (p : Piece) : Nat :=
  roundUp64 (48 + 16 * (entrySegments e p.entryKind).length)

/-- The data bytes of the next entry in a room: the rest of the image, or as much as the room after the header holds. -/
def entryDataLength (e : Element) (p : Piece) (room : Nat) : Nat :=
  min (p.total - p.progress) (room - entryHeaderLength e p)

/-- An entry is begun only in a room that holds its header and 64 data bytes, or its header and all that remains (R136). -/
def entryFits (e : Element) (p : Piece) (room : Nat) : Bool :=
  decide (entryHeaderLength e p + min 64 (p.total - p.progress) ≤ room)

/-- The header of the next entry of a piece (10 Table 10-11), zero filled to its rounded length (R175). -/
def entryHeader (t : TransportNo) (e : Element) (p : Piece) (room : Nat) : List Byte :=
  let kind := p.entryKind
  let segs := entrySegments e kind
  let data := entryDataLength e p room
  let cut := decide (data < p.total - p.progress)
  let fixed := leBytes kind.code 1 ++ leBytes t.val 1 ++ leBytes (p.image.elim 0 (sideEntryCode ·.side)) 1
    ++ leBytes (p.image.elim 0 (·.format.entryCode)) 1 ++ leBytes (entryFlags e p (!e.sheetFirst) cut) 2
    ++ leBytes e.markResult.code 1 ++ leBytes (verdictBits e.verdict) 1 ++ leBytes e.batchId.toNat 4
    ++ leBytes e.folder.toNat 4 ++ leBytes e.document.toNat 4 ++ leBytes e.sheet.toNat 4 ++ leBytes e.sheetInDoc.toNat 4
    ++ leBytes (e.verdict.length.getD 0) 2 ++ leBytes (p.image.elim 0 (·.width)) 2 ++ leBytes (p.image.elim 0 (·.lines)) 4
    ++ leBytes data 4 ++ leBytes p.total 4 ++ leBytes segs.length 1
    ++ leBytes (if kind = .continuation then 0 else e.verdict.further) 1 ++ zeroBytes 2
    ++ segs.flatMap segmentBytes
  fixed ++ zeroBytes (entryHeaderLength e p - fixed.length)

/-- The writes of the next entry of a piece into a bin: its header, then its data; the padding is not written (R136, R175). The
fields of the header, its segment slots and its zero fill are written in rising address order, which no rule gives; it shows in
the bin after a bus error (DESIGN CHOICE, log 54). -/
def entryCells (t : TransportNo) (e : Element) (p : Piece) (b : Bin) : List Host.Cell :=
  let room := b.capacity - b.filled
  let data := ((p.image.elim [] (·.bytes)).drop p.progress).take (entryDataLength e p room)
  cellsAt b.addr b.filled (entryHeader t e p room ++ data)

end Sys2Proof.Machine
end

