-- ==== Sys2Proof/Machine/Motor.lean ====
section
/-! DEFINITION. The drive motor, the run-in and the run-off (02 section 2.3), with what the Double-Feed Unit does at a run-in
(R71) and on entry into RUNNING or DRAINING (R70). All of it concerns one transport. -/

namespace Sys2Proof.Machine

/-- The motor is on in RUN_IN, DRIVING and RUN_OFF (02 Table 2-1, note a). -/
def Transport.motorOn (x : Transport) : Bool := x.motor != .standing

/-- The run-in accumulator and the gap accumulator are emptied and gathering stops, at the end or the abandonment of a
run-in (R70, R71). -/
def DoubleFeedUnit.endGathering (d : DoubleFeedUnit) : DoubleFeedUnit :=
  { d with gathering := false, runIn := {}, gap := {} }

/-- A run-in in progress is abandoned: the armed position is disarmed and R keeps its value (R32, R71). -/
def Transport.abandonRunIn (x : Transport) : Transport :=
  if x.motor = .runIn then { x with runInEnd := .idle, dfu := x.dfu.endGathering } else x

/-- The motor is commanded off: STANDING, the clutch released, the stall timer idle, a run-in abandoned, a run-off ended
(R16, R32, R33, R38). -/
def Transport.motorOff (x : Transport) : Transport :=
  let y := x.abandonRunIn
  { y with motor := .standing, clutch := false, runOffTimer := none, pos := { y.pos with stallTimer := none } }

/-- The run-in is done: DRIVING, and R from the run-in samples when there are at least 4 (R32, R71). -/
def Transport.finishRunIn (x : Transport) : Transport :=
  let d := x.dfu
  let r := if 4 ≤ d.runIn.count then 64 * (d.runIn.sum / d.runIn.count) else d.reference
  { x with motor := .driving, runInEnd := .idle, dfu := { d.endGathering with reference := r } }

/-- The motor is commanded on from STANDING: RUN_IN, the run-in end armed, the stall timer started, gathering begun; a
run-in distance of 0 is done at once (R16, R31, R71). -/
def Transport.startRunIn (x : Transport) : Transport :=
  let y : Transport :=
    { x with motor := .runIn, coverWait := false, runInEnd := .at (posPlus x.pos.counter x.cfg.runInDistance),
             pos := { x.pos with stallTimer := some x.cfg.stallTime },
             dfu := { x.dfu with gathering := true, runIn := {} } }
  if x.cfg.runInDistance = 0 then y.finishRunIn else y

/-- A motor start (R31): from STANDING with a run-in, or the cover wait when the cover shows open; from RUN_OFF to DRIVING
without a run-in; a motor in RUN_IN or DRIVING is left as it is. -/
def Transport.startMotor (x : Transport) : Transport :=
  match x.motor with
  | .standing => if x.pos.coverOpen.level then { x with coverWait := true } else x.startRunIn
  | .runOff => { x with motor := .driving, runOffTimer := none }
  | .runIn => x
  | .driving => x

/-- The run-off begins when a transport with its motor on enters READY or PAUSED; a run-off time of 0 commands the motor off
at once; a run-in still in progress is abandoned (R33, log 14). -/
def Transport.beginRunOff (x : Transport) : Transport :=
  if x.motorOn then
    let y := x.abandonRunIn
    if x.cfg.runOffTime = 0 then y.motorOff else { y with motor := .runOff, runOffTimer := some x.cfg.runOffTime }
  else x

/-- What entry into RUNNING or DRAINING from another state empties: the gap accumulator, the trail exclusion (R70), and
whatever measurement is left (R97). A move from RUNNING to DRAINING is not taken as such an entry: sampling goes on, and the
model makes the fresh start from READY, PAUSED and HELD alone (DESIGN CHOICE, log 48). -/
def Transport.freshEntry (x : Transport) : Transport :=
  { x with dfu := { x.dfu with gap := {}, trailExclusion := 0, run := .none }, marks := {} }

/-- The transport enters RUNNING from READY, PAUSED or HELD: fresh accumulators, the motor started (R31). -/
def Transport.enterRunning (x : Transport) : Transport :=
  ({ x with state := .running, purpose := .none } : Transport).freshEntry.startMotor

/-- The transport leaves DRAINING when its outcome is written: OFF for HALT or with the halt request set, else READY with
the run-off (R28). -/
def Transport.leaveDraining (x : Transport) : Transport :=
  let y : Transport := { x with purpose := .none, coverWait := false }
  if x.purpose = .halt ∨ x.haltRequest then ({ y with state := .off, haltRequest := false } : Transport).motorOff
  else ({ y with state := .ready } : Transport).beginRunOff

end Sys2Proof.Machine
end

