-- ==== Sys2Proof/Machine/DoubleFeed.lean ====
section
/-! DEFINITION. The Double-Feed Unit (04): where a sample goes, the gap update of R, thresholds, runs and segments, the length
check, the verdict and its action. All of it concerns one transport. -/

namespace Sys2Proof.Machine

/-- A sample is added while the count is below 65535 (R70, R71). -/
def Accumulator.add (a : Accumulator) (v : Nat) : Accumulator :=
  if a.count < 65535 then { sum := a.sum + v, count := a.count + 1 } else a

/-- The record at DF: not WITHDRAWN, its DF lead seen and its DF trail not (04 Table 4-4, note a). -/
def Transport.recordAtDF (x : Transport) : Option SheetRecord :=
  x.findRecord fun r => r.life != .withdrawn && r.df.lead.isSome && r.df.trail.isNone

/-- A run measured against the record's DF lead and judged: a segment's offset, length and exempt mark, or no segment
(R78, R79). -/
def judgeRun (x : Transport) (p : Profile) (dfLead runStart runEnd : Pos) : Option Segment :=
  let offset := x.tenths (nearDistance dfLead runStart)
  let length := x.tenths (nearDistance runStart runEnd)
  if length < p.overlapMin then none
  else some { offset, length, exempt := p.zones.any fun z => decide (z.1 ≤ offset) && decide (offset + length ≤ z.2) }

/-- A segment recorded: stored while the list holds fewer than 4, else counted; OVERLAP unless exempt (R80). -/
def Verdict.addSegment (v : Verdict) (g : Segment) : Verdict :=
  let w := if v.segments.length < 4 then { v with segments := v.segments ++ [g] } else { v with further := sat255 v.further }
  { w with overlap := v.overlap || !g.exempt }

/-- A run of a record ends at a position (R78 to R80). -/
def SheetRecord.endRun (r : SheetRecord) (x : Transport) (runStart runEnd : Pos) : SheetRecord :=
  match judgeRun x (x.profileOf r.selector) (r.df.lead.getD 0) runStart runEnd with
  | none => r
  | some g => { r with verdict := r.verdict.addSegment g }

/-- A sample of value a at position q acts on the run state of the record at DF (04 Table 4-7). -/
def Transport.runSample (x : Transport) (r : SheetRecord) (a : Nat) (q : Pos) : Transport :=
  match r.verdict.thresholds, x.dfu.run with
  | some (eIn, _), .outside => if a < eIn then { x with dfu := { x.dfu with run := .inside q } } else x
  | some (_, eOut), .inside p =>
    if eOut < a then
      { x.modRecord r.id (·.endRun x p q) with dfu := { x.dfu with run := .outside } }
    else x
  | _, _ => x

/-- A gap-side sample: left out while a change to paper is pending at DF, left out and counted off by the trail exclusion,
else counted (R70, log 16). -/
def Transport.gapSample (x : Transport) (a : Nat) : Transport :=
  if x.pos.df.pending.isSome then x
  else if 0 < x.dfu.trailExclusion then { x with dfu := { x.dfu with trailExclusion := x.dfu.trailExclusion - 1 } }
  else { x with dfu := { x.dfu with gap := x.dfu.gap.add a } }

/-- Where a sample goes (04 Table 4-4, R69). -/
def Transport.routeSample (x : Transport) (a : Nat) (q : Pos) : Transport :=
  if x.isActive then
    match x.motor with
    | .runIn => if x.pos.df.level then x else { x with dfu := { x.dfu with runIn := x.dfu.runIn.add a } }
    | .driving =>
      if x.pos.df.level then
        match x.recordAtDF with
        | some r => if r.verdict.ampUnavailable then x else x.runSample r a q
        | none => x
      else x.gapSample a
    | .standing => x
    | .runOff => x
  else x

/-- The sample step on a forward count: every D counts a sample with the position after the count (R68). -/
def Transport.sampleCount (x : Transport) (a : Nat) : Transport :=
  match x.setup with
  | none => x
  | some u =>
    if x.dfu.step + 1 < u.sampleDistance then { x with dfu := { x.dfu with step := x.dfu.step + 1 } }
    else ({ x with dfu := { x.dfu with step := 0 } } : Transport).routeSample a x.pos.counter

/-- R moves an eighth of the way toward 64 times the gap mean, truncated toward zero (R72). -/
def stepReference (reference mean : Nat) : Nat :=
  ((reference : Int) + ((64 * mean : Int) - reference).tdiv 8).toNat

/-- The gap update at an attributed DF lead: R from a gap of at least 4 samples, the accumulator emptied (R72). -/
def DoubleFeedUnit.gapUpdate (d : DoubleFeedUnit) : DoubleFeedUnit :=
  let r := if 4 ≤ d.gap.count then stepReference d.reference (d.gap.sum / d.gap.count) else d.reference
  { d with reference := r, gap := {} }

/-- E_in and E_out from R and the profile's ratios (R74). -/
def thresholdsOf (reference qIn qOut : Nat) : Nat × Nat :=
  let eIn := reference * qIn / 16384
  let eOut := reference * qOut / 16384
  (eIn, if eOut ≤ eIn then eIn + 1 else eOut)

/-- At an attributed DF lead, after the gap update: AMP_UNAVAILABLE below the floor, else the thresholds and an open run
state (R74, R75). -/
def Transport.dfLead (x : Transport) (id : Nat) : Transport :=
  let d := x.dfu.gapUpdate
  let y : Transport := { x with dfu := d }
  if d.reference < 64 * x.cfg.amplitudeFloor then
    { y.modRecord id fun r => { r with verdict := { r.verdict with ampUnavailable := true } } with
      dfu := { d with run := .none } }
  else
    { y.modRecord id fun r =>
        { r with verdict := { r.verdict with
            thresholds := some (thresholdsOf d.reference (x.profileOf r.selector).qIn (x.profileOf r.selector).qOut) } } with
      dfu := { d with run := .outside } }

/-- LONG and SHORT of a measured length (R81). -/
def lengthFlags (p : Profile) (length : Nat) : Bool × Bool :=
  if p.nominal = 0 then (decide (p.lMax < length), false)
  else (decide (p.nominal + p.longTol < length), decide (p.shortTol < p.nominal) && decide (length < p.nominal - p.shortTol))

/-- The strength of an action: HOLD over REVIEW over PASS (R83). -/
def Action.rank : Action → Nat
  | .none => 0
  | .pass => 1
  | .review => 2
  | .hold => 3

/-- The stronger of two actions (R83). -/
def Action.stronger (a b : Action) : Action := if b.rank ≤ a.rank then a else b

/-- The action that the verdict flags call for under a profile (R83). -/
def verdictAction (p : Profile) (v : Verdict) : Action :=
  Action.stronger (if v.overlap || v.long then p.suspectAction else .none) (if v.short then p.shortAction else .none)

/-- Stages 2 to 4 of the verdict: the length stored and checked unless LENGTH_UNVERIFIED, verdict decided, the action
worked out (R81 to R83). -/
def Verdict.decide (v : Verdict) (p : Profile) (length : Nat) : Verdict :=
  let f := if v.lengthUnverified then (false, false) else lengthFlags p length
  let w : Verdict := { v with length := some length, long := v.long || f.1, short := v.short || f.2, decided := true }
  { w with action := verdictAction p w }

/-- The record's part of its DF trail: an open run is ended at the trail latch, then the verdict is decided (R77, R83). -/
def SheetRecord.decideVerdict (r : SheetRecord) (x : Transport) (trail : Pos) : SheetRecord :=
  let r1 := match x.dfu.run with
    | .inside p => r.endRun x p trail
    | .outside => r
    | .none => r
  { r1 with verdict := r1.verdict.decide (x.profileOf r.selector) (x.tenths (fwd (r.df.lead.getD 0) trail)) }

/-- At an attributed DF trail: the verdict decided, the run state cleared, the trail exclusion set; a HOLD action gives the
SUSPECT mark and begins a run-on if none is in progress (R43, R70, R77, R83). -/
def Transport.dfTrail (x : Transport) (id : Nat) (trail : Pos) : Transport :=
  let y : Transport :=
    { x.modRecord id fun r =>
        let r1 := r.decideVerdict x trail
        if r1.verdict.action = .hold then { r1 with suspect := true } else r1 with
      dfu := { x.dfu with run := .none, trailExclusion := 2 } }
  match y.record id with
  | some r =>
    if r.verdict.action = .hold ∧ y.runOn = none then { y with runOn := some id } else y
  | none => y

end Sys2Proof.Machine
end

