-- ==== Sys2Proof/Machine/HoldStore.lean ====
section
/-! DEFINITION. The Hold Store Controller (06 section 6.6): the counts of the pool, pages taken and taken back, the low mark,
a side discarded, and the page need of a sheet. -/

namespace Sys2Proof.Machine

/-- P_total of the part. -/
def HoldStore.total (h : HoldStore) : Nat := h.dram.pages

/-- Free pages: the free list less the reservation total (06 Table 6-7, note b). -/
def HoldStore.freePages (h : HoldStore) : Nat := h.free.length - h.reserved

/-- The below-mark condition brought up to date; EVT.SPACE when it turns from no to yes (R125). -/
def State.refreshMark (s : State) : State :=
  let b := decide (s.hold.freePages < s.hold.lowMark)
  let t := s.setHold { s.hold with below := b }
  if b && !s.hold.below then t.setEvent .space else t

/-- Pages go back to the tail of the free list and a reservation to the free pages (R124). -/
def State.takeBack (s : State) (pages : List Nat) (reserve : Nat) : State :=
  (s.setHold { s.hold with free := s.hold.free ++ pages, reserved := s.hold.reserved - reserve }).refreshMark

/-- A grant moves a need from the free pages into the reservation total (R122, R123). -/
def State.reserve (s : State) (need : Nat) : State :=
  (s.setHold { s.hold with reserved := s.hold.reserved + need }).refreshMark

/-- A taken side becomes DISCARDED and holds nothing; a NOT_TAKEN side stays so (R55, log 33). -/
def SideRecord.discarded (x : SideRecord) : SideRecord :=
  if x.capture = .notTaken then x
  else { x with capture := .discarded, pages := [], reserve := 0, image := [], windowStart := .idle, windowEnd := .idle }

/-- A Capture Unit that captures for a record ends the capture at once when the side is DISCARDED (R124). -/
def CaptureUnit.endFor (u : CaptureUnit) (id : Nat) : CaptureUnit :=
  match u.activity with
  | .idle => u
  | .capturing i _ =>
    if i = id then { u with activity := .idle, packetWait := false, expected := u.trigger } else u

/-- A record with both sides DISCARDED. -/
def SheetRecord.discardSides (r : SheetRecord) : SheetRecord :=
  { r with front := r.front.discarded, back := r.back.discarded }

/-- The pages that a record's sides hold, FRONT before BACK (log 39). -/
def SheetRecord.pages (r : SheetRecord) : List Nat := r.front.pages ++ r.back.pages

/-- The reservation that a record's sides still carry. -/
def SheetRecord.reserve (r : SheetRecord) : Nat := r.front.reserve + r.back.reserve

/-- The captures for a record end on both sides. -/
def Transport.endCaptures (x : Transport) (id : Nat) : Transport :=
  { x with front := x.front.endFor id, back := x.back.endFor id }

/-- The format of a side under a profile. -/
def Profile.format (p : Profile) : Side → Format
  | .front => p.formatFront
  | .back => p.formatBack

/-- The largest stored line of a format (R115). -/
def lineMax (f : Format) (width : Nat) : Nat :=
  match f with
  | .colour => 3 * width + 2
  | .grey => width + 2
  | .greyRun => width + 2

/-- The profile takes a side: BACK only with a back camera (R108). -/
def takesSide (p : Profile) (backCamera : Bool) : Side → Bool
  | .front => p.sides != .back
  | .back => p.sides != .front && backCamera

/-- The page need of one side, capped at half the store; 0 for a side not taken (R121). -/
def sideNeed (p : Profile) (u : Setup) (total : Nat) (sd : Side) : Nat :=
  if takesSide p u.backCamera sd then
    min (total / 2) ((p.reserveLines * lineMax (p.format sd) u.width + 65535) / 65536)
  else 0

/-- The page need of a sheet (R121). -/
def sheetNeed (p : Profile) (u : Setup) (total : Nat) : Nat := sideNeed p u total .front + sideNeed p u total .back

/-- A line's bytes are stored at the end of a side's image, taking a page when it does not fit: from the reservation, else
from the free pages, else the side is CLIPPED and nothing of the line is written (R120). -/
def State.storeLine (s : State) (x : SideRecord) (line : List Byte) : State × SideRecord :=
  if x.clipped then (s, x)
  else if x.image.length + line.length ≤ 65536 * x.pages.length then (s, { x with image := x.image ++ line })
  else
    match s.hold.free with
    | [] => (s, { x with clipped := true })
    | page :: rest =>
      if 0 < x.reserve then
        (s.setHold { s.hold with free := rest, reserved := s.hold.reserved - 1 },
          { x with image := x.image ++ line, pages := x.pages ++ [page], reserve := x.reserve - 1 })
      else if 0 < s.hold.freePages then
        ((s.setHold { s.hold with free := rest }).refreshMark,
          { x with image := x.image ++ line, pages := x.pages ++ [page] })
      else (s, { x with clipped := true })

end Sys2Proof.Machine
end

