-- ==== Sys2Proof/Machine/Admission.lean ====
section
/-! DEFINITION. The pick conditions and the pick (02 section 2.4), and the waiting list for admission, served at every return of
pages (R36, R122 to R124). -/

namespace Sys2Proof.Machine

/-! ### Pick conditions and the pick -/

/-- Live records: those not WITHDRAWN (R30). -/
def Transport.live (x : Transport) : Nat := x.track.countP fun r => r.life != .withdrawn

/-- (settled - overrun) + live records reach the expected count, with STOP_AT_COUNT set and a count expected (R30, pick
condition 5). -/
def Transport.countReached (x : Transport) : Bool :=
  x.batch.ticket.any fun k =>
    k.stopAtCount && k.expected != 0
      && decide (k.expected ≤ x.batch.counters.settled - x.batch.counters.overrun + x.live)

/-- Pick condition 3: the newest record's ENTRY trail is seen and the gap after it met, or the track is empty. -/
def Transport.gapCondition (x : Transport) : Bool :=
  match x.newest with
  | none => true
  | some r => r.entry.trail.isSome && r.gap == .met

/-- Pick condition 6: MARKWAIT off in the active profile, or the newest record's mark decided, or the track empty. -/
def Transport.markCondition (x : Transport) : Bool :=
  !(x.profileOf x.batch.active).markWait ||
    match x.newest with
    | none => true
    | some r => r.markResult != .pending

/-- The first unmet of the RUN_ON row and pick conditions 1 to 6 (02 Table 2-5); none when all hold. -/
def Transport.firstUnmet (x : Transport) : PickWait :=
  if x.runOn.isSome then .runOn
  else if x.motor ≠ .driving then .runIn
  else if 6 ≤ x.track.length then .trackFull
  else if !x.gapCondition then .gap
  else if x.pos.trayEmpty.level then .tray
  else if x.countReached then .count
  else if !x.markCondition then .mark
  else .none

/-- RUNNING with no run-on and the first six conditions met: admission is asked for (R35, R36). -/
def Transport.eligible (x : Transport) : Bool := x.state == .running && x.firstUnmet == .none

/-- A side of a new record: WAITING with its share of the reservation, or NOT_TAKEN (R51, R108). -/
def newSide (p : Profile) (u : Setup) (total : Nat) (sd : Side) : SideRecord :=
  if takesSide p u.backCamera sd then { capture := .waiting, reserve := sideNeed p u total sd } else {}

/-- The record of a pick (R38, R51). -/
def Transport.newRecord (x : Transport) (total : Nat) : SheetRecord :=
  let p := x.profileOf x.batch.active
  { id := x.nextId, pickPos := x.pos.counter, selector := x.batch.active,
    entry := { leadEnd := .at (posPlus x.pos.counter x.cfg.pickWindow) },
    front := newSide p x.cfg total .front, back := newSide p x.cfg total .back }

/-- A pick: the record joins the tail, its ENTRY window end armed, and the clutch is engaged (R38). -/
def Transport.pick (x : Transport) (total : Nat) : Transport :=
  { x with track := x.track ++ [x.newRecord total], nextId := x.nextId + 1, clutch := true }

/-! ### The waiting list -/

/-- A grant: the need moves into the reservation total and the transport picks at once (R122, R123). -/
def State.grant (s : State) (t : TransportNo) (need : Nat) : State :=
  (s.reserve need).modTr t fun x => x.pick s.hold.total

/-- The page need of the next sheet of a transport (R121). -/
def State.needOf (s : State) (t : TransportNo) : Nat :=
  sheetNeed ((s.tr t).profileOf (s.tr t).batch.active) (s.tr t).cfg s.hold.total

/-- A waiting request still stands: its transport's six conditions hold and its profile is the active one (R36). -/
def State.stands (s : State) (r : Request) : Bool :=
  (s.tr r.transport).eligible && (s.tr r.transport).batch.active == r.selector

/-- The waiting list served from its head while free pages cover the head's need (R123). A request whose transport no longer
stands is withdrawn. -/
def State.serveWaiting (s : State) : List Request → State
  | [] => s.setHold { s.hold with waiting := [] }
  | r :: rest =>
    if s.stands r then
      if r.need ≤ s.hold.freePages then (s.grant r.transport r.need).serveWaiting rest
      else s.setHold { s.hold with waiting := r :: rest }
    else s.serveWaiting rest

/-- The waiting list examined (R36, R123): requests that do not stand any more are withdrawn, and the head is served while free
pages cover its need. -/
def State.serveList (s : State) : State := s.serveWaiting (s.hold.waiting.filter s.stands)

/-- Pages and a reservation return to the pool (R124): the list is examined after what the step has withdrawn so far, the
return is made, and the list is examined again (R123). A withdrawal of the head and a return that come together may be taken
in either order; the model always takes the withdrawal first (DESIGN CHOICE, log 46). -/
def State.returnPages (s : State) (pages : List Nat) (reserve : Nat) : State := (s.serveList.takeBack pages reserve).serveList

/-- The sides of a record that are DISCARDED return their pages and reservations, FRONT and then BACK, each a return of its
own (R124, log 39). -/
def State.returnSides (s : State) (r : SheetRecord) : State :=
  (s.returnPages r.front.pages r.front.reserve).returnPages r.back.pages r.back.reserve

end Sys2Proof.Machine
end

