-- ==== Sys2Proof/Machine/Capture.lean ====
section
/-! DEFINITION. The Capture Units (06 sections 6.2 to 6.5): the line trigger, line packets and repair, conversion and formats,
ink and the blank test, and the completion of a side. -/

namespace Sys2Proof.Machine

/-! ### Conversion, formats, ink -/

/-- The grey value of a pixel (R114). -/
def greyOf (u : Setup) (p : Pixel) : Nat :=
  min 255 ((u.kr * p.red.toNat + u.kg * p.green.toNat + u.kb * p.blue.toNat + 128) / 256)

/-- n pixels after a literal as run codes while 3 or more remain, then literals (R116). -/
def runCodes (v : Byte) : Nat → Nat → List Byte
  | 0, _ => []
  | fuel + 1, n =>
    if 3 ≤ n then 0 :: BitVec.ofNat 8 (min n 255) :: runCodes v fuel (n - min n 255) else List.replicate n v

/-- The run form of written values, holding back the run of n values equal to the last literal v (R116). -/
def runForm (v : Byte) (n : Nat) : List Byte → List Byte
  | [] => runCodes v n n
  | x :: rest => if x = v then runForm v (n + 1) rest else runCodes v n n ++ x :: runForm x 0 rest

/-- The run form of a grey line; a grey value of 0 is written as 1 (R116). -/
def runLine (greys : List Nat) : List Byte :=
  match greys.map fun g => BitVec.ofNat 8 (max 1 g) with
  | [] => []
  | x :: rest => x :: runForm x 0 rest

/-- The content bytes of a line in a format (R115). -/
def lineContent (f : Format) (u : Setup) (pixels : List Pixel) : List Byte :=
  match f with
  | .colour => pixels.flatMap fun p => [p.red, p.green, p.blue]
  | .grey => pixels.map fun p => BitVec.ofNat 8 (greyOf u p)
  | .greyRun => runLine (pixels.map (greyOf u))

/-- A stored line: its two-byte byte count, then the content (R115). -/
def storedLine (f : Format) (u : Setup) (pixels : List Pixel) : List Byte :=
  let c := lineContent f u pixels
  leBytes c.length 2 ++ c

/-- The ink of a line: its pixels m to W - m - 1 whose grey value is below the ink level (R117). -/
def lineInk (p : Profile) (u : Setup) (pixels : List Pixel) : Nat :=
  (((pixels.map (greyOf u)).take (u.width - p.sideMargin)).drop p.sideMargin).countP (decide <| · < p.inkLevel)

/-- The ink count after a line's ink is added. The spec gives the count the range 0 to 2^32 - 1 (03 Table 3-1) and does not say
what a sum beyond it becomes: that value is free (DESIGN CHOICE, log 45). -/
def inkPlus (a b : Nat) : Nat := if a + b < 2 ^ 32 then a + b else (Config.inkBeyond (a + b)).toNat

/-- A line's ink joins the history from line mt on; the oldest count beyond mb is added to the side's ink (R117; a sum beyond
2^32 - 1 is the free value of log 45). -/
def countInk (p : Profile) (ink : Nat) (x : SideRecord) (history : List Nat) : SideRecord × List Nat :=
  if x.lines < p.topMargin then (x, history)
  else
    let h := history ++ [ink]
    if p.bottomMargin < h.length then ({ x with ink := inkPlus x.ink (h.headD 0) }, h.tail) else (x, h)

/-- The blank result of a side (R118). -/
def blankResult (p : Profile) (width : Nat) (x : SideRecord) : Bool :=
  let area := ((width : Int) - 2 * p.sideMargin) * ((x.lines : Int) - p.topMargin - p.bottomMargin)
  decide (0 < area) && decide ((x.ink : Int) * 65536 ≤ p.blankLimit * area)

/-! ### Lines taken and repaired -/

/-- The record and id for which a unit captures. -/
def Transport.capturedRecord (x : Transport) (sd : Side) : Option SheetRecord :=
  match (x.unit sd).activity with
  | .idle => none
  | .capturing id _ => x.record id

/-- A line is taken for the captured side: converted, counted for ink, stored; it becomes the previous line, and the
expected tag rises. A repaired line raises the repaired lines and may make the side DAMAGED (R112 to R117, R120). -/
def State.takeLine (s : State) (t : TransportNo) (sd : Side) (pixels : List Pixel) (isRepair : Bool) : State :=
  match (s.tr t).capturedRecord sd with
  | none => s
  | some r =>
    let x := s.tr t
    let p := x.profileOf r.selector
    let u := x.unit sd
    let inked := countInk p (lineInk p x.cfg pixels) (r.side sd) u.inkHistory
    let stored := s.storeLine inked.1 (storedLine (p.format sd) x.cfg pixels)
    let y := stored.2
    let n := if isRepair then y.repaired + 1 else y.repaired
    let z := { y with lines := y.lines + 1, repaired := n, damaged := y.damaged || decide (p.repairLimit < n) }
    stored.1.modTr t fun x0 =>
      (x0.modRecord r.id (·.setSide sd z)).setUnit sd
        { u with previous := some pixels, inkHistory := inked.2, expected := u.expected + 1 }

/-- A repaired line: the previous line's pixels, or white (R113). -/
def State.repairLine (s : State) (t : TransportNo) (sd : Side) : State :=
  s.takeLine t sd (((s.tr t).unit sd).previous.getD
    (List.replicate (s.tr t).cfg.width { red := 255, green := 255, blue := 255 })) true

/-- n lines repaired in turn, in tag order. -/
def State.repairLines (s : State) (t : TransportNo) (sd : Side) : Nat → State
  | 0 => s
  | n + 1 => (s.repairLine t sd).repairLines t sd n

/-- Outstanding lines: from the expected tag up to the trigger number (R111). -/
def CaptureUnit.outstanding (u : CaptureUnit) : Nat := (u.trigger - u.expected).toNat

/-- A line is triggered: the trigger number rises. If the outstanding count would reach 32768, the oldest line is first
repaired (R109, R113). -/
def State.triggerLine (s : State) (t : TransportNo) (sd : Side) : State :=
  let s1 := if ((s.tr t).unit sd).outstanding + 1 = 32768 then s.repairLine t sd else s
  s1.modTr t fun x => x.setUnit sd { x.unit sd with trigger := (x.unit sd).trigger + 1 }

/-- A side completes: packet wait and unit idle, the blank result worked out, its reservation returned (R110, R118). -/
def State.completeSide (s : State) (t : TransportNo) (sd : Side) : State :=
  let x := s.tr t
  match x.capturedRecord sd with
  | none => s.modTr t fun x => x.setUnit sd { x.unit sd with activity := .idle, packetWait := false }
  | some r =>
    let y := r.side sd
    let p := x.profileOf r.selector
    (s.modTr t fun x0 =>
      (x0.modRecord r.id (·.setSide sd
        { y with capture := .complete, blank := some (blankResult p x.cfg.width y), reserve := 0, windowEnd := .idle })).setUnit sd
        { x0.unit sd with activity := .idle, packetWait := false, inkHistory := [] }).returnPages [] y.reserve

/-- Every outstanding line is repaired and the side completes (R110). -/
def State.repairAndComplete (s : State) (t : TransportNo) (sd : Side) : State :=
  (s.repairLines t sd ((s.tr t).unit sd).outstanding).completeSide t sd

/-! ### The capture window -/

/-- Capture begins: the side and the unit CAPTURING, the previous line none, history and rewind empty, A set to P, and the
first line triggered with A falling by P (R109). -/
def State.beginCapture (s : State) (t : TransportNo) (sd : Side) (id : Nat) : State :=
  (s.modTr t fun x =>
    (x.modRecord id fun r => r.setSide sd { r.side sd with capture := .capturing, windowStart := .idle }).setUnit sd
      { x.unit sd with activity := .capturing id false, previous := none, inkHistory := [], rewind := 0,
                       accumulator := 0 }).triggerLine t sd

/-- The side for which a unit captures has its window end passed, its expiry taken or still to be taken (R109). -/
def Transport.windowPassed (x : Transport) (sd : Side) : Bool :=
  match (x.unit sd).activity with
  | .idle => false
  | .capturing _ true => true
  | .capturing _ false => (x.capturedRecord sd).any fun r => (r.side sd).windowEnd == .raised

/-- The expiry of a side's window start: an older side whose window end has passed is completed first (R109). A unit that is
still inside an older side's window takes no new one (log 3). -/
def State.captureStart (s : State) (t : TransportNo) (sd : Side) (id : Nat) : State :=
  match ((s.tr t).unit sd).activity with
  | .idle => s.beginCapture t sd id
  | .capturing _ _ => if (s.tr t).windowPassed sd then (s.repairAndComplete t sd).beginCapture t sd id else s

/-- The expiry of a CAPTURING side's window end: triggering stops and the packet wait starts, or the side completes at once
when no line is outstanding (R110). -/
def State.captureEnd (s : State) (t : TransportNo) (sd : Side) (id : Nat) : State :=
  let s1 := s.modTr t fun x =>
    (x.modRecord id fun r => r.setSide sd { r.side sd with windowEnd := .idle }).setUnit sd
      { x.unit sd with activity := .capturing id true, packetWait := true }
  if ((s.tr t).unit sd).outstanding = 0 then s1.completeSide t sd else s1

/-- The rewind after a reverse count at position q. The spec gives it the range 0 to 2^32 - 1 (06 Table 6-3) and states no value
beyond: that value is free (DESIGN CHOICE, log 22). -/
def rewindPlus (n id : Nat) (q : Pos) : Nat := if n + 1 < 2 ^ 32 then n + 1 else (Config.rewindBeyond id q).toNat

/-- The line trigger on a counter change (R109): a reverse count raises the rewind; a forward count lowers it, or raises A
and may trigger a line. The forward count that passes the window end does not step A. -/
def State.captureCount (s : State) (t : TransportNo) (sd : Side) (forward : Bool) : State :=
  let x := s.tr t
  let u := x.unit sd
  match u.activity, x.capturedRecord sd with
  | .capturing _ false, some r =>
    if (r.side sd).windowEnd = .raised then s
    else if !forward then s.modTr t fun x => x.setUnit sd { u with rewind := rewindPlus u.rewind r.id x.pos.counter }
    else if 0 < u.rewind then s.modTr t fun x => x.setUnit sd { u with rewind := u.rewind - 1 }
    else
      let p := (x.profileOf r.selector).pitch
      if p ≤ u.accumulator + 65536 then
        (s.modTr t fun x => x.setUnit sd { u with accumulator := u.accumulator + 65536 - p }).triggerLine t sd
      else s.modTr t fun x => x.setUnit sd { u with accumulator := u.accumulator + 65536 }
  | _, _ => s

/-! ### Line packets -/

/-- One bit of the CRC-16: polynomial x^16 + x^12 + x^5 + 1, most significant bit first (06 Table 6-5, note b). -/
def crcBits (c : BitVec 16) : Nat → BitVec 16
  | 0 => c
  | n + 1 => crcBits (if c.msb then (c <<< 1) ^^^ 0x1021#16 else c <<< 1) n

/-- The CRC over bytes in order, from a running value. -/
def crcOver (c : BitVec 16) : List Byte → BitVec 16
  | [] => c
  | b :: rest => crcOver (crcBits (c ^^^ (b.setWidth 16 <<< 8)) 8) rest

/-- The CRC of a packet checks: over tag, pixel count and pixels, from FFFFH; a packet of another length than its pixel
count gives fails (06 Table 6-5, log 37). -/
def packetChecks (bytes : List Byte) : Bool :=
  let n := 4 + 3 * field bytes 2 2
  bytes.length == n + 2 && (crcOver 0xFFFF#16 (bytes.take n)).toNat == field bytes n 2

/-- The pixels of a packet's bytes, three bytes each. -/
def pixelsOf : List Byte → List Pixel
  | r :: g :: b :: rest => { red := r, green := g, blue := b } :: pixelsOf rest
  | _ => []

/-- The packet's line: taken when its pixel count equals W, else repaired (R112). -/
def State.takePacketLine (s : State) (t : TransportNo) (sd : Side) (bytes : List Byte) : State :=
  let n := field bytes 2 2
  if n = (s.tr t).cfg.width then s.takeLine t sd (pixelsOf ((bytes.drop 4).take (3 * n))) false else s.repairLine t sd

/-- A packet judged by CRC and tag for a CAPTURING unit (R111, R112). -/
def State.judgePacket (s : State) (t : TransportNo) (sd : Side) (bytes : List Byte) : State :=
  let u := (s.tr t).unit sd
  if !packetChecks bytes then (if 0 < u.outstanding then s.repairLine t sd else s)
  else
    let distance := (BitVec.ofNat 16 (field bytes 0 2) - u.expected).toNat
    if distance < u.outstanding then (s.repairLines t sd distance).takePacketLine t sd bytes else s

/-- A side whose window end has passed completes when no line is outstanding any more (R110). -/
def State.completeIfDrained (s : State) (t : TransportNo) (sd : Side) : State :=
  match ((s.tr t).unit sd).activity with
  | .capturing _ true => if ((s.tr t).unit sd).outstanding = 0 then s.completeSide t sd else s
  | .capturing _ false => s
  | .idle => s

/-- A line packet arrives; a unit that is IDLE discards it (R111). -/
def State.packet (s : State) (t : TransportNo) (sd : Side) (bytes : List Byte) : State :=
  match ((s.tr t).unit sd).activity with
  | .idle => s
  | .capturing _ _ => (s.judgePacket t sd bytes).completeIfDrained t sd

end Sys2Proof.Machine
end

