-- ==== Sys2Proof/Machine/Marks.lean ====
section
/-! DEFINITION. The Mark Unit (05 section 5.3) and what a mark decision does (05 section 5.4). All of it concerns one
transport. -/

namespace Sys2Proof.Machine

/-- A measurement begins, PROVISIONAL, when a change of the MARK sensor to paper becomes pending in RUNNING or DRAINING and
none is held; a pulse begins at the latch if the reflective sensor is dark (R93). -/
def Transport.beginMeasurement (x : Transport) (latch : Pos) : Transport :=
  if x.isActive ∧ x.marks.measurement = .none then
    { x with marks := { measurement := .provisional, lead := some latch,
                        pulses := if x.pos.dark then [{ start := latch, stop := none }] else [] } }
  else x

/-- The newest pulse, if it has no end, ends at q. -/
def endNewest (q : Pos) : List Pulse → List Pulse
  | [] => []
  | [p] => [if p.stop = none then { p with stop := some q } else p]
  | p :: r :: rest => p :: endNewest q (r :: rest)

/-- A transition to dark or to light at q acts on a held measurement's pulse list (R94). -/
def MarkUnit.transition (m : MarkUnit) (dark : Bool) (q : Pos) : MarkUnit :=
  if m.measurement = .none then m
  else if dark then
    (if m.pulses.length < 8 then { m with pulses := m.pulses ++ [{ start := q, stop := none }] } else { m with overflow := true })
  else { m with pulses := endNewest q m.pulses }

/-- The divider code of a number of valid bars (R96, 05 Table 5-6). -/
def dividerOf : Nat → MarkResult
  | 2 => .divider .document
  | 3 => .divider .folder
  | 4 => .divider .switch
  | 5 => .divider .endBatch
  | 6 => .divider .dropNext
  | _ => .noDivider

/-- A pulse inside the close distance is a valid bar: it ends no farther than the close distance, and its width lies in the
profile's bar limits (R96). A width of 2^31 or more is taken as 0 like the other distances of the rule (DEDUCED, log 43). -/
def validBar (x : Transport) (p : Profile) (lead : Pos) (close : Nat) (b : Pulse) : Bool :=
  match b.stop with
  | none => false
  | some e =>
    decide (nearDistance lead e ≤ close) && decide (p.barMin ≤ x.tenths (nearDistance b.start e))
      && decide (x.tenths (nearDistance b.start e) ≤ p.barMax)

/-- The pulse list judged at a close position (R96). -/
def judgeMark (x : Transport) (p : Profile) (close : Pos) : MarkResult :=
  let lead := x.marks.lead.getD 0
  let c := nearDistance lead close
  let bars := x.marks.pulses.filter fun b => decide (nearDistance lead b.start < c)
  if x.marks.overflow then .noDivider
  else if bars.all (validBar x p lead c) then dividerOf bars.length
  else .noDivider

/-- An end condition: in RUNNING and in DRAINING(PAUSE) the purpose becomes END; elsewhere nothing (R29). -/
def Transport.endCondition (x : Transport) : Transport :=
  if x.state = .running then { x with state := .draining, purpose := .endBatch }
  else if x.state = .draining ∧ x.purpose = .pause then { x with purpose := .endBatch }
  else x

/-- The snapshot allows a SWITCH: an alt profile with the main profile's line pitch and sides (R98). -/
def Snapshot.allowsSwitch (sn : Snapshot) : Bool :=
  sn.alt.any fun a => a.profile.pitch == sn.main.profile.pitch && a.profile.sides == sn.main.profile.sides

/-- The other profile selector. -/
def Selector.toggle : Selector → Selector
  | .main => .alt
  | .alt => .main

/-- The mark decision of a SWITCH (R98). -/
def Transport.switchDecision (x : Transport) (id : Nat) : Transport :=
  let c := x.batch.counters
  if x.batch.snapshot.any Snapshot.allowsSwitch then
    { x with batch := { x.batch with active := x.batch.active.toggle,
                                     counters := { c with switchesObeyed := sat32 c.switchesObeyed 1 } } }
  else
    { x.modRecord id fun r => { r with switchRefused := true } with
      batch := { x.batch with counters := { c with switchesRefused := sat32 c.switchesRefused 1 } } }

/-- Every record behind the one with an id gets OVERRUN (R99). -/
def overrunBehind (id : Nat) : List SheetRecord → List SheetRecord
  | [] => []
  | r :: rest => if r.id = id then r :: rest.map fun q => { q with overrun := true } else r :: overrunBehind id rest

/-- The effects of a mark decision that act at once (05 Table 5-6): SWITCH and END. -/
def Transport.decisionEffects (x : Transport) (id : Nat) : MarkResult → Transport
  | .divider .switch => x.switchDecision id
  | .divider .endBatch => ({ x with track := overrunBehind id x.track } : Transport).endCondition
  | .divider .document => x
  | .divider .folder => x
  | .divider .dropNext => x
  | .noDivider => x
  | .pending => x

/-- The mark window end of an OPEN measurement: MARK lead latch + C(mark window) of the record's profile (R93). -/
def Transport.markWindowEndPos (x : Transport) (r : SheetRecord) : Pos :=
  posPlus (x.marks.lead.getD 0) (x.copyOf r.selector).cMarkWindow

/-- The mark decision of an OPEN measurement at a close position: the result stored, the measurement ended, the effects
applied (R54, R95). -/
def Transport.decideMark (x : Transport) (r : SheetRecord) (close : Pos) : Transport :=
  let res := judgeMark x (x.profileOf r.selector) close
  ({ x.modRecord r.id fun q => { q with markResult := res } with marks := {} } : Transport).decisionEffects r.id res

/-- The decision at the expiry of the mark window end (R95). -/
def Transport.markWindowExpired (x : Transport) : Transport :=
  match x.marks.measurement with
  | .opened id =>
    match x.record id with
    | some r => x.decideMark r (x.markWindowEndPos r)
    | none => { x with marks := {} }
  | .none => x
  | .provisional => x

/-- An attributed MARK lead: mark check OFF decides NONE; ON makes the measurement OPEN and arms its window end, taken at once
when already passed (R93). -/
def Transport.markLead (x : Transport) (r : SheetRecord) (latch : Pos) : Transport :=
  if (x.profileOf r.selector).markCheck then
    let y : Transport :=
      { x with marks := { x.marks with measurement := .opened r.id, lead := some latch,
                                       windowEnd := .at (posPlus latch (x.copyOf r.selector).cMarkWindow) } }
    if passed (posPlus latch (x.copyOf r.selector).cMarkWindow) x.pos.counter then y.markWindowExpired else y
  else { x.modRecord r.id fun q => { q with markResult := .noDivider } with marks := {} }

/-- An attributed MARK trail closes the record's OPEN measurement: at the trail latch if it lies within the window, else at
the window end (R95). -/
def Transport.markTrail (x : Transport) (r : SheetRecord) (trail : Pos) : Transport :=
  if x.marks.measurement = .opened r.id then
    let e := x.markWindowEndPos r
    x.decideMark r (if within (x.marks.lead.getD 0) e trail then trail else e)
  else x

end Sys2Proof.Machine
end

