-- ==== Sys2Proof/Machine/Settlement.lean ====
section
/-! DEFINITION. Settlement (03 section 3.5): kind and numbering (05 section 5.5), standing (04 section 4.9), the route
decision and the pieces (07 section 7.1). -/

namespace Sys2Proof.Machine

/-- A side holds nothing open: neither WAITING nor CAPTURING. -/
def SideRecord.settled (x : SideRecord) : Bool := x.capture != .waiting && x.capture != .capturing

/-- The settlement condition of the head record (R63). -/
def Transport.canSettle (x : Transport) (r : SheetRecord) : Bool :=
  r.life == .done && r.verdict.decided && r.markResult != .pending && r.front.settled && r.back.settled
    && decide (x.queue.length < 32)

/-- The kind of a settling record (R100). -/
def kindOf (b : BatchContext) (r : SheetRecord) : Kind :=
  if r.overrun then .overrun
  else if r.discardMark then .discarded
  else if r.markResult.isDivider then .divider
  else if b.omitNext then .omitted
  else .page

/-- The count of a kind rises (R100). -/
def Counters.countKind (c : Counters) : Kind → Counters
  | .overrun => { c with overrun := sat32 c.overrun 1 }
  | .discarded => { c with discarded := sat32 c.discarded 1 }
  | .divider => { c with divider := sat32 c.divider 1 }
  | .omitted => { c with omitted := sat32 c.omitted 1 }
  | .page => { c with page := sat32 c.page 1 }

/-- A Bool as a count. -/
def one (b : Bool) : Nat := if b then 1 else 0

/-- The side counts of a settling record, as its sides stand (R100, 05 Table 5-8). -/
def Counters.countSides (c : Counters) (r : SheetRecord) : Counters :=
  { c with clipped := sat32 c.clipped (one r.front.clipped + one r.back.clipped),
           damaged := sat32 c.damaged (one r.front.damaged + one r.back.damaged),
           repaired := sat32 c.repaired (r.front.repaired + r.back.repaired) }

/-- The numbering of a settling record of mark result NONE (R101). -/
def BatchContext.numberSheet (b : BatchContext) : BatchContext :=
  let docRose := b.newDoc && b.begun
  let c := b.counters
  { b with
    folder := if b.newFolder then b.folder + 1 else b.folder
    document := if docRose then b.document + 1 else b.document
    sheetInDoc := (if docRose then 0 else b.sheetInDoc) + 1
    begun := true
    newFolder := false
    newDoc := false
    omitNext := false
    counters := { c with documents := sat32 c.documents (one (!b.begun || docRose)),
                         folders := sat32 c.folders (one (!b.begun || b.newFolder)) } }

/-- The flags that a settling divider arms (R102). -/
def BatchContext.armFor (b : BatchContext) : Divider → BatchContext
  | .document => { b with newDoc := true }
  | .folder => { b with newDoc := true, newFolder := true }
  | .dropNext => { b with omitNext := true }
  | .switch => b
  | .endBatch => b

/-- Stage 2 of a settlement: the record counted settled and by kind, numbered, its sides counted (R100 to R102). -/
def BatchContext.settle (b : BatchContext) (r : SheetRecord) : BatchContext :=
  let c := ({ b.counters with settled := sat32 b.counters.settled 1 } : Counters).countKind (kindOf b r)
  let b1 := { b with counters := c.countSides r }
  match r.markResult with
  | .noDivider => b1.numberSheet
  | .divider d => b1.armFor d
  | .pending => b1

/-- The standing of a settling record (04 Table 4-11, R86). -/
def standingOf (r : SheetRecord) : Standing :=
  if r.front.damaged || r.back.damaged || r.overrun then .review
  else
    match r.ruling with
    | .review => .review
    | .accepted => .accepted
    | .none =>
      match r.verdict.action with
      | .review => .review
      | .hold => .review
      | .pass => .flagged
      | .none => .clean

/-- A field of a route table entry matches: ANY, or the value itself (07 Table 7-2). -/
def routeField (code value : Nat) : Bool := code == 255 || code == value

/-- The code of a standing in a route table entry; REVIEW never consults the table (10 Table 10-4). -/
def Standing.routeCode : Standing → Nat
  | .clean => 0
  | .flagged => 1
  | .accepted => 2
  | .review => 256

/-- The code of a side in a route table entry. -/
def sideRouteCode : Side → Nat
  | .front => 0
  | .back => 1

/-- An entry matches a side; an entry whose action is unknown matches none (07 Table 7-2, note a). -/
def RouteEntry.fits (e : RouteEntry) (group : Nat) (sd : Side) (st : Standing) (blank divider : Bool) : Bool :=
  routeField e.group group && routeField e.side (sideRouteCode sd) && routeField e.standing st.routeCode
    && routeField e.blank (one blank) && routeField e.divider (one divider)
    && ((decide (1 ≤ e.action) && decide (e.action ≤ 7)) || e.action == 128)

/-- The fate of a COMPLETE side (R126): dropped, by blank-drop or otherwise, or sent to a lane, with NO_ROUTE or without. -/
inductive Fate where
  | dropped (blank : Bool)
  | sent (lane : LaneNo) (noRoute : Bool)
  deriving DecidableEq, Repr

/-- The route table search (R127). unused tells which lanes are UNUSED at the settlement. -/
def searchRoutes (routes : List RouteEntry) (unused : LaneNo → Bool) (group : Nat) (sd : Side) (st : Standing)
    (blank divider : Bool) : Fate :=
  match routes.find? fun e => e.fits group sd st blank divider with
  | none => .sent 0 true
  | some e =>
    if e.action = 128 then .dropped false
    else if unused (Fin.ofNat 8 e.action) then .sent 0 true
    else .sent (Fin.ofNat 8 e.action) false

/-- The route decision of one COMPLETE side (R126). -/
def routeSide (p : Profile) (routes : List RouteEntry) (unused : LaneNo → Bool) (r : SheetRecord) (st : Standing) (sd : Side) :
    Fate :=
  let blank := (r.side sd).blank == some true
  if blank && p.blankDrop then .dropped true
  else if r.markResult.isDivider && p.dividerDrop then .dropped false
  else if st = .review then .sent 0 false
  else searchRoutes routes unused p.group sd st blank r.markResult.isDivider

/-- The fate of a side: none unless it is COMPLETE. -/
def sideFate (p : Profile) (routes : List RouteEntry) (unused : LaneNo → Bool) (r : SheetRecord) (st : Standing) (sd : Side) :
    Option Fate :=
  if (r.side sd).capture = .complete then some (routeSide p routes unused r st sd) else none

/-- The image piece of a side sent to a lane (R128). -/
def imagePiece (p : Profile) (width : Nat) (r : SheetRecord) (sd : Side) : Option Fate → List Piece
  | some (.sent lane noRoute) =>
    let y := r.side sd
    [{ lane, noRoute,
       image := some { side := sd, format := p.format sd, pages := y.pages, bytes := y.image, width, lines := y.lines,
                       repaired := y.repaired, damaged := y.damaged, clipped := y.clipped, blank := y.blank == some true } }]
  | some (.dropped _) => []
  | none => []

/-- The fate is a blank-drop. -/
def Fate.isBlankDrop : Option Fate → Bool
  | some (.dropped b) => b
  | some (.sent _ _) => false
  | none => false

/-- The fate carries NO_ROUTE. -/
def Fate.isMiss : Option Fate → Bool
  | some (.sent _ m) => m
  | some (.dropped _) => false
  | none => false

/-- The placeholder of a record without an image piece: to lane 0 for REVIEW, else to the account lane (R128). -/
def placeholder (st : Standing) (account : LaneNo) (blankDropped : Bool) : Piece :=
  { lane := if st = .review then 0 else account, image := none, blankDropped }

/-- The release queue element of a settled record, with its numbers as the Batch Context then holds them (07 Table 7-3). -/
def elementOf (b : BatchContext) (r : SheetRecord) (st : Standing) (k : Kind) (pieces : List Piece) : Element :=
  { batchId := b.ticket.elim 0 (·.batchId), sheet := r.sheet.getD 0, folder := b.folder, document := b.document,
    sheetInDoc := b.sheetInDoc, standing := st, kind := k, markResult := r.markResult, verdict := r.verdict,
    switchRefused := r.switchRefused, sheetFirst := false, pieces }

/-- What a settlement comes to, for its transport and for the store: the transport after it, and the two sides of the record
with what each of them returns. -/
structure Settled where
  transport : Transport
  front : List Nat × Nat
  back : List Nat × Nat
  deriving DecidableEq, Repr

/-- What a side returns at a settlement (R124): a side that the omission DISCARDS, its pages and reservation; a dropped one, its
pages; a side sent to a lane, nothing. -/
def sideReturn (omitted : Bool) (x : SideRecord) : Option Fate → List Nat × Nat
  | some (.dropped _) => (x.pages, 0)
  | some (.sent _ _) => ([], 0)
  | none => if omitted then (x.pages, x.reserve) else ([], 0)

/-- The head record r of a transport settles, in the five stages of R64, by the lane states of the moment. -/
def Transport.settleRecord (x : Transport) (unused : LaneNo → Bool) (r : SheetRecord) : Settled :=
  let k := kindOf x.batch r
  let b := x.batch.settle r
  let st := standingOf r
  let p := x.profileOf r.selector
  let r1 := if k = .omitted then r.discardSides else r
  let routes := x.batch.snapshot.elim [] (·.routes)
  let f := sideFate p routes unused r1 st .front
  let g := sideFate p routes unused r1 st .back
  let blankDrops := one (Fate.isBlankDrop f) + one (Fate.isBlankDrop g)
  let c := b.counters
  let b1 : BatchContext :=
    { b with counters := { c with passedFlagged := sat32 c.passedFlagged (one (st == .flagged)),
                                  blankDropped := sat32 c.blankDropped blankDrops,
                                  routeMisses := sat32 c.routeMisses (one (Fate.isMiss f) + one (Fate.isMiss g)) } }
  let images := imagePiece p x.cfg.width r1 .front f ++ imagePiece p x.cfg.width r1 .back g
  let pieces :=
    if images = [] then [placeholder st (x.batch.ticket.elim 0 (·.accountLane)) (decide (0 < blankDrops))] else images
  { transport := { x with track := x.track.tail, batch := b1, queue := x.queue ++ [elementOf b1 r st k pieces] }
    front := sideReturn (k == .omitted) r.front f
    back := sideReturn (k == .omitted) r.back g }

/-- The head record r of transport t settles (R64): the record leaves the track, and the sides that are discarded or dropped
return what they hold, FRONT and then BACK (R124, log 39). -/
def State.settleHead (s : State) (t : TransportNo) (r : SheetRecord) : State :=
  let z := (s.tr t).settleRecord (fun n => (s.lane n).state == .unused) r
  ((s.setTr t z.transport).returnPages z.front.1 z.front.2).returnPages z.back.1 z.back.2

/-- The settlement condition tested for the head, and again for each new head (R63, R64). -/
def State.settleTransport (s : State) (t : TransportNo) : Nat → State
  | 0 => s
  | n + 1 =>
    match (s.tr t).track with
    | [] => s
    | r :: _ => if (s.tr t).canSettle r then (s.settleHead t r).settleTransport t n else s

/-- Settlement tested on every transport. -/
def State.settleAll (s : State) : State :=
  allTransports.foldl (fun s t => s.settleTransport t (s.tr t).track.length) s

end Sys2Proof.Machine
end

