-- ==== Sys2Proof/Machine/Picks.lean ====
section
/-! DEFINITION. The end tests (02 section 2.2), requests for admission (R36, R122), and the pick-wait reasons (R35). -/

namespace Sys2Proof.Machine

/-- The END_ON_EMPTY test or the count test holds (R30). -/
def Transport.endTest (x : Transport) : Bool :=
  x.state == .running && (x.track.all fun r => r.life != .picked)
    && ((x.batch.ticket.any (·.endOnEmpty) && x.pos.trayEmpty.level) || x.countReached)

/-- The tests of R30 are made; one that holds delivers the end condition (R29). -/
def Transport.endTests (x : Transport) : Transport := if x.endTest then x.endCondition else x

/-- The pick-wait reason (R35): SPACE when only admission is missing. -/
def Transport.waitReason (x : Transport) : PickWait :=
  if x.state = .running then (if x.firstUnmet = .none then .space else x.firstUnmet) else .none

/-- A transport that may pick and is not on the waiting list asks for admission: granted at once with an empty list and free
pages enough, else to the tail of the list (R36, R122). -/
def State.askAdmission (s : State) (t : TransportNo) : State :=
  if (s.tr t).eligible && (s.hold.waiting.all fun r => r.transport != t) then
    if s.hold.waiting = [] ∧ s.needOf t ≤ s.hold.freePages then s.grant t (s.needOf t)
    else
      s.setHold { s.hold with
        waiting := s.hold.waiting ++ [{ transport := t, need := s.needOf t, selector := (s.tr t).batch.active }] }
  else s

/-- The pick-wait reason of every transport brought up to date (R35). -/
def State.updateWaits (s : State) : State :=
  allTransports.foldl (fun s t => s.modTr t fun x => { x with pickWait := x.waitReason }) s

/-- The pick conditions tested on every transport: withdrawals, the waiting list served, new requests, pick-wait reasons
(R35, R36, R122, R123). -/
def State.pickStage (s : State) : State :=
  (allTransports.foldl State.askAdmission s.serveList).updateWaits

end Sys2Proof.Machine
end

