-- ==== Sys2Proof/Machine/Writer.lean ====
section
/-! DEFINITION. The lane writer, bins, entries, hand-backs and closures (07 sections 7.2 to 7.6, 05 section 5.7). -/

namespace Sys2Proof.Machine

/-! ### The head piece of a queue -/

/-- The head element and its first piece not yet written (07 section 7.2). -/
def Transport.headPiece (x : Transport) : Option (Element × Piece) :=
  match x.queue with
  | [] => none
  | e :: _ => (e.pieces.find? fun p => !p.written).map fun p => (e, p)

/-- The first piece not yet written, changed by f. -/
def modFirstUnwritten (f : Piece → Piece) : List Piece → List Piece
  | [] => []
  | p :: rest => if p.written then p :: modFirstUnwritten f rest else f p :: rest

/-- The head piece changed by f. -/
def Transport.modHeadPiece (x : Transport) (f : Piece → Piece) : Transport :=
  match x.queue with
  | [] => x
  | e :: rest => { x with queue := { e with pieces := modFirstUnwritten f e.pieces } :: rest }

/-- A piece is partly written: its first entry is written and it is not (R130). -/
def Piece.partlyWritten (p : Piece) : Bool := p.firstWritten && !p.written

/-- The lane of the piece that the writer's turn serves, with what the turn waits for. -/
def State.servedLane (s : State) : Option (TransportNo × TurnPhase × LaneNo) :=
  match s.writer.turn with
  | none => none
  | some (t, ph) => (s.tr t).headPiece.map fun q => (t, ph, q.2.lane)

/-- An entry is being written into a lane's bin. -/
def State.entryInProgress (s : State) (n : LaneNo) : Bool :=
  match s.servedLane with
  | some (_, .entry, m) => m == n
  | some (_, .binTake, _) => false
  | some (_, .handBack, _) => false
  | none => false

/-! ### Hand-back and closure -/

/-- A hand-back of the current bin begins: its flags fixed, the flush timer idle (R138, R139, R140). -/
def Lane.beginHandBack (l : Lane) (isPartial : Bool) : Lane :=
  { l with handBack := some { isPartial, batchEnd := !l.requests.isEmpty }, flushTimer := none, closeAsked := false }

/-- A lane reports a transport's request closed (R140). -/
def Transport.laneClosed (x : Transport) (n : LaneNo) : Transport :=
  match x.batch.closure with
  | .asked ls => { x with batch := { x.batch with closure := .asked (ls.filter (· != n)) } }
  | .notAsked => x
  | .writing => x
  | .written => x

/-- Every closure request of a lane is met (R140). -/
def State.meetRequests (s : State) (n : LaneNo) : State :=
  let ts := (s.lane n).requests
  ts.foldl (fun s t => s.modTr t (·.laneClosed n)) (s.modLane n fun l => { l with requests := [] })

/-- A closure request is held by the lane rather than met at once: a hand-back of its bin is in flight, or it is OPEN with an
entry being written into its bin (R131), also the bin's first one as at the close of 07 section 7.7, or with an entry in its bin
(R140, log 19). -/
def State.holdsRequest (s : State) (n : LaneNo) : Bool :=
  let l := s.lane n
  l.handBack.isSome || (l.state == .opened && (s.entryInProgress n || l.bin.any fun b => decide (0 < b.count)))

/-- A closure request for lane n from transport t: pending, starting a hand-back at once unless one is in flight or an entry
is being written (R131); or met at once (R140). -/
def State.requestClosure (s : State) (t : TransportNo) (n : LaneNo) : State :=
  if s.holdsRequest n then
    let s1 := s.modLane n fun l => { l with requests := l.requests ++ [t] }
    if (s.lane n).handBack.isSome || s.entryInProgress n then s1 else s1.modLane n (·.beginHandBack false)
  else s.modTr t (·.laneClosed n)

/-- The batch of a transport is to be closed: DRAINING for END, ABORT or HALT with its track and queue empty and the closure
not yet asked (R104). -/
def Transport.closureDue (x : Transport) : Bool :=
  x.state == .draining && x.purpose != .none && x.purpose != .pause && x.track.isEmpty && x.queue.isEmpty
    && x.batch.closure == .notAsked

/-- The outcome code by the first row of 05 Table 5-9 that applies (R105). -/
def outcomeOf (purpose : Purpose) (expected settled overrun : Nat) : OutcomeCode :=
  if purpose = .abort then .aborted
  else if purpose = .halt then .interrupted
  else if 0 < expected ∧ settled - overrun < expected then .short
  else if 0 < expected ∧ expected < settled - overrun then .over
  else .complete

/-- The outcome write begins when every lane of the closure is closed and the transport is DRAINING (R105, R106). -/
def Transport.beginOutcome (x : Transport) : Transport :=
  let c := x.batch.counters
  { x with batch := { x.batch with
      closure := .writing
      outcome := some { ticket := x.batch.batch.getD 0, reason := .none, counters := c,
                        code := outcomeOf x.purpose (x.batch.ticket.elim 0 (·.expected)) c.settled c.overrun } } }

/-- The closure is requested of every lane the batch has touched (R104, R105). -/
def State.askClosures (s : State) (t : TransportNo) : State :=
  (s.tr t).batch.lanesTouched.foldl (fun s n => s.requestClosure t n)
    (s.modTr t fun x => { x with batch := { x.batch with closure := .asked x.batch.lanesTouched } })

/-- A DRAINING transport goes on with its closure: the outcome is written once every lane is reported closed, and DRAINING is
left once it is written (R105, R106). An outcome settled before a stop stands, also where an ABORT taken in HELD has since changed
the purpose (DESIGN CHOICE between R105 and R156, log 53). -/
def State.goOnClosing (s : State) (t : TransportNo) : State :=
  if (s.tr t).state = .draining then
    match (s.tr t).batch.closure with
    | .asked [] => s.modTr t (·.beginOutcome)
    | .written => s.modTr t fun x => ({ x with batch := { x.batch with closure := .notAsked } } : Transport).leaveDraining
    | .asked (_ :: _) => s
    | .notAsked => s
    | .writing => s
  else s

/-- The batch end of one transport: the closure asked on every lane touched, then the outcome begun, or DRAINING left when
the outcome was written while the transport was HELD (R104 to R106, log 13). -/
def State.endBatch (s : State) (t : TransportNo) : State :=
  (if (s.tr t).closureDue then s.askClosures t else s).goOnClosing t

/-! ### Turns -/

/-- A lane can take a piece: OPEN or IDLE with no restart, bin take or hand-back in flight (R130, 07 Table 7-4 note a). -/
def Lane.takesPiece (l : Lane) : Bool :=
  (l.state == .opened || l.state == .idle) && !l.restart && !l.binTake && l.handBack.isNone

/-- A partly written piece for lane n stands at the head of another transport's queue (R130). -/
def State.blockedByOther (s : State) (t : TransportNo) (n : LaneNo) : Bool :=
  allTransports.any fun u => u != t && (s.tr u).headPiece.any fun q => q.2.lane == n && q.2.partlyWritten

/-- Transport t's head piece can be served (R130). -/
def State.servable (s : State) (t : TransportNo) : Bool :=
  (s.tr t).headPiece.any fun q => (s.lane q.2.lane).takesPiece && !s.blockedByOther t q.2.lane

/-- The lane joins the batch's lanes touched (R104). -/
def Transport.touch (x : Transport) (n : LaneNo) : Transport :=
  if x.batch.lanesTouched.contains n then x
  else { x with batch := { x.batch with lanesTouched := x.batch.lanesTouched ++ [n] } }

/-- In an OPEN lane the next entry of the head piece is begun, the flush timer stopped, or the bin goes back as full when its
room is too small (R136, R139). -/
def State.continueTurn (s : State) (t : TransportNo) : State :=
  match (s.tr t).headPiece with
  | none => s.setWriter { s.writer with turn := none }
  | some (e, p) =>
    match (s.lane p.lane).bin with
    | none => s.setWriter { s.writer with turn := none }
    | some b =>
      if entryFits e p (b.capacity - b.filled) then
        ((s.modLane p.lane fun l => { l with flushTimer := none }).modTr t fun x =>
          if p.firstWritten then x else x.touch p.lane).setWriter { s.writer with turn := some (t, .entry) }
      else (s.modLane p.lane (·.beginHandBack false)).setWriter { s.writer with turn := some (t, .handBack) }

/-- A turn begins: the pointer moves to the transport; an IDLE lane first takes its next bin (R130, R131). -/
def State.beginTurn (s : State) (t : TransportNo) : State :=
  match (s.tr t).headPiece with
  | none => s
  | some (_, p) =>
    let s1 := s.setWriter { s.writer with pointer := some t }
    if (s.lane p.lane).state = .idle then
      (s1.modLane p.lane fun l => { l with binTake := true }).setWriter { pointer := some t, turn := some (t, .binTake) }
    else s1.continueTurn t

/-- The transports in the order in which the writer looks, from the one after its pointer (R130). -/
def writerOrder : Option TransportNo → List TransportNo
  | none => [0, 1, 2, 3]
  | some p => [p + 1, p + 2, p + 3, p]

/-- The idle writer looks for a queue whose head piece can be served and serves the first found (R130). -/
def State.lookForWork (s : State) : State :=
  match s.writer.turn with
  | some _ => s
  | none =>
    match (writerOrder s.writer.pointer).find? s.servable with
    | none => s
    | some t => s.beginTurn t

/-! ### Entries -/

/-- The head piece after its entry of d data bytes is written (R129, R136). -/
def Piece.advance (p : Piece) (d : Nat) : Piece :=
  { p with progress := p.progress + d, firstWritten := true, written := decide (p.total ≤ p.progress + d) }

/-- The queue after the head element's entry: SHEET_FIRST written, the piece advanced, the element gone when its last piece is
written (R129, R132). -/
def advanceQueue (d : Nat) : List Element → List Element
  | [] => []
  | e :: rest =>
    let ps := modFirstUnwritten (·.advance d) e.pieces
    if ps.all (·.written) then rest else { e with sheetFirst := true, pieces := ps } :: rest

/-- The lane after an entry is written into its bin: a full bin goes back, then a LANE_CLOSE or a pending closure is served,
else the flush timer starts (R136, R139 to R141, log 20). A bin that the entry fills goes back as full, without PARTIAL, also
where a LANE_CLOSE waited for the entry (DESIGN CHOICE between R136, R138 and R141, log 49). -/
def Lane.afterEntry (l : Lane) (b : Bin) : Lane :=
  let l1 := { l with bin := some b }
  if b.capacity ≤ b.filled then l1.beginHandBack false
  else if l.closeAsked then l1.beginHandBack true
  else if l.requests ≠ [] then l1.beginHandBack false
  else { l1 with flushTimer := if l.flushTime = 0 then none else some l.flushTime }

/-- The write of an entry ends well (R129, R131, R136). -/
def State.entryWritten (s : State) (t : TransportNo) (e : Element) (p : Piece) (b : Bin) : State :=
  let room := b.capacity - b.filled
  let d := entryDataLength e p room
  let b1 := { b with filled := b.filled + roundUp64 (entryHeaderLength e p + d), count := b.count + 1 }
  let whole := decide (p.total ≤ p.progress + d)
  let s1 := (s.modTr t fun x => { x with queue := advanceQueue d x.queue }).modLane p.lane (·.afterEntry b1)
  let s2 := s1.setWriter { s.writer with turn := if whole then none else some (t, .handBack) }
  if whole then s2.returnPages (p.image.elim [] (·.pages)) 0 else s2

/-- A bus error on an entry write: the lane FAULTED, the piece interrupted, the turn over, the bin handed back with PARTIAL if
it holds an entry and dropped if not (R131, R142). -/
def State.entryFault (s : State) (t : TransportNo) (p : Piece) (b : Bin) : State :=
  let s1 := ((s.modTr t (·.modHeadPiece fun q => { q with interrupted := true })).setWriter
    { s.writer with turn := none }).setEvent .memfault
  if 0 < b.count then s1.modLane p.lane fun l => ({ l with state := .faulted } : Lane).beginHandBack true
  else
    (s1.modLane p.lane fun l =>
      { l with state := .faulted, bin := none, flushTimer := none, closeAsked := false }).meetRequests p.lane

/-- The write of an entry ends (R136, R142). -/
def State.entryDone (s : State) (r : BusWrite) : State :=
  match s.writer.turn with
  | some (t, .entry) =>
    match (s.tr t).headPiece with
    | none => s
    | some (e, p) =>
      match (s.lane p.lane).bin with
      | none => s
      | some b =>
        let s1 := s.hostWrite r (entryCells t e p b)
        match r with
        | .ok => s1.entryWritten t e p b
        | .busError _ => s1.entryFault t p b
  | some (_, .binTake) => s
  | some (_, .handBack) => s
  | none => s

/-! ### The end of a hand-back -/

/-- The writer's turn for transport t ends with its piece unfinished and broken off by a fault (R131, R144). -/
def State.breakTurn (s : State) (t : TransportNo) : State :=
  (s.modTr t (·.modHeadPiece fun q => { q with interrupted := true })).setWriter { s.writer with turn := none }

/-- A turn that waited for a hand-back of lane n goes on to the bin take when the lane is IDLE, and is broken off when it is
FAULTED (R131, R138, R143). -/
def State.afterHandBack (s : State) (n : LaneNo) : State :=
  match s.servedLane with
  | some (t, .handBack, m) =>
    if m = n then
      if (s.lane n).state = .idle then
        (s.modLane n fun l => { l with binTake := true }).setWriter { s.writer with turn := some (t, .binTake) }
      else s.breakTurn t
    else s
  | some (_, .entry, _) => s
  | some (_, .binTake, _) => s
  | none => s

/-- The lane after its hand-back ended well: no bin, cursor AFTER it, IDLE unless FAULTED, the sequence risen (R138). -/
def Lane.handedBack (l : Lane) (a : Addr) : Lane :=
  { l with bin := none, handBack := none, cursor := .after a, sequence := l.sequence + 1,
           state := if l.state = .faulted then .faulted else .idle }

/-- The lane after its hand-back failed: FAULTED, no bin, the sequence risen (R143). -/
def Lane.handBackFailed (l : Lane) : Lane :=
  { l with bin := none, handBack := none, sequence := l.sequence + 1, state := .faulted }

/-- The writes of a hand-back end (R138, R140, R143). -/
def State.handBackEnded (s : State) (n : LaneNo) (r : BusWrite) : State :=
  match (s.lane n).handBack, (s.lane n).bin with
  | some h, some b =>
    let s1 := s.hostWrite r (handBackCells b n (s.lane n).sequence h)
    let s2 := match r with
      | .ok => (s1.modLane n (·.handedBack b.addr)).setEvent (.lane n)
      | .busError _ => (s1.modLane n Lane.handBackFailed).setEvent .memfault
    (s2.meetRequests n).afterHandBack n
  | _, _ => s

/-! ### Bin takes -/

/-- What the reads of a bin take come to (R134). -/
inductive TakeResult where
  | opened (b : Bin)
  | starved
  | faulted
  | busError
  deriving DecidableEq, Repr

/-- The reads of a bin at an address (R134, cursor AT): its turn, and its capacity when posted. -/
def examineBin (a : Addr) (bin : MemRead) : TakeResult :=
  if !multipleOf a 4096 then .faulted
  else
    match bin with
    | .busError => .busError
    | .data bytes =>
      if !turnPosted bytes then .starved
      else
        let c := field bytes 4 4
        if c % 4096 = 0 ∧ 4096 ≤ c ∧ c ≤ 16777216 then .opened { addr := a, capacity := c, filled := 64, count := 0 }
        else .faulted

/-- A bin take follows the cursor: the link of a HEAD or AFTER cursor, then the bin (R134). -/
def followCursor (c : Cursor) (link bin : MemRead) : Cursor × TakeResult :=
  match c with
  | .at a => (c, examineBin a bin)
  | .head =>
    match link with
    | .busError => (c, .busError)
    | .data bytes => if addrField bytes 0 = 0 then (c, .starved) else (.at (addrField bytes 0), examineBin (addrField bytes 0) bin)
  | .after _ =>
    match link with
    | .busError => (c, .busError)
    | .data bytes => if addrField bytes 0 = 0 then (c, .starved) else (.at (addrField bytes 0), examineBin (addrField bytes 0) bin)

/-- The lane after a bin take: OPEN, STARVED or FAULTED (R134). -/
def Lane.taken (l : Lane) (c : Cursor) : TakeResult → Lane
  | .opened b => { l with binTake := false, cursor := c, bin := some b, state := .opened }
  | .starved => { l with binTake := false, cursor := c, state := .starved }
  | .busError => { l with binTake := false, cursor := c, state := .starved }
  | .faulted => { l with binTake := false, cursor := c, state := .faulted }

/-- A malformed bin or a failed read sets EVT.MEMFAULT (R134). -/
def TakeResult.isFault : TakeResult → Bool
  | .opened _ => false
  | .starved => false
  | .busError => true
  | .faulted => true

/-- A turn that waited for the bin take of lane n goes on when the lane is OPEN and ends otherwise (R131). -/
def State.afterBinTake (s : State) (n : LaneNo) : State :=
  match s.servedLane with
  | some (t, .binTake, m) =>
    if m = n then
      if (s.lane n).state = .opened then s.continueTurn t else s.setWriter { s.writer with turn := none }
    else s
  | some (_, .entry, _) => s
  | some (_, .handBack, _) => s
  | none => s

/-- The reads of a bin take of lane n end (R134). -/
def State.binTakeEnded (s : State) (n : LaneNo) (link bin : MemRead) : State :=
  if (s.lane n).binTake then
    let q := followCursor (s.lane n).cursor link bin
    let s1 := s.modLane n (·.taken q.1 q.2)
    (if q.2.isFault then s1.setEvent .memfault else s1).afterBinTake n
  else s

end Sys2Proof.Machine
end

