-- ==== Sys2Proof/Machine/Stops.lean ====
section
/-! DEFINITION. Stops and pick misses (02 sections 2.4 to 2.6, 01 R15, 03 section 3.4). -/

namespace Sys2Proof.Machine

/-- An armed position is disarmed by a stop; an expiry already raised and not yet taken is not an armed position any more
(R4, R15, log 4). -/
def Armed.disarm : Armed → Armed
  | .idle => .idle
  | .at _ => .idle
  | .raised => .raised

/-- A gap position is disarmed by a stop; a met gap stays met (R37, R41, log 17). -/
def Gap.disarm : Gap → Gap
  | .unarmed => .unarmed
  | .at _ => .unarmed
  | .raised => .unarmed
  | .met => .met

/-- The lead window end and the trail deadline of a record at a station are disarmed (R15, R62). -/
def StationTrack.disarm (x : StationTrack) : StationTrack := { x with leadEnd := .idle, trailEnd := .idle }

/-- The capture window positions of a side are disarmed (R15). A WAITING side whose window start is passed and not yet taken has
its window end passed with it, so that the side still takes its one line and goes on (R60, R108, log 42). -/
def SideRecord.disarm (x : SideRecord) : SideRecord :=
  { x with
    windowStart := x.windowStart.disarm
    windowEnd := if x.capture = .waiting ∧ x.windowStart = .raised ∧ x.windowEnd ≠ .idle then .raised else x.windowEnd.disarm }

/-- Every position armed for a record is disarmed (R15, R41). -/
def SheetRecord.disarm (r : SheetRecord) : SheetRecord :=
  { r with entry := r.entry.disarm, df := r.df.disarm, mark := r.mark.disarm, exit := r.exit.disarm, gap := r.gap.disarm,
           front := r.front.disarm, back := r.back.disarm }

/-- The sorting of one record by a stop (R42): PICKED leaves the track, IN_PATH becomes WITHDRAWN with its sides DISCARDED,
the others stay as they are. -/
def SheetRecord.sorted (r : SheetRecord) : Option SheetRecord :=
  match r.life with
  | .picked => none
  | .inPath => some { r.disarm.discardSides with life := .withdrawn }
  | .done => some r.disarm
  | .parked => some r.disarm
  | .withdrawn => some r.disarm

/-- A record that gives up its pages and its reservation at a stop (R42). -/
def SheetRecord.givesUp (r : SheetRecord) : Bool := r.life == .picked || r.life == .inPath

/-- What a stop does to its transport (R15, R41, R42, R45, R97). The purpose is kept as the held purpose. -/
def Transport.stopped (x : Transport) (reason : StopReason) : Transport :=
  let y := (x.track.filter (·.givesUp)).foldl (fun y r => y.endCaptures r.id) x.motorOff
  { y with state := .held, stopReason := reason, pickWait := .none, coverWait := false, runOn := none, retries := 0,
           runInEnd := .idle, track := x.track.filterMap SheetRecord.sorted, marks := {},
           dfu := { y.dfu with run := .none } }

/-- A record that a stop removes or withdraws gives back what it holds (R42, R124): a PICKED one its whole reservation, another
one side by side. -/
def State.returnGivenUp (s : State) (r : SheetRecord) : State :=
  if r.life = .picked then s.returnPages r.pages r.reserve else s.returnSides r

/-- A CAPTURING side of a DONE or PARKED record whose window end a stop has disarmed goes on to completion: its window ends,
and it waits for the packets of the lines already triggered (R58, R60, log 42). A window end already passed keeps its expiry. -/
def State.endWindowAtStop (s : State) (t : TransportNo) (sd : Side) : State :=
  match ((s.tr t).unit sd).activity with
  | .capturing id false => if (s.tr t).windowPassed sd then s else s.captureEnd t sd id
  | .capturing _ true => s
  | .idle => s

/-- A stop of transport t is taken in RUNNING or DRAINING; elsewhere it is not taken (R41). The transport is HELD first, then
the records given up return what they hold, oldest first, then the captures left go on to completion (log 39, log 46). -/
def State.takeStop (s : State) (t : TransportNo) (reason : StopReason) : State :=
  if (s.tr t).isActive then
    ((((s.tr t).track.filter (·.givesUp)).foldl State.returnGivenUp (s.modTr t (·.stopped reason))).endWindowAtStop t
      .front).endWindowAtStop t .back
  else s

/-- A pick miss of a PICKED record (R40): the record leaves the track without a count, the clutch is released, and its
reservation returns; in RUNNING without a run-on a retry or the MISFEED stop, otherwise the retry count becomes 0. A clutch
whose ENTRY window end was passed stays engaged until this step takes the expiry (R12, R38; DESIGN CHOICE, log 44). -/
def State.pickMissed (s : State) (t : TransportNo) (r : SheetRecord) : State :=
  let x := s.tr t
  let n := if x.state = .running ∧ x.runOn = none then x.retries + 1 else 0
  let s1 := (s.setTr t { x with track := x.track.filter fun q => q.id != r.id, clutch := false, retries := n }).returnPages
    r.pages r.reserve
  if x.state = .running ∧ x.runOn = none ∧ x.cfg.pickRetries < n then s1.takeStop t .misfeed else s1

end Sys2Proof.Machine
end

