-- ==== Sys2Proof/Machine/Attribution.lean ====
section
/-! DEFINITION. Attribution of station edges to sheet records, the accepted changes of a sensor, and held expiries
(01 sections 1.3 to 1.5). -/

namespace Sys2Proof.Machine

/-- The station before a station in path order; ENTRY has none before it. -/
def previousStation : Station → Station
  | .entry => .entry
  | .df => .entry
  | .mark => .df
  | .exit => .mark

/-- The distance of a station from ENTRY (01 Table 1-3). -/
def Setup.distance (u : Setup) : Station → Nat
  | .entry => 0
  | .df => u.dDF
  | .mark => u.dMK
  | .exit => u.dEX

/-- The distance from DF to a side's camera line (R108). -/
def Setup.cameraDistance (u : Setup) : Side → Nat
  | .front => u.dCF - u.dDF
  | .back => u.dCB - u.dDF

/-- The record to which a lead edge at a station belongs: the oldest PICKED record at ENTRY (R9), else the oldest record not
WITHDRAWN whose lead is seen at the previous station and not at this one (R10). -/
def Transport.leadOwner (x : Transport) (st : Station) : Option SheetRecord :=
  if st = .entry then x.findRecord fun r => r.life == .picked
  else x.findRecord fun r => r.life != .withdrawn && (r.at (previousStation st)).lead.isSome && (r.at st).lead.isNone

/-- The lead window of a record at a station (01 Table 1-4). -/
def Transport.leadWindow (x : Transport) (r : SheetRecord) (st : Station) : Pos × Pos :=
  if st = .entry then (r.pickPos, posPlus r.pickPos x.cfg.pickWindow)
  else
    let centre := posPlus (r.entry.lead.getD 0) (x.cfg.distance st)
    (posMinus centre x.cfg.tolerance, posPlus centre x.cfg.tolerance)

/-- The record to which a trail edge at a station belongs: the oldest not WITHDRAWN whose lead is seen there, whose trail is
not, and, beyond ENTRY, whose trail is seen at the previous station (R11). -/
def Transport.trailOwner (x : Transport) (st : Station) : Option SheetRecord :=
  x.findRecord fun r =>
    r.life != .withdrawn && (r.at st).lead.isSome && (r.at st).trail.isNone
      && (st == .entry || (r.at (previousStation st)).trail.isSome)

/-- A lead seen at a station: latch filled, window end disarmed, trail deadline armed at the latch + C(Lmax) (R10, R11). -/
def StationTrack.seeLead (x : StationTrack) (latch : Pos) (cLMax : Nat) : StationTrack :=
  { x with lead := some latch, leadEnd := .idle, trailEnd := .at (posPlus latch cLMax) }

/-- A trail seen at a station: latch filled, deadline disarmed (R11). -/
def StationTrack.seeTrail (x : StationTrack) (latch : Pos) : StationTrack :=
  { x with trail := some latch, trailEnd := .idle }

/-- The lead window end of a record at a station is armed (01 Table 1-4). -/
def StationTrack.armLead (x : StationTrack) (p : Pos) : StationTrack := { x with leadEnd := .at p }

/-- An ENTRY lead of a record (R9, R39, R56): IN_PATH, the later windows armed, the sheet counted as picked and numbered, the
clutch released, the retry count 0. -/
def Transport.entryLead (x : Transport) (r : SheetRecord) (latch : Pos) : Transport :=
  let n := sat32 x.batch.counters.picked 1
  let windowEnd := fun st => posPlus (posPlus latch (x.cfg.distance st)) x.cfg.tolerance
  { x.modRecord r.id fun q =>
      { q with
        life := .inPath
        sheet := some (BitVec.ofNat 32 n)
        entry := q.entry.seeLead latch (x.copyOf q.selector).cLMax
        df := q.df.armLead (windowEnd .df)
        mark := q.mark.armLead (windowEnd .mark)
        exit := q.exit.armLead (windowEnd .exit) } with
    clutch := false
    retries := 0
    batch := { x.batch with counters := { x.batch.counters with picked := n } } }

/-- A lead latch of a record at DF, MARK or EXIT is filled (R10). -/
def Transport.fillLead (x : Transport) (r : SheetRecord) (st : Station) (latch : Pos) : Transport :=
  x.modRecord r.id fun q => q.setAt st ((q.at st).seeLead latch (x.copyOf q.selector).cLMax)

/-- A trail latch of a record is filled (R11). -/
def Transport.fillTrail (x : Transport) (r : SheetRecord) (st : Station) (latch : Pos) : Transport :=
  x.modRecord r.id fun q => q.setAt st ((q.at st).seeTrail latch)

/-- The window start of a side is armed at a DF lead, and its expiry taken at once when the counter has passed it (R108). -/
def State.armWindowStart (s : State) (t : TransportNo) (id : Nat) (sd : Side) (p : Pos) : State :=
  match (s.tr t).record id with
  | none => s
  | some r =>
    if (r.side sd).capture = .waiting then
      if passed p (s.tr t).pos.counter then
        (s.modTr t fun x => x.modRecord id fun q => q.setSide sd { q.side sd with windowStart := .raised }).captureStart t sd id
      else s.modTr t fun x => x.modRecord id fun q => q.setSide sd { q.side sd with windowStart := .at p }
    else s

/-- The window end of a taken side is armed at a DF trail; when the counter has passed it, its expiry is taken at once, or
after the window start that still waits to be taken (R108). -/
def State.armWindowEnd (s : State) (t : TransportNo) (id : Nat) (sd : Side) (p : Pos) : State :=
  match (s.tr t).record id with
  | none => s
  | some r =>
    let c := (r.side sd).capture
    if c = .waiting ∨ c = .capturing then
      if passed p (s.tr t).pos.counter then
        let s1 := s.modTr t fun x => x.modRecord id fun q => q.setSide sd { q.side sd with windowEnd := .raised }
        if c = .capturing then s1.captureEnd t sd id else s1
      else s.modTr t fun x => x.modRecord id fun q => q.setSide sd { q.side sd with windowEnd := .at p }
    else s

/-- The hand-offs of a DF lead (R14, 01 Table 1-5): the Double-Feed Unit, then the window starts of both sides. Where both window
starts are passed and each ends an older side whose outstanding lines take an unreserved page, the FRONT unit takes first, which
R123 leaves open (DESIGN CHOICE, log 52). FRONT's older side then also completes first: a request that waits is granted at the
return of its reservation before the BACK unit takes an unreserved page, the order of a grant and a take that R123 leaves open
too (DESIGN CHOICE, log 55). -/
def State.dfLeadSeen (s : State) (t : TransportNo) (r : SheetRecord) (latch : Pos) : State :=
  let u := (s.tr t).cfg
  ((s.modTr t fun x => (x.fillLead r .df latch).dfLead r.id).armWindowStart t r.id .front
    (posPlus latch (u.cameraDistance .front))).armWindowStart t r.id .back (posPlus latch (u.cameraDistance .back))

/-- The hand-offs of a DF trail: the verdict, then the window ends of both sides. -/
def State.dfTrailSeen (s : State) (t : TransportNo) (r : SheetRecord) (latch : Pos) : State :=
  let u := (s.tr t).cfg
  ((s.modTr t fun x => (x.fillTrail r .df latch).dfTrail r.id latch).armWindowEnd t r.id .front
    (posPlus latch (u.cameraDistance .front))).armWindowEnd t r.id .back (posPlus latch (u.cameraDistance .back))

/-- A lead edge attributed to its record (R9, R10, R14). -/
def State.leadSeen (s : State) (t : TransportNo) (r : SheetRecord) (st : Station) (latch : Pos) : State :=
  match st with
  | .entry => s.modTr t fun x => x.entryLead r latch
  | .df => s.dfLeadSeen t r latch
  | .mark => s.modTr t fun x => (x.fillLead r .mark latch).markLead r latch
  | .exit => s.modTr t fun x => x.fillLead r .exit latch

/-- A lead edge at a station (R9, R10): its record's lead, or a JAM_EARLY stop. A change to paper at ENTRY that was pending when
a ruling entered RUNNING meets a PICKED record where the run-in distance is 0 and the ruling's own step picked. It is judged by
R9, so that a latch equal to the pick position is that record's lead, where R158 says that there is no PICKED record and a
JAM_EARLY stop (DESIGN CHOICE, log 56). -/
def State.leadEdge (s : State) (t : TransportNo) (st : Station) (latch : Pos) : State :=
  match (s.tr t).leadOwner st with
  | none => s.takeStop t .jamEarly
  | some r =>
    let w := (s.tr t).leadWindow r st
    if within w.1 w.2 latch then s.leadSeen t r st latch else s.takeStop t .jamEarly

/-- The gap after a record from its ENTRY trail on (R37): met at once for a gap distance of 0 or a position already passed,
else armed. -/
def Transport.gapFrom (x : Transport) (trail : Pos) : Gap :=
  let p := posPlus trail x.cfg.gapDistance
  if x.cfg.gapDistance = 0 ∨ passed p x.pos.counter then .met else .at p

/-- An EXIT trail (R44, R57, R58): the record is DONE, or PARKED with the SUSPECT stop when it is the run-on's offender. -/
def State.exitTrail (s : State) (t : TransportNo) (r : SheetRecord) (latch : Pos) : State :=
  let s1 := s.modTr t fun x => x.fillTrail r .exit latch
  if (s.tr t).runOn = some r.id then
    (s1.modTr t fun x => x.modRecord r.id fun q => { q with life := .parked }).takeStop t .suspect
  else s1.modTr t fun x => x.modRecord r.id fun q => { q with life := .done }

/-- A trail edge attributed to its record (R11, R14). -/
def State.trailSeen (s : State) (t : TransportNo) (r : SheetRecord) (st : Station) (latch : Pos) : State :=
  match st with
  | .entry =>
    s.modTr t fun x => (x.fillTrail r .entry latch).modRecord r.id fun q => { q with gap := x.gapFrom latch }
  | .df => s.dfTrailSeen t r latch
  | .mark => s.modTr t fun x => (x.fillTrail r .mark latch).markTrail r latch
  | .exit => s.exitTrail t r latch

/-- A trail edge at a station (R11, R13): its record's trail; TRAIL_LATE when the deadline was passed and the latch lies beyond
it; a JAM_EARLY stop without a record. -/
def State.trailEdge (s : State) (t : TransportNo) (st : Station) (latch : Pos) : State :=
  match (s.tr t).trailOwner st with
  | none => s.takeStop t .jamEarly
  | some r =>
    if (r.at st).trailEnd = .raised ∧ ((s.tr t).copyOf r.selector).cLMax < fwd ((r.at st).lead.getD 0) latch then
      s.takeStop t .trailLate
    else s.trailSeen t r st latch

/-- A measurement left by a MARK edge that is not attributed is discarded (R93). -/
def Transport.dropProvisional (x : Transport) : Transport :=
  if x.marks.measurement = .provisional then { x with marks := {} } else x

/-- An accepted station change: attributed in RUNNING and DRAINING, else without effect beyond the level (R8). -/
def State.stationChange (s : State) (t : TransportNo) (st : Station) (paper : Bool) (latch : Pos) : State :=
  if (s.tr t).isActive then
    if paper then s.leadEdge t st latch else s.trailEdge t st latch
  else if st = .mark then s.modTr t (·.dropProvisional)
  else s

/-- An accepted COVER_OPEN change (R17, R31). Closing makes a start that waits for the cover in DRAINING too, also where the
transport went from RUNNING into a drain for END, ABORT or HALT with an empty track: R31 makes that start, while R28 does not start
the motor of such a drain (DESIGN CHOICE, log 51). -/
def State.coverChange (s : State) (t : TransportNo) (isOpen : Bool) : State :=
  let x := s.tr t
  if isOpen then
    if x.isActive then s.takeStop t .cover
    else if x.state = .ready ∨ x.state = .paused then s.modTr t (·.motorOff)
    else s
  else if x.isActive && x.coverWait then s.modTr t (·.startMotor)
  else s

/-- An accepted change is delivered (R7). A TRAY_EMPTY change acts through the end tests and the pick conditions, which read
the level (R18). -/
def State.deliver (s : State) (t : TransportNo) (sn : Sensor) (level : Bool) (latch : Pos) : State :=
  match sn with
  | .station st => s.stationChange t st level latch
  | .trayEmpty => s
  | .coverOpen => s.coverChange t level

/-- The oldest record whose trail deadline at a station is passed and not yet taken. -/
def Transport.lateTrail (x : Transport) (st : Station) : Option SheetRecord :=
  x.findRecord fun r => r.life != .withdrawn && (r.at st).trailEnd == .raised

/-- The oldest record whose lead window end at a station is passed and not yet taken. -/
def Transport.lateLead (x : Transport) (st : Station) : Option SheetRecord :=
  x.findRecord fun r => r.life != .withdrawn && (r.at st).leadEnd == .raised

/-- A change is pending at a station's sensor. -/
def Transport.pendingAt (x : Transport) (st : Station) : Bool := (x.pos.sensor (.station st)).pending.isSome

/-- The lead window end of a station that was passed is taken: a pick miss at ENTRY, elsewhere a JAM_LATE stop (R12). -/
def State.takeLeadExpiry (s : State) (t : TransportNo) (st : Station) : State :=
  match (s.tr t).lateLead st with
  | none => s
  | some r => if st = .entry then s.pickMissed t r else s.takeStop t .jamLate

/-- The trail deadline of a station that was passed is taken: a TRAIL_LATE stop (R13). -/
def State.takeTrailExpiry (s : State) (t : TransportNo) (st : Station) : State :=
  match (s.tr t).lateTrail st with
  | none => s
  | some _ => s.takeStop t .trailLate

/-- The mark window end that was passed is taken (R95). -/
def State.takeMarkExpiry (s : State) (t : TransportNo) : State :=
  if (s.tr t).marks.windowEnd = .raised then s.modTr t (·.markWindowExpired) else s

/-- A sensor's state replaced. -/
def Transport.setSensor (x : Transport) (sn : Sensor) (c : SensorState) : Transport :=
  { x with pos := x.pos.setSensor sn c }

/-- A hold timer runs out (R6): the pending change is accepted with its latch and delivered, or dropped as a glitch. -/
def State.acceptChange (s : State) (t : TransportNo) (sn : Sensor) : State :=
  let c := (s.tr t).pos.sensor sn
  match c.pending with
  | none => s
  | some p =>
    let s1 := s.modTr t fun x => x.setSensor sn { raw := c.raw, level := c.raw, pending := none }
    if c.raw ≠ c.level then s1.deliver t sn c.raw p.latch
    else if sn = .station .mark then s1.modTr t (·.dropProvisional)
    else s1

/-- An expiry that a station's pending change held back is taken in RUNNING and DRAINING only. -/
def State.ifActive (s : State) (t : TransportNo) (f : State → State) : State := if (s.tr t).isActive then f s else s

/-- What a resolved change held back, as the steps taken in order: the mark window end, the trail deadline, the lead window end
(R12, R13, R95, log 18). -/
def heldSteps (t : TransportNo) : Sensor → List (State → State)
  | .station st =>
    [fun s => if st = .mark then s.takeMarkExpiry t else s, fun s => s.takeTrailExpiry t st, fun s => s.takeLeadExpiry t st]
  | .trayEmpty => []
  | .coverOpen => []

/-- The states that the resolution of a sensor's pending change goes through, the last one first: the change accepted or dropped,
then each expiry that it held back (R6, R12, R13, R95). -/
def State.resolution (s : State) (t : TransportNo) (sn : Sensor) : List State :=
  (heldSteps t sn).foldl (fun path f => (path.headD s).ifActive t f :: path) [s.acceptChange t sn]

/-- The resolution of a sensor's pending change. -/
def State.resolve (s : State) (t : TransportNo) (sn : Sensor) : State := (s.resolution t sn).headD s

/-- A raw edge of a debounced sensor (R6): a change becomes pending, or its hold timer is restarted; a MARK change to paper
that becomes pending begins a measurement (R93). A further edge leaves the latch of the pending change as it is, also where an
ENABLE has since loaded the debounce time 0: the model's choice between two sentences of R6 (DESIGN CHOICE, log 47). -/
def Transport.rawEdge (x : Transport) (sn : Sensor) : Transport :=
  let c := x.pos.sensor sn
  let raw := !c.raw
  match c.pending with
  | some p => x.setSensor sn { c with raw, pending := some { p with hold := x.pos.debounce } }
  | none =>
    if raw = c.level then x.setSensor sn { c with raw }
    else
      let y := x.setSensor sn { c with raw, pending := some { latch := x.pos.counter, hold := x.pos.debounce } }
      if sn = .station .mark ∧ raw then y.beginMeasurement x.pos.counter else y

end Sys2Proof.Machine
end

