-- ==== Sys2Proof/Machine/Consequences.lean ====
section
/-! DEFINITION. What follows within the step of an event (95_what_each_step_holds.md): settlements, end tests, pick
conditions, drains, batch closures and the lane writer's look for work, in one fixed order, and then the status block writes
that the step requests (log 10). -/

namespace Sys2Proof.Machine

/-- A transport in DRAINING(PAUSE) enters PAUSED when its track is empty, and the run-off begins (R28, R33). -/
def Transport.pauseDone (x : Transport) : Transport :=
  if x.state = .draining ∧ x.purpose = .pause ∧ x.track = [] then
    ({ x with state := .paused, purpose := .none, coverWait := false } : Transport).beginRunOff
  else x

/-- Every transport is OFF. -/
def State.allOff (s : State) : Bool := allTransports.all fun t => (s.tr t).state == .off

/-- In HALTING with every transport OFF the poll timer stops and the sweep pending flag is cleared (R163). A transport that the
end of an ENABLE's setup read then makes READY (log 12) does not start the timer again: it stays stopped until a changed period
is written, which R163 and R165 leave open (DESIGN CHOICE, log 57). -/
def State.haltQuiet (s : State) : State :=
  if s.room.part = .halting ∧ s.allOff then s.modRoom fun r => { r with pollTimer := none, sweepPending := false } else s

/-- Every transport changed by f. -/
def State.eachTransport (s : State) (f : Transport → Transport) : State :=
  allTransports.foldl (fun s t => s.modTr t f) s

/-- The first part of what follows from an event: settlements (R63), then the end tests (R30). -/
def State.settleStage (s : State) : State := s.settleAll.eachTransport Transport.endTests

/-- The second part: the pick conditions and admission (R35, R36, R122, R123), then drains done (R28). -/
def State.drainStage (s : State) : State := s.pickStage.eachTransport Transport.pauseDone

/-- The third part: batch ends (R104 to R106), the lane writer (R130), the halt (R163). -/
def State.closeStage (s : State) : State := (allTransports.foldl State.endBatch s).lookForWork.haltQuiet

/-- What follows from an event, in order. -/
def State.consequences (s : State) : State := s.settleStage.drainStage.closeStage

/-- A status block write is requested: one begins with the change number risen, or a further one is owed (R171). -/
def State.requestStatus (s : State) (t : TransportNo) : State :=
  s.modRoom fun r =>
    match r.status[t] with
    | .idle => { r with status := r.status.set t.val (.inFlight false) t.isLt,
                        change := r.change.set t.val (r.change[t] + 1) t.isLt }
    | .inFlight _ => { r with status := r.status.set t.val (.inFlight true) t.isLt }

/-- A change that requests a status block write of its own: of the state, the stop reason or the purpose (R48). -/
def Transport.controlChanged (x y : Transport) : Bool :=
  x.state != y.state || x.stopReason != y.stopReason || x.purpose != y.purpose

/-- The changes of a transport's control state along the states that a step goes through (R48, R171). -/
def controlChanges (t : TransportNo) : List State → Nat
  | [] => 0
  | [_] => 0
  | a :: b :: rest => one ((a.tr t).controlChanged (b.tr t)) + controlChanges t (b :: rest)

/-- The status writes that a step requests for a transport: one for each change of its control state on the way, or one for a
change of the pick-wait reason alone, and one that the event itself requests (R48, R171, log 10). -/
def requestsOf (t : TransportNo) (before : State) (path : List State) (forced : List TransportNo) : Nat :=
  let n := controlChanges t (before :: path)
  one (forced.contains t)
    + if n = 0 then one ((before.tr t).pickWait != ((path.getLastD before).tr t).pickWait) else n

/-- n status writes are requested. -/
def State.requestStatuses (s : State) (t : TransportNo) : Nat → State
  | 0 => s
  | n + 1 => (s.requestStatus t).requestStatuses t n

/-- The status writes that a step requests, which went from a state through others to its end (R48, R171, log 10). -/
def State.requestReports (s before : State) (path : List State) (forced : List TransportNo) : State :=
  allTransports.foldl (fun u t => u.requestStatuses t (requestsOf t before path forced)) s

/-- The end of a step that began in a state and went through others to this one: what follows from its event, and the status
writes it requests. -/
def State.finishVia (s before : State) (path : List State) (forced : List TransportNo) : State :=
  let a := s.settleStage
  let b := a.drainStage
  let c := b.closeStage
  c.requestReports before (path ++ [s, a, b, c]) forced

/-- The end of a step whose event went from a state to this one at once. -/
def State.finish (s before : State) (forced : List TransportNo) : State := s.finishVia before [] forced

/-- A sweep begins with its first read (R166). -/
def State.beginSweep (s : State) : State := s.modRoom fun r => { r with sweep := .inFlight 0 }

/-- A sweep is requested: it begins, or the pending flag is set while one is in flight (R165). -/
def State.requestSweep (s : State) : State :=
  match s.room.sweep with
  | .idle => s.beginSweep
  | .inFlight _ => s.modRoom fun r => { r with sweepPending := true }

/-- A sweep is in flight and has not yet gone beyond a place, and nothing it waits for is in flight: neither an answer write
nor the setup read of an ENABLE (R166, R168). -/
def State.sweepReaches (s : State) (place : Nat) : Bool :=
  match s.room.sweep with
  | .idle => false
  | .inFlight p => decide (p ≤ place) && s.room.answer.isNone && s.room.setupRead.isNone

/-- The sweep has made the reads of a place (log 9). -/
def State.sweepPast (s : State) (place : Nat) : State := s.modRoom fun r => { r with sweep := .inFlight (place + 1) }

/-- A read of a sweep fails at a place: EVT.MEMFAULT is set at once, and the sweep goes on (R167). -/
def State.sweepFails (s : State) (place : Nat) : State := (s.setEvent .memfault).sweepPast place

/-- The place of a command block in a sweep (R166). -/
def blockPlace : CommandBlock → Nat
  | .room => 0
  | .control t => 1 + t.val

/-- The answer owed of a command block (R169). -/
def RoomInterface.owedOf (r : RoomInterface) : CommandBlock → Option AnswerWrite
  | .room => r.owedRoom
  | .control t => r.owed[t]

/-- The answer owed of a command block replaced. -/
def RoomInterface.setOwed (r : RoomInterface) (b : CommandBlock) (w : Option AnswerWrite) : RoomInterface :=
  match b with
  | .room => { r with owedRoom := w }
  | .control t => { r with owed := r.owed.set t.val w t.isLt }

/-- The sweep can find a command in a block: it reaches the block, and no answer is owed for it (R168 to R170). -/
def State.takesCommand (s : State) (b : CommandBlock) : Bool := s.sweepReaches (blockPlace b) && (s.room.owedOf b).isNone

/-- A command's answer is given: its write is in flight, with the answer number read from the block plus one (R168, R170). -/
def State.answer (s : State) (b : CommandBlock) (code : Answer) (number : Word) : State :=
  s.modRoom fun r => { r with answer := some { block := b, code, number := number + 1 } }

end Sys2Proof.Machine
end

