-- ==== Sys2Proof/Machine/Path.lean ====
section
/-! DEFINITION. The meanings of the events of the paper path: encoder edges, sensors, expiries and timers of a transport, and
line packets (01, 02, 05, 06). An event whose conditions the state does not meet leaves the state as it is (log 3). -/

namespace Sys2Proof.Machine

/-! ### Encoder -/

/-- The decoder level of a line. -/
def PositionUnit.level (p : PositionUnit) : EncLine → Bool
  | .a => p.levelA
  | .b => p.levelB

/-- The decoder level of a line changed (R1). -/
def PositionUnit.flip (p : PositionUnit) : EncLine → PositionUnit
  | .a => { p with levelA := !p.levelA }
  | .b => { p with levelB := !p.levelB }

/-- An edge of a line is counted in a multiplier mode (01 Table 1-2); rising tells its direction. -/
def countedEdge (m : Multiplier) (line : EncLine) (rising : Bool) : Bool :=
  match m, line with
  | .x1, .a => rising
  | .x1, .b => false
  | .x2, .a => true
  | .x2, .b => false
  | .x4, .a => true
  | .x4, .b => true

/-- The edge of a line that comes next is counted. -/
def PositionUnit.counts (p : PositionUnit) (line : EncLine) : Bool := countedEdge p.multiplier line (!p.level line)

/-- The edge of a line that comes next goes forward: the new pair follows the old one in (0,0), (1,0), (1,1), (0,1) (R1). -/
def PositionUnit.goesForward (p : PositionUnit) (line : EncLine) : Bool :=
  match line with
  | .a => !p.levelA != p.levelB
  | .b => !p.levelB == p.levelA

/-- The armed positions of a station are passed by a forward count from p (R4). -/
def StationTrack.pass (p : Pos) (x : StationTrack) : StationTrack :=
  { x with leadEnd := x.leadEnd.pass p, trailEnd := x.trailEnd.pass p }

/-- The capture window positions of a side are passed. -/
def SideRecord.pass (p : Pos) (x : SideRecord) : SideRecord :=
  { x with windowStart := x.windowStart.pass p, windowEnd := x.windowEnd.pass p }

/-- The positions armed for a record are passed. -/
def SheetRecord.pass (p : Pos) (r : SheetRecord) : SheetRecord :=
  { r with entry := r.entry.pass p, df := r.df.pass p, mark := r.mark.pass p, exit := r.exit.pass p, gap := r.gap.pass p,
           front := r.front.pass p, back := r.back.pass p }

/-- The forward count from p to p + 1 raises the expiry of every position armed at p (R4). -/
def Transport.raiseExpiries (x : Transport) (p : Pos) : Transport :=
  { x with track := x.track.map (·.pass p), runInEnd := x.runInEnd.pass p,
           marks := { x.marks with windowEnd := x.marks.windowEnd.pass p } }

/-- The counter moves by one and restarts a running stall timer (R2, R16). -/
def Transport.moveCounter (x : Transport) (line : EncLine) (forward : Bool) : Transport :=
  { x with pos := { x.pos.flip line with
      counter := if forward then x.pos.counter + 1 else x.pos.counter - 1
      stallTimer := x.pos.stallTimer.map fun _ => x.cfg.stallTime } }

/-- What one counter change does in its own transport: the count, the expiry check and the sample step (R2, R4, R68). -/
def Transport.count (x : Transport) (line : EncLine) (adc : BitVec 10) (forward : Bool) : Transport :=
  if forward then ((x.moveCounter line true).raiseExpiries x.pos.counter).sampleCount adc.toNat else x.moveCounter line false

/-- ENCODER_COUNT: a counted edge of a line, with the amplitude that the ADC shows at it (R2). Of two takes of an unreserved page
that one count brings to both Capture Units, FRONT's is first, which R123 leaves open (DESIGN CHOICE, log 52). -/
def execEncoderCount (t : TransportNo) (line : EncLine) (adc : BitVec 10) (s : State) : Result :=
  let p := (s.tr t).pos
  if p.counts line then
    let f := p.goesForward line
    .next (((s.modTr t (·.count line adc f)).captureCount t .front f).captureCount t .back f)
  else .next s

/-- UNCOUNTED_ENCODER_EDGE: an edge that the mode does not count changes the decoder level alone (R1). -/
def execUncountedEncoderEdge (t : TransportNo) (line : EncLine) (s : State) : Result :=
  if (s.tr t).pos.counts line then .next s
  else .next (s.modTr t fun x => { x with pos := x.pos.flip line })

/-- A record gets LENGTH_UNVERIFIED (R3). -/
def SheetRecord.unverified (r : SheetRecord) : SheetRecord :=
  { r with verdict := { r.verdict with lengthUnverified := true } }

/-- ENCODER_SKIP: A and B change together (R3). -/
def execEncoderSkip (t : TransportNo) (s : State) : Result :=
  .next (s.modTr t fun x =>
    { x with pos := { (x.pos.flip .a).flip .b with skipCount := sat255 x.pos.skipCount },
             track := x.track.map SheetRecord.unverified })

/-! ### Sensors -/

/-- The pending change of a sensor is resolved, and what follows from it (R6). -/
def State.resolveStep (s before : State) (t : TransportNo) (sn : Sensor) : State :=
  (s.resolve t sn).finishVia before (s.resolution t sn).tail.reverse []

/-- SENSOR_RAW_EDGE (R6): with a debounce time of 0 the change is resolved at once, a change that became pending under an
older debounce time with the latch it has (DESIGN CHOICE, log 47). -/
def execSensorRawEdge (t : TransportNo) (sn : Sensor) (s : State) : Result :=
  let s1 := s.modTr t (·.rawEdge sn)
  if (s.tr t).pos.debounce = 0 then .next (s1.resolveStep s t sn) else .next s1

/-- DEBOUNCE_HOLD_EXPIRY (R6). -/
def execDebounceHoldExpiry (t : TransportNo) (sn : Sensor) (s : State) : Result :=
  if ((s.tr t).pos.sensor sn).pending.isSome then .next (s.resolveStep s t sn) else .next s

/-- REFLECTIVE_TRANSITION (R94): the reflective sensor changes its level; a held measurement takes the transition. -/
def execReflectiveTransition (t : TransportNo) (s : State) : Result :=
  .next (s.modTr t fun x =>
    { x with pos := { x.pos with dark := !x.pos.dark }, marks := x.marks.transition (!x.pos.dark) x.pos.counter })

/-! ### Expiries of positions -/

/-- PICK_MISS (R12, R40): held back while a change is pending at ENTRY. -/
def execPickMiss (t : TransportNo) (s : State) : Result :=
  let x := s.tr t
  match x.findRecord fun r => r.life == .picked && r.entry.leadEnd == .raised with
  | some r => if x.isActive && !x.pendingAt .entry then .next ((s.pickMissed t r).finish s []) else .next s
  | none => .next s

/-- LEAD_WINDOW_END_PASSED at DF, MARK or EXIT (R12): held back while a change is pending there. -/
def execLeadWindowEndPassed (t : TransportNo) (st : Station) (s : State) : Result :=
  if st ≠ .entry ∧ ((s.tr t).lateLead st).isSome ∧ (s.tr t).pendingAt st = false then
    .next ((s.takeStop t .jamLate).finish s [])
  else .next s

/-- TRAIL_DEADLINE_PASSED (R13): held back while a change is pending there. -/
def execTrailDeadlinePassed (t : TransportNo) (st : Station) (s : State) : Result :=
  if ((s.tr t).lateTrail st).isSome ∧ (s.tr t).pendingAt st = false then
    .next ((s.takeStop t .trailLate).finish s [])
  else .next s

/-- RUN_IN_DONE (R32, R71). -/
def execRunInDone (t : TransportNo) (s : State) : Result :=
  if (s.tr t).motor = .runIn ∧ (s.tr t).runInEnd = .raised then .next ((s.modTr t (·.finishRunIn)).finish s []) else .next s

/-- GAP_MET (R37). -/
def execGapMet (t : TransportNo) (s : State) : Result :=
  match (s.tr t).findRecord fun r => r.gap == .raised with
  | some r => .next ((s.modTr t fun x => x.modRecord r.id fun q => { q with gap := .met }).finish s [])
  | none => .next s

/-- CAPTURE_WINDOW_START (R109). -/
def execCaptureWindowStart (t : TransportNo) (sd : Side) (s : State) : Result :=
  match (s.tr t).findRecord fun r => (r.side sd).capture == .waiting && (r.side sd).windowStart == .raised with
  | some r => .next ((s.captureStart t sd r.id).finish s [])
  | none => .next s

/-- CAPTURE_WINDOW_END (R110). -/
def execCaptureWindowEnd (t : TransportNo) (sd : Side) (s : State) : Result :=
  match (s.tr t).findRecord fun r => (r.side sd).capture == .capturing && (r.side sd).windowEnd == .raised with
  | some r => .next ((s.captureEnd t sd r.id).finish s [])
  | none => .next s

/-- A change of the MARK sensor to no paper is pending, which holds the mark window end back (R95). -/
def Transport.markHeld (x : Transport) : Bool := x.pos.mark.pending.isSome && x.pos.mark.level

/-- MARK_WINDOW_END (R95). -/
def execMarkWindowEnd (t : TransportNo) (s : State) : Result :=
  if (s.tr t).marks.windowEnd = .raised ∧ (s.tr t).markHeld = false then .next ((s.takeMarkExpiry t).finish s [])
  else .next s

/-! ### Timers -/

/-- STALL_TIMER_EXPIRY (R16): a STALL stop in RUNNING or DRAINING, the end of the run-off in READY or PAUSED. -/
def execStallTimerExpiry (t : TransportNo) (s : State) : Result :=
  let x := s.tr t
  if x.pos.stallTimer.isSome then
    if x.isActive then .next ((s.takeStop t .stall).finish s [])
    else if x.state = .ready ∨ x.state = .paused then .next ((s.modTr t (·.motorOff)).finish s [])
    else .next s
  else .next s

/-- RUN_OFF_TIMER_EXPIRY (R33). -/
def execRunOffTimerExpiry (t : TransportNo) (s : State) : Result :=
  if (s.tr t).motor = .runOff ∧ (s.tr t).runOffTimer.isSome then .next ((s.modTr t (·.motorOff)).finish s []) else .next s

/-- PACKET_WAIT_EXPIRY (R110). -/
def execPacketWaitExpiry (t : TransportNo) (sd : Side) (s : State) : Result :=
  if ((s.tr t).unit sd).packetWait then .next ((s.repairAndComplete t sd).finish s []) else .next s

/-! ### Line packets -/

/-- LINE_PACKET (R111, R112). -/
def execLinePacket (t : TransportNo) (sd : Side) (bytes : List Byte) (s : State) : Result :=
  .next ((s.packet t sd bytes).finish s [])

end Sys2Proof.Machine
end

