-- ==== Sys2Proof/Machine/Room.lean ====
section
/-! DEFINITION. The meanings of power-on, register writes, START, HALT, SOFT_RESET, the sweep and the poll timer, answers and
status blocks (09). -/

namespace Sys2Proof.Machine

/-! ### Resets -/

/-- A station or input sensor after a reset: the debounced level is the raw level, nothing pending (R6). -/
def SensorState.reset (c : SensorState) : SensorState := { raw := c.raw, level := c.raw, pending := none }

/-- A Position Unit after a reset (01 Table 1-1): the lines keep the levels present, everything else is as at power-on. -/
def PositionUnit.reset (p : PositionUnit) : PositionUnit :=
  { levelA := p.levelA, levelB := p.levelB, dark := p.dark, entry := p.entry.reset, df := p.df.reset, mark := p.mark.reset,
    exit := p.exit.reset, trayEmpty := p.trayEmpty.reset, coverOpen := p.coverOpen.reset }

/-- A Position Unit released from power-on with the levels present on its lines (R6, 01 Table 1-1). -/
def positionAt (l : LineLevels) : PositionUnit :=
  { levelA := l.a, levelB := l.b, dark := l.dark, entry := { raw := l.entry, level := l.entry },
    df := { raw := l.df, level := l.df }, mark := { raw := l.mark, level := l.mark },
    exit := { raw := l.exit, level := l.exit }, trayEmpty := { raw := l.trayEmpty, level := l.trayEmpty },
    coverOpen := { raw := l.coverOpen, level := l.coverOpen } }

/-- The hold store after a reset: every page of the DRAM fitted is free, in page order (R119). -/
def HoldStore.reset (h : HoldStore) : HoldStore := { dram := h.dram, free := List.range h.dram.pages }

/-- The byte writes of the answer write in flight. -/
def State.answerInFlight (s : State) : List Host.Cell :=
  match s.room.answer, s.room.table with
  | some w, some k => answerCells k w
  | _, _ => []

/-- The byte writes of the status block write in flight of a transport. -/
def State.statusInFlight (s : State) (t : TransportNo) : List Host.Cell :=
  match s.room.status[t], s.room.table with
  | .inFlight _, some k => statusCells k.status[t] s.room.change[t] (s.tr t)
  | _, _ => []

/-- The byte writes of the outcome or refusal write in flight of a transport. -/
def State.outcomeInFlight (s : State) (t : TransportNo) : List Host.Cell :=
  (s.tr t).batch.outcome.elim [] outcomeCells

/-- The byte writes of the entry in progress. -/
def State.entryInFlight (s : State) : List Host.Cell :=
  match s.writer.turn with
  | some (t, .entry) =>
    match (s.tr t).headPiece with
    | some (e, p) => (s.lane p.lane).bin.elim [] (entryCells t e p)
    | none => []
  | some (_, .binTake) => []
  | some (_, .handBack) => []
  | none => []

/-- The byte writes of the hand-back in flight of a lane. -/
def State.handBackInFlight (s : State) (n : LaneNo) : List Host.Cell :=
  match (s.lane n).handBack, (s.lane n).bin with
  | some h, some b => handBackCells b n (s.lane n).sequence h
  | _, _ => []

/-- Every byte write in flight. -/
def State.writesInFlight (s : State) : List Host.Cell :=
  s.answerInFlight ++ allTransports.flatMap s.statusInFlight ++ allTransports.flatMap s.outcomeInFlight ++ s.entryInFlight
    ++ allLanes.flatMap s.handBackInFlight

/-- The byte writes that reach memory at the k-th reset, of those numbered from i on (R164, log 6). -/
def reaching (k i : Nat) : List Host.Cell → List Host.Cell
  | [] => []
  | c :: rest => if Config.writeReachesAtReset k i then c :: reaching k (i + 1) rest else reaching k (i + 1) rest

/-- The part after a reset that puts the Position Units into the given states (R21, R50, R119, R133, R164): power-on values
but for RBASE and the poll period, which the caller gives. A write in flight may or may not reach memory (log 6). -/
def State.afterReset (s : State) (units : TransportNo → PositionUnit) (rbaseL rbaseH : Word) (period : Nat) : State :=
  { transports := Vector.ofFn fun t => { pos := units t }
    hold := s.hold.reset
    room := { rbaseL, rbaseH, pollPeriod := period }
    hostMem := writeCells (reaching s.freeIndex 0 s.writesInFlight) s.hostMem
    pending := s.pending
    freeIndex := s.freeIndex + 1 }

/-- POWER_ON: the release from power-on with the levels present on each transport's lines (R21, R161, 09 Table 9-1). -/
def execPowerOn (l0 l1 l2 l3 : LineLevels) (s : State) : Result :=
  .next (s.afterReset (fun t => positionAt (#v[l0, l1, l2, l3][t])) 0 0 10)

/-- SOFT_RESET with the poll period field that the write carries (R161, R164). -/
def execSoftReset (period : Byte) (s : State) : Result :=
  .next (s.afterReset (fun t => (s.tr t).pos.reset) s.room.rbaseL s.room.rbaseH period.toNat)

/-! ### Registers -/

/-- RBASE_WRITE: a write to RBASE_H or RBASE_L, taken in HALTED only (R161). -/
def execRbaseWrite (high : Bool) (value : Word) (s : State) : Result :=
  if s.room.part = .halted then .next (s.modRoom fun r => if high then { r with rbaseH := value } else { r with rbaseL := value })
  else .next s

/-- EVTCLR_WRITE: the bits written as one are cleared (R172). -/
def execEvtclrWrite (value : Word) (s : State) : Result :=
  .next (s.modRoom fun r => { r with evt := r.evt &&& ~~~(value.setWidth 16) })

/-- EVTEN_WRITE: bits 15 to 0 become the enables (R173, 09 Table 9-2 note b). -/
def execEvtenWrite (value : Word) (s : State) : Result := .next (s.modRoom fun r => { r with evten := value.setWidth 16 })

/-- The poll timer may run: ACTIVE, or HALTING with a transport not OFF (R163, R165, logs 36 and 57). -/
def State.polls (s : State) : Bool := s.room.part == .active || (s.room.part == .halting && !s.allOff)

/-- A running poll timer's start value: none for a period of 0. -/
def timerAt (period : Nat) : Option Nat := if period = 0 then none else some period

/-- The poll period field of a RUNCTL write (R161, R165): a changed period restarts or stops the timer. -/
def State.writePeriod (s : State) (period : Byte) : State :=
  if period.toNat = s.room.pollPeriod then s
  else s.modRoom fun r =>
    { r with pollPeriod := period.toNat, pollTimer := if s.polls then timerAt period.toNat else r.pollTimer }

/-- REGISTER_WRITE: a write to EVT or EVTACT is ignored. A write to the read-only fields of RUNCTL is ignored for these fields;
its word gives no command (log 34), and, as every write to RUNCTL, it writes the poll period field (R161). -/
def execRegisterWrite (reg : InertRegister) (value : Word) (s : State) : Result :=
  match reg with
  | .evt => .next s
  | .evtact => .next s
  | .runctlReadOnly => .next (s.writePeriod (runctlPeriod value))

/-- POLL_PERIOD_WRITE: a RUNCTL write without a command that acts (R165). -/
def execPollPeriodWrite (period : Byte) (s : State) : Result := .next (s.writePeriod period)

/-- START: latch and check RBASE, or begin the header read (R162). -/
def State.takeStart (s : State) : State :=
  if s.room.part = .halted ∧ s.room.startInFlight = none then
    if s.room.rbase = 0 then s.modRoom fun r => { r with startResult := .range }
    else if multipleOf s.room.rbase 4096 = false then s.modRoom fun r => { r with startResult := .align }
    else s.modRoom fun r => { r with startInFlight := some r.rbase }
  else s

/-- START with the poll period field that the write carries (R161, R162). -/
def execStart (period : Byte) (s : State) : Result := .next (s.writePeriod period).takeStart

/-- The addresses and counts of a header that passes (R162). -/
def Header.table (h : Header) (base : Addr) : RoomTable where
  base := base
  profileCount := h.profileCount
  routeCount := h.routeCount
  profiles := h.profiles
  routes := h.routes
  room := h.room
  setup := h.setup
  control := h.control
  status := h.status

/-- A lane as START loads it (R133). -/
def laneAtStart (head : Addr) (flush : Nat) : Lane :=
  if head = 0 then { state := .unused, flushTime := flush } else { state := .idle, cursor := .at head, flushTime := flush }

/-- A header that passes is loaded and the part is ACTIVE: the addresses, the low mark with its condition worked out afresh,
the lanes, the poll timer, a sweep (R125, R133, R162). -/
def State.loadHeader (s : State) (base : Addr) (h : Header) : State :=
  let s1 := s.modRoom fun r =>
    { r with startInFlight := none, startResult := .ok, part := .active, table := some (h.table base),
             pollTimer := timerAt r.pollPeriod }
  let s2 : State := { s1 with lanes := Vector.ofFn fun n => laneAtStart h.laneHead[n] h.laneFlush[n] }
  ((s2.setHold { s2.hold with lowMark := h.lowMark, below := false }).refreshMark).requestSweep

/-- The end of a START's header read for a base (R162). -/
def State.judgeStart (s : State) (base : Addr) (header : MemRead) : State :=
  match header with
  | .busError => (s.modRoom fun r => { r with startInFlight := none, startResult := .bus }).setEvent .memfault
  | .data bytes =>
    let h := parseHeader bytes
    let v := h.judge s.hold.total
    if v = .ok then (s.loadHeader base h).finish s allTransports
    else s.modRoom fun r => { r with startInFlight := none, startResult := v }

/-- START_HEADER_READ_DONE (R162). -/
def execStartHeaderReadDone (header : MemRead) (s : State) : Result :=
  match s.room.startInFlight with
  | some base => .next (s.judgeStart base header)
  | none => .next s

/-! ### The halt -/

/-- The halt reaches a transport (R46, R47, R157, 02 Table 2-6). -/
def Transport.halted (x : Transport) : Transport :=
  match x.state with
  | .off => x
  | .ready => { ({ x with state := .off, coverWait := false } : Transport).motorOff with
                batch := { x.batch with take := none } }
  | .running => { x with state := .draining, purpose := .halt }
  | .draining =>
    match x.purpose with
    | .pause => { x with purpose := .halt }
    | .endBatch => { x with haltRequest := true }
    | .abort => { x with haltRequest := true }
    | .halt => x
    | .none => x
  | .paused => ({ x with state := .draining, purpose := .halt } : Transport).motorOff.freshEntry
  | .held =>
    match x.purpose with
    | .none => { x with purpose := .halt }
    | .pause => { x with purpose := .halt }
    | .endBatch => { x with haltRequest := true }
    | .abort => { x with haltRequest := true }
    | .halt => x

/-- HALT taken in ACTIVE (R163). -/
def State.takeHalt (s : State) : State :=
  if s.room.part = .active then
    ((s.modRoom fun r => { r with part := .halting }).eachTransport Transport.halted).finish s []
  else s

/-- HALT with the poll period field that the write carries (R161, R163). -/
def execHalt (period : Byte) (s : State) : Result := .next (s.writePeriod period).takeHalt

/-- Nothing that the halt waits for is in flight: sweep, answer write, status writes with further ones owed, bin takes,
hand-backs, lane restarts (R163). -/
def State.quiet (s : State) : Bool :=
  s.room.sweep == .idle && s.room.answer.isNone && (allTransports.all fun t => s.room.status[t] == .idle)
    && allLanes.all fun n => !(s.lane n).binTake && !(s.lane n).restart && (s.lane n).handBack.isNone

/-- PART_HALTED (R163). -/
def execPartHalted (s : State) : Result :=
  if s.room.part = .halting ∧ s.allOff ∧ s.quiet then
    .next ((s.modRoom fun r => { r with part := .halted }).setEvent .halted)
  else .next s

/-! ### Sweeps -/

/-- POLL_TIMER_EXPIRY: a sweep is requested and the timer starts again at the poll period (R165). -/
def execPollTimerExpiry (s : State) : Result :=
  if s.room.pollTimer.isSome then .next (s.requestSweep.modRoom fun r => { r with pollTimer := timerAt r.pollPeriod })
  else .next s

/-- SWEEP_WRITE: a write of any value to SWEEP (R165). -/
def execSweepWrite (_value : Word) (s : State) : Result := if s.polls then .next s.requestSweep else .next s

/-- What step 4 of a sweep comes to for one lane (R135): nothing, a failed read, or a bin found posted. -/
inductive ExamResult where
  | nothing
  | failed
  | posted
  deriving DecidableEq, Repr

/-- The read made for a lane, if any. -/
def readFor (reads : List LaneRead) (n : LaneNo) : Option MemRead := (reads.find? fun r => r.lane == n).map (·.read)

/-- The turn read of a STARVED lane's bin. -/
def examineTurn : Option MemRead → ExamResult
  | none => .nothing
  | some .busError => .failed
  | some (.data bytes) => if turnPosted bytes then .posted else .nothing

/-- The read of the link that a STARVED lane's cursor names, then that of the turn (R135). -/
def examineLink (link turn : Option MemRead) : ExamResult :=
  match link with
  | none => .nothing
  | some .busError => .failed
  | some (.data bytes) => if addrField bytes 0 = 0 then .nothing else examineTurn turn

/-- The reads of a STARVED lane: a cursor AT an address names no link (R135). -/
def examineLane (c : Cursor) (link turn : Option MemRead) : ExamResult :=
  match c with
  | .at _ => examineTurn turn
  | .head => examineLink link turn
  | .after _ => examineLink link turn

/-- Step 4 of a sweep for one lane: every STARVED lane is read, with an operation in flight or without one, and one whose bin is
posted takes it (R135, R166, R167, 07 Table 7-4 note a). Beside a take in flight a posted bin begins no second one; that it begins
none beside a restart in flight either is the model's choice (DESIGN CHOICE, log 50). -/
def State.examine (s : State) (n : LaneNo) (link turn : Option MemRead) : State :=
  if (s.lane n).state = .starved then
    match examineLane (s.lane n).cursor link turn with
    | .nothing => s
    | .failed => s.setEvent .memfault
    | .posted => if (s.lane n).restart then s else s.modLane n fun l => { l with binTake := true }
  else s

/-- The sweep ends: the count rises, and a pending sweep begins (R165). -/
def State.endSweep (s : State) : State :=
  let s1 := s.modRoom fun r => { r with sweep := .idle, sweepCount := r.sweepCount + 1, sweepPending := false }
  if s.room.sweepPending then s1.beginSweep else s1

/-- SWEEP_END, with the reads of step 4, the lanes in order (R135, R165 to R167, log 9). -/
def execSweepEnd (links turns : List LaneRead) (s : State) : Result :=
  if s.sweepReaches 16 then
    .next (allLanes.foldl (fun s n => s.examine n (readFor links n) (readFor turns n)) s).endSweep
  else .next s

/-! ### Answers and status blocks -/

/-- The event that reports an answer (09 Table 9-4). -/
def blockEvent : CommandBlock → Event
  | .room => .room
  | .control t => .transport t

/-- ANSWER_WRITE_DONE (R168 to R170). -/
def execAnswerWriteDone (result : BusWrite) (s : State) : Result :=
  match s.room.answer with
  | none => .next s
  | some w =>
    let s1 := (s.hostWrite result s.answerInFlight).modRoom fun r => { r with answer := none }
    match result with
    | .ok => .next (s1.setEvent (blockEvent w.block))
    | .busError _ => .next ((s1.setEvent .memfault).modRoom fun r => r.setOwed w.block (some w))

/-- A sweep reads the turn of a block with an answer owed (R169). -/
def State.serveOwed (s : State) (b : CommandBlock) (w : AnswerWrite) : MemRead → State
  | .busError => s.setEvent .memfault
  | .data bytes =>
    s.modRoom fun r => if turnPosted bytes then { r.setOwed b none with answer := some w } else r.setOwed b none

/-- OWED_ANSWER_WRITE (R169, R170). -/
def execOwedAnswerWrite (b : CommandBlock) (turn : MemRead) (s : State) : Result :=
  if s.sweepReaches (blockPlace b) then
    match s.room.owedOf b with
    | some w => .next ((s.serveOwed b w turn).sweepPast (blockPlace b))
    | none => .next s
  else .next s

/-- The status block write in flight of a transport ends, and a further one owed begins (R171). -/
def State.statusEnded (s : State) (t : TransportNo) (owed : Bool) : State :=
  let s1 := s.modRoom fun r => { r with status := r.status.set t.val .idle t.isLt }
  if owed then s1.requestStatus t else s1

/-- STATUS_BLOCK_WRITE_DONE (R171). -/
def execStatusBlockWriteDone (t : TransportNo) (result : BusWrite) (s : State) : Result :=
  match s.room.status[t] with
  | .idle => .next s
  | .inFlight owed =>
    .next (((s.hostWrite result (s.statusInFlight t)).setEvent
      (match result with | .ok => .transport t | .busError _ => .memfault)).statusEnded t owed)

end Sys2Proof.Machine
end

