-- ==== Sys2Proof/Machine/Commands.lean ====
section
/-! DEFINITION. The meanings of the transport commands of the control blocks (02 section 2.1, 08, 09 section 9.5) and of the
end of an ENABLE's setup read. Each is taken where a sweep in flight reaches the transport's control block with no answer
owed for it and its reads give the row's command; elsewhere the state stays as it is (log 3, log 9). -/

namespace Sys2Proof.Machine

/-- The reads of a sweep in a control block, by the bytes they gave: a failed read sets EVT.MEMFAULT at once and the sweep goes
on (R167); a block posted with command k is handed on with its answer number; a block that holds anything else is not this
row's event (log 3). -/
def State.readControl (s : State) (t : TransportNo) (block : MemRead) (k : ControlCommand) (act : Word → State → State) :
    Result :=
  if s.takesCommand (.control t) then
    match block with
    | .busError => .next (s.sweepFails (blockPlace (.control t)))
    | .data bytes =>
      if turnPosted bytes ∧ controlCommand bytes = k then
        .next (act (answerNumber bytes) (s.sweepPast (blockPlace (.control t))))
      else .next s
  else .next s

/-- A command found posted in a control block: the sweep is past the block, the Transport Controller gives an answer code and
takes the effects, and the answer write is in flight (R168). -/
def State.command (s : State) (t : TransportNo) (block : MemRead) (k : ControlCommand) (act : State → Answer × State) : Result :=
  s.readControl t block k fun number s1 => let r := act s1; r.2.answer (.control t) r.1 number

/-- A command that is answered BUSY without effect (R22). -/
def State.busy (s : State) : Answer × State := (.busy, s)

/-! ### ENABLE and DISABLE -/

/-- ENABLE (R22, R23): HALTING in a halting part, BUSY unless OFF, else the read of the setup block. -/
def execEnable (t : TransportNo) (block : MemRead) (s : State) : Result :=
  s.readControl t block .enable fun number s1 =>
    if s1.room.part = .halting then s1.answer (.control t) .halting number
    else if (s1.tr t).state = .off then s1.modRoom fun r => { r with setupRead := some (t, number) }
    else s1.answer (.control t) .busy number

/-- A Double-Feed Unit at an ENABLE: R is not changed (R67). -/
def DoubleFeedUnit.enabled (d : DoubleFeedUnit) : DoubleFeedUnit := { reference := d.reference }

/-- A valid setup block is loaded into every block of the transport, which enters READY (R5, R23, R67, R107). -/
def Transport.load (x : Transport) (b : SetupBlock) : Transport :=
  { x with setup := some b.fields, state := .ready, purpose := .none, stopReason := .none, pickWait := .none,
           motor := .standing, pos := { x.pos with multiplier := b.multiplier, debounce := b.debounce },
           dfu := x.dfu.enabled }

/-- What the read of a setup block comes to (R23). -/
def State.judgeSetup (s : State) (t : TransportNo) (setup : MemRead) : Answer × State :=
  match setup with
  | .busError => (.setupBad, s.setEvent .memfault)
  | .data bytes =>
    match parseSetup bytes with
    | none => (.setupBad, s)
    | some b => (.done, (s.modTr t (·.load b)).finish s [])

/-- SETUP_READ_DONE (R23, R168). -/
def execSetupReadDone (t : TransportNo) (setup : MemRead) (s : State) : Result :=
  match s.room.setupRead with
  | some (u, number) =>
    if u = t then
      let r := (s.modRoom fun r => { r with setupRead := none }).judgeSetup t setup
      .next (r.2.answer (.control t) r.1 number)
    else .next s
  | none => .next s

/-- A Capture Unit at DISABLE (06 Table 6-3, R107). -/
def CaptureUnit.disabled (u : CaptureUnit) : CaptureUnit := { trigger := u.trigger, expected := u.trigger }

/-- DISABLE of a READY transport (R24, R67, R89, R97, R107, 02 Table 2-1). -/
def Transport.disabled (x : Transport) : Transport :=
  { x.motorOff with
    state := .off, purpose := .none, haltRequest := false, stopReason := .none, pickWait := .none, coverWait := false,
    runOn := none, retries := 0, runInEnd := .idle, dfu := {}, marks := {}, front := x.front.disabled,
    back := x.back.disabled, batch := { x.batch with take := none } }

/-- DISABLE (R24). -/
def execDisable (t : TransportNo) (block : MemRead) (s : State) : Result :=
  s.command t block .disable fun s1 =>
    if (s1.tr t).state = .ready then (.done, (s1.modTr t (·.disabled)).finish s1 []) else s1.busy

/-! ### PAUSE, RESUME, ABORT -/

/-- PAUSE of a RUNNING transport (R25). -/
def Transport.paused (x : Transport) : Transport :=
  if x.track = [] then ({ x with state := .paused, purpose := .none, coverWait := false } : Transport).beginRunOff
  else { x with state := .draining, purpose := .pause }

/-- PAUSE (R25). -/
def execPause (t : TransportNo) (block : MemRead) (s : State) : Result :=
  s.command t block .pause fun s1 =>
    if (s1.tr t).state = .running then (.done, (s1.modTr t (·.paused)).finish s1 []) else s1.busy

/-- RESUME (R26). -/
def execResume (t : TransportNo) (block : MemRead) (s : State) : Result :=
  s.command t block .resume fun s1 =>
    if (s1.tr t).state = .paused then
      (.done, (s1.modTr t fun x => { x with retries := 0 }.enterRunning).finish s1 [])
    else s1.busy

/-- The path-clear test (R148). -/
def Transport.pathClear (x : Transport) : Bool :=
  !x.pos.entry.level && !x.pos.df.level && !x.pos.mark.level && !x.pos.exit.level && !x.pos.coverOpen.level

/-- The batch counters changed by f. -/
def Transport.modCounters (x : Transport) (f : Counters → Counters) : Transport :=
  { x with batch := { x.batch with counters := f x.batch.counters } }

/-- Withdrawn and suspects held raised (R103, 08 Table 8-2). -/
def Counters.withdraw (c : Counters) (records suspects : Nat) : Counters :=
  { c with withdrawn := sat32 c.withdrawn records, suspectsHeld := sat32 c.suspectsHeld suspects }

/-- Every WITHDRAWN record leaves the track and is counted (R149). -/
def Transport.removeWithdrawn (x : Transport) : Transport :=
  { x.modCounters fun c =>
      c.withdraw (x.track.countP fun r => r.life == .withdrawn) (x.track.countP fun r => r.life == .withdrawn && r.suspect) with
    track := x.track.filter fun r => r.life != .withdrawn }

/-- The PARKED offender of a track (R58). -/
def Transport.offender (x : Transport) : Option SheetRecord := x.findRecord fun r => r.life == .parked

/-- The offender r is discarded and leaves the track, counted withdrawn, refed and held suspect (R151, R156). -/
def Transport.refeed (x : Transport) (r : SheetRecord) : Transport :=
  { (x.endCaptures r.id).modCounters fun c => { c.withdraw 1 1 with refed := sat32 c.refed 1 } with
    track := x.track.filter fun q => q.id != r.id }

/-- The offender r is made DONE with a ruling mark, counted as a held suspect and by its ruling (R150). -/
def Transport.release (x : Transport) (mark : RulingMark) (r : SheetRecord) : Transport :=
  (x.modRecord r.id fun q => { q with life := .done, ruling := mark }).modCounters fun c =>
    { c with suspectsHeld := sat32 c.suspectsHeld 1,
             ruledAccept := sat32 c.ruledAccept (one (mark == .accepted)),
             ruledReview := sat32 c.ruledReview (one (mark == .review)) }

/-- The sides of the offender r are discarded and it is made DONE with the discard mark (R152). -/
def Transport.discardOffender (x : Transport) (r : SheetRecord) : Transport :=
  ((x.endCaptures r.id).modRecord r.id fun q => { q.discardSides with life := .done, discardMark := true }).modCounters
    fun c => { c with suspectsHeld := sat32 c.suspectsHeld 1 }

/-- The offender of a transport, if it has one, is disposed of by f, and the transport goes on by g; what the offender's sides
give up then returns (R124). -/
def State.dispose (s : State) (t : TransportNo) (gives : Bool) (f : Transport → SheetRecord → Transport)
    (g : Transport → Transport) : State :=
  match (s.tr t).offender with
  | none => s.modTr t g
  | some r =>
    let u := s.modTr t fun x => g (f x r)
    if gives then u.returnSides r else u

/-- A transport enters DRAINING from HELD with a purpose: the motor starts when a record is left in its track (R31, R154). -/
def Transport.enterDraining (x : Transport) (purpose : Purpose) : Transport :=
  let y := ({ x with state := .draining, purpose, stopReason := .none } : Transport).freshEntry
  if x.track = [] then y else y.startMotor

/-- ABORT of a HELD transport, the path being clear (R156). -/
def State.abortHeld (s : State) (t : TransportNo) : State :=
  (s.modTr t (·.removeWithdrawn)).dispose t true Transport.refeed fun x =>
    ({ x with haltRequest := x.haltRequest || x.purpose == .halt } : Transport).enterDraining .abort

/-- ABORT (R27, R156). -/
def execAbort (t : TransportNo) (block : MemRead) (s : State) : Result :=
  s.command t block .abort fun s1 =>
    match (s1.tr t).state with
    | .running => (.done, (s1.modTr t fun x => { x with state := .draining, purpose := .abort }).finish s1 [])
    | .paused =>
      (.done, (s1.modTr t fun x =>
        ({ x with state := .draining, purpose := .abort } : Transport).motorOff.freshEntry).finish s1 [])
    | .held => if (s1.tr t).pathClear then (.done, (s1.abortHeld t).finish s1 []) else (.pathNotClear, s1)
    | .off => s1.busy
    | .ready => s1.busy
    | .draining => s1.busy

/-! ### Rulings -/

/-- The rulings that a stop reason takes (08 Table 8-1). -/
def rulingFits (reason : StopReason) (k : Ruling) : Bool := if reason = .suspect then k != .clear else k == .clear

/-- The judgement of a RULE with a known argument (R147). -/
def Transport.judgeRule (x : Transport) (k : Ruling) : Answer :=
  if x.state ≠ .held then .notHeld
  else if !rulingFits x.stopReason k then .wrongRuling
  else if !x.pathClear then .pathNotClear
  else .done

/-- The transport leaves HELD by its held purpose (R154). -/
def Transport.leaveHeld (x : Transport) : Transport :=
  match x.purpose with
  | .none => ({ x with stopReason := .none } : Transport).enterRunning
  | .pause =>
    if x.track = [] then { x with state := .paused, purpose := .none, stopReason := .none } else x.enterDraining .pause
  | .endBatch => x.enterDraining .endBatch
  | .abort => x.enterDraining .abort
  | .halt => x.enterDraining .halt

/-- A taken ruling: WITHDRAWN records leave, the offender is disposed of, the transport leaves HELD (R147, R149 to R154). -/
def State.rule (s : State) (t : TransportNo) (block : MemRead) (k : Ruling) (gives : Bool)
    (f : Transport → SheetRecord → Transport) : Result :=
  s.command t block (.rule k) fun s1 =>
    let a := (s1.tr t).judgeRule k
    if a = .done then (.done, ((s1.modTr t (·.removeWithdrawn)).dispose t gives f (·.leaveHeld)).finish s1 []) else (a, s1)

/-- RULE ACCEPT (R150). -/
def execRuleAccept (t : TransportNo) (block : MemRead) (s : State) : Result :=
  s.rule t block .accept false (·.release .accepted)

/-- RULE REVIEW (R150). -/
def execRuleReview (t : TransportNo) (block : MemRead) (s : State) : Result :=
  s.rule t block .review false (·.release .review)

/-- RULE REFEED (R151). -/
def execRuleRefeed (t : TransportNo) (block : MemRead) (s : State) : Result := s.rule t block .refeed true Transport.refeed

/-- RULE DISCARD (R152). -/
def execRuleDiscard (t : TransportNo) (block : MemRead) (s : State) : Result :=
  s.rule t block .discard true Transport.discardOffender

/-- RULE CLEAR (R153). -/
def execRuleClear (t : TransportNo) (block : MemRead) (s : State) : Result := s.rule t block .clear false fun x _ => x

/-- A command or RULE argument that is not known is answered UNKNOWN (R22, R147). -/
def execUnknownCommand (t : TransportNo) (block : MemRead) (s : State) : Result :=
  s.command t block .unknown fun s1 => (.unknown, s1)

end Sys2Proof.Machine
end

