-- ==== Sys2Proof/Machine/Tickets.lean ====
section
/-! DEFINITION. The meanings of the ticket events: the candidate found at a sweep, the end of a take, the end of an outcome or
refusal write (05 sections 5.1, 5.2, 5.7). -/

namespace Sys2Proof.Machine

/-- What the reads that find a candidate come to (R88): the candidate afterwards, a fault, and the ticket found posted. -/
structure Found where
  candidate : Candidate
  fault : Bool
  posted : Option Addr
  deriving DecidableEq, Repr

/-- The turn of the ticket at an address (R88). -/
def findAt (a : Addr) : MemRead → Found
  | .busError => { candidate := .at a, fault := true, posted := none }
  | .data bytes => { candidate := .at a, fault := false, posted := if turnPosted bytes then some a else none }

/-- A link that names the candidate: followed to the ticket's turn, or kept when it is 0, unread or not a multiple of 64
(R88, R167). -/
def followLink (c : Candidate) (link turn : MemRead) : Found :=
  match link with
  | .busError => { candidate := c, fault := true, posted := none }
  | .data bytes =>
    let a := addrField bytes 0
    if a = 0 then { candidate := c, fault := false, posted := none }
    else if multipleOf a 64 then findAt a turn
    else { candidate := c, fault := true, posted := none }

/-- The reads of R88 for a candidate. -/
def followCandidate (c : Candidate) (link turn : MemRead) : Found :=
  match c with
  | .head => followLink .head link turn
  | .at a => findAt a turn
  | .after f => followLink (.after f) link turn

/-- A take may begin: READY, ACTIVE, the cover closed, no take in flight (R89), and no refusal write in flight (log 35). -/
def State.mayTake (s : State) (t : TransportNo) : Bool :=
  let x := s.tr t
  x.state == .ready && s.room.part == .active && !x.pos.coverOpen.level && x.batch.take.isNone && x.batch.outcome.isNone

/-- The candidate as found, and the take of a posted ticket begun when it may (R88, R89). -/
def State.noteCandidate (s : State) (t : TransportNo) (f : Found) : State :=
  let s1 := s.modTr t fun x =>
    { x with batch := { x.batch with candidate := f.candidate,
                                     take := if s.mayTake t then f.posted else x.batch.take } }
  if f.fault then s1.setEvent .memfault else s1

/-- TICKET_TAKE: step 3 of a sweep for a READY transport (R88, R89, R166). -/
def execTicketTake (t : TransportNo) (link turn : MemRead) (s : State) : Result :=
  if s.sweepReaches (5 + t.val) ∧ s.room.part = .active ∧ (s.tr t).state = .ready then
    .next ((s.noteCandidate t (followCandidate (s.tr t).batch.candidate link turn)).sweepPast (5 + t.val))
  else .next s

/-- What the reads and checks of a take come to (R89 to R92): abandoned by a bus error, refused, or a batch to start. -/
inductive TakeOutcome where
  | abandoned
  | refused (reason : RefusalReason)
  | start (ticket : TicketFields) (main : Profile) (alt : Option Profile) (routes : List RouteEntry) (lane : LaneNo)
  deriving DecidableEq, Repr

/-- The last checks of a take, on the profiles read (05 Table 5-2, orders 4 and 5). -/
def judgeProfiles (k : TicketFields) (main alt : MemRead) (routes : List Byte) (lane : LaneNo) : TakeOutcome :=
  match main with
  | .busError => .abandoned
  | .data m =>
    if k.alt = 255 then
      match parseProfile m with
      | none => .refused .profileBad
      | some p => .start k p none (parseRoutes routes) lane
    else
      match alt with
      | .busError => .abandoned
      | .data a =>
        match parseProfile m, parseProfile a with
        | none, _ => .refused .profileBad
        | some _, none => .refused .altBad
        | some p, some q => .start k p (some q) (parseRoutes routes) lane

/-- The lane check of a take (order 3); unused tells which lanes are UNUSED. -/
def judgeLane (k : TicketFields) (unused : LaneNo → Bool) (main alt : MemRead) (routes : List Byte) : TakeOutcome :=
  if h : k.account < 8 then
    if unused ⟨k.account, h⟩ then .refused .laneRange else judgeProfiles k main alt routes ⟨k.account, h⟩
  else .refused .laneRange

/-- The range checks of a take in the order of 05 Table 5-2 (log 41). -/
def judgeTicket (k : TicketFields) (profileCount routeCount : Nat) (unused : LaneNo → Bool) (main alt route : MemRead) :
    TakeOutcome :=
  if profileCount ≤ k.main ∨ (k.alt ≠ 255 ∧ profileCount ≤ k.alt) then .refused .profileRange
  else if routeCount ≤ k.route then .refused .routeRange
  else
    match route with
    | .busError => .abandoned
    | .data bytes => if 32 < field bytes 0 1 then .refused .routeRange else judgeLane k unused main alt bytes

/-- The end of a take's reads, judged with the counts loaded at START and the lane states (R90). -/
def State.judgeTake (s : State) (ticket main alt route : MemRead) : TakeOutcome :=
  match ticket with
  | .busError => .abandoned
  | .data bytes =>
    judgeTicket (parseTicket bytes) (s.room.table.elim 0 (·.profileCount)) (s.room.table.elim 0 (·.routeCount))
      (fun n => (s.lane n).state == .unused) main alt route

/-- A profile copied with its conversions (R20, R92). -/
def Transport.copyProfile (x : Transport) (p : Profile) : ProfileCopy :=
  { profile := p, cLMax := x.counts p.lMax, cMarkWindow := x.counts p.markWindow }

/-- The Batch Context of a batch that starts (R92, stages 1 to 3). -/
def Transport.newBatch (x : Transport) (a : Addr) (k : TicketFields) (main : Profile) (alt : Option Profile)
    (routes : List RouteEntry) (lane : LaneNo) : BatchContext :=
  { candidate := x.batch.candidate
    batch := some a
    ticket := some { batchId := k.batchId, expected := k.expected, firstDocument := k.firstDocument, accountLane := lane,
                     endOnEmpty := k.endOnEmpty, stopAtCount := k.stopAtCount }
    snapshot := some { main := x.copyProfile main, alt := alt.map x.copyProfile, routes }
    document := k.firstDocument }

/-- The batch starts: stages 1 to 5 of R92 for the transport. -/
def Transport.startBatch (x : Transport) (b : BatchContext) : Transport :=
  ({ x with batch := b, pos := { x.pos with skipCount := 0 }, retries := 0 } : Transport).enterRunning

/-- A ticket is refused: its outcome area and turn are being written (R91). -/
def BatchContext.refuse (b : BatchContext) (a : Addr) (reason : RefusalReason) : BatchContext :=
  { b with take := none, outcome := some { ticket := a, code := .refused, reason, counters := {} } }

/-- The take of the ticket at an address ends (R89 to R92). -/
def State.endTake (s : State) (t : TransportNo) (a : Addr) : TakeOutcome → State
  | .abandoned => (s.modTr t fun x => { x with batch := { x.batch with take := none } }).setEvent .memfault
  | .refused reason => s.modTr t fun x => { x with batch := x.batch.refuse a reason }
  | .start k main alt routes lane =>
    (s.modTr t fun x => x.startBatch (x.newBatch a k main alt routes lane)).finish s []

/-- TICKET_TAKE_DONE (R90 to R92). -/
def execTicketTakeDone (t : TransportNo) (ticket main alt route : MemRead) (s : State) : Result :=
  match (s.tr t).batch.take with
  | none => .next s
  | some a => if (s.tr t).state = .ready then .next (s.endTake t a (s.judgeTake ticket main alt route)) else .next s

/-- A ticket has finished: the candidate is AFTER it (R88); the batch of an outcome is no longer current (R91, R106). -/
def BatchContext.finished (b : BatchContext) (w : OutcomeWrite) : BatchContext :=
  if w.code = .refused then { b with candidate := .after w.ticket, outcome := none }
  else { b with candidate := .after w.ticket, outcome := none, batch := none, closure := .written }

/-- OUTCOME_WRITE_DONE (R91, R106): a status write is requested, and the transport leaves DRAINING (R28, log 13). A refusal write
that ends after PART_HALTED still requests its status write, in HALTED (DESIGN CHOICE, log 35). -/
def execOutcomeWriteDone (t : TransportNo) (result : BusWrite) (s : State) : Result :=
  match (s.tr t).batch.outcome with
  | none => .next s
  | some w =>
    let s1 := (s.hostWrite result (outcomeCells w)).modTr t fun x => { x with batch := x.batch.finished w }
    .next ((match result with | .ok => s1 | .busError _ => s1.setEvent .memfault).finish s [t])

end Sys2Proof.Machine
end

