-- ==== Sys2Proof/Machine/Lanes.lean ====
section
/-! DEFINITION. The meanings of the lane events: the room commands, the end of a restart's read, bin takes, entry writes,
hand-backs and the flush timer (07, 09 section 9.6). -/

namespace Sys2Proof.Machine

/-- A command found posted in the room control block (R170), or a read of it that fails (R167): as for a control block. The
command is handed on with its lane number. -/
def State.roomCommand (s : State) (block : MemRead) (k : RoomCommand) (act : Nat → State → Answer × State) : Result :=
  if s.takesCommand .room then
    match block with
    | .busError => .next (s.sweepFails (blockPlace .room))
    | .data bytes =>
      if turnPosted bytes ∧ Sys2Proof.Machine.roomCommand bytes = k then
        let r := act (laneNumber bytes) (s.sweepPast (blockPlace .room))
        .next (r.2.answer .room r.1 0)
      else .next s
  else .next s

/-- The lane that a room command names: none above 7 or for an UNUSED lane (R141, R144). -/
def State.namedLane (s : State) (n : Nat) : Option LaneNo :=
  if h : n < 8 then if (s.lane ⟨n, h⟩).state = .unused then none else some ⟨n, h⟩ else none

/-- A restart, a bin take or a hand-back of the lane is in flight. -/
def Lane.inFlight (l : Lane) : Bool := l.restart || l.binTake || l.handBack.isSome

/-- LANE_RESTART (R144). -/
def execLaneRestart (block : MemRead) (s : State) : Result :=
  s.roomCommand block .laneRestart fun n s1 =>
    match s1.namedLane n with
    | none => (.badLane, s1)
    | some k =>
      if (s1.lane k).state = .opened ∨ (s1.lane k).inFlight then (.busy, s1)
      else (.done, s1.modLane k fun l => { l with restart := true })

/-- The lane as a restart's read leaves it (R144). -/
def Lane.restarted (l : Lane) (head : Addr) (flush : Nat) : Lane :=
  if head = 0 then { l with restart := false, flushTime := flush, state := .starved, cursor := .head }
  else { l with restart := false, flushTime := flush, state := .idle, cursor := .at head }

/-- A head piece bound for a restarted lane that is partly written or was broken off is written again whole (R129, R144). -/
def Piece.rewind (p : Piece) (n : LaneNo) : Piece :=
  if p.lane = n ∧ (p.partlyWritten || p.interrupted) then { p with progress := 0, firstWritten := false, interrupted := false }
  else p

/-- The progress of the head pieces bound for a lane is reset (R144). -/
def State.rewindPieces (s : State) (n : LaneNo) : State := s.eachTransport fun x => x.modHeadPiece (·.rewind n)

/-- The end of a restart's read (R144). -/
def State.restartEnded (s : State) (n : LaneNo) (record : MemRead) : State :=
  match record with
  | .busError => (s.modLane n fun l => { l with restart := false }).setEvent .memfault
  | .data bytes => (s.modLane n fun l => l.restarted (addrField bytes 0) (field bytes 8 2)).rewindPieces n

/-- LANE_RESTART_READ_DONE (R144). -/
def execLaneRestartReadDone (n : LaneNo) (record : MemRead) (s : State) : Result :=
  if (s.lane n).restart then .next ((s.restartEnded n record).finish s []) else .next s

/-- LANE_CLOSE taken by a lane that is neither FAULTED nor busy (R141): the bin is handed back with PARTIAL, now or after the
entry in progress, the bin's first one too (R131); an empty bin is released; without a bin nothing changes. -/
def State.closeLane (s : State) (n : LaneNo) : State :=
  let l := s.lane n
  match l.bin with
  | none => s
  | some b =>
    if s.entryInProgress n then s.modLane n fun l => { l with closeAsked := true }
    else if 0 < b.count then s.modLane n (·.beginHandBack true)
    else s.modLane n fun l => { l with bin := none, cursor := .at b.addr, state := .idle }

/-- LANE_CLOSE (R141). -/
def execLaneClose (block : MemRead) (s : State) : Result :=
  s.roomCommand block .laneClose fun n s1 =>
    match s1.namedLane n with
    | none => (.badLane, s1)
    | some k =>
      if (s1.lane k).state = .faulted ∨ (s1.lane k).inFlight then (.busy, s1)
      else (.done, (s1.closeLane k).finish s1 [])

/-- A room control block command that is not known is answered UNKNOWN (R170); roomRow says which codes are such. -/
def execRoomUnknownCommand (s : State) : Result :=
  if s.takesCommand .room then .next ((s.sweepPast (blockPlace .room)).answer .room .unknown 0) else .next s

/-- BIN_TAKE_DONE (R134, R135). -/
def execBinTakeDone (n : LaneNo) (link bin : MemRead) (s : State) : Result := .next ((s.binTakeEnded n link bin).finish s [])

/-- ENTRY_WRITE_DONE (R136, R142). -/
def execEntryWriteDone (result : BusWrite) (s : State) : Result := .next ((s.entryDone result).finish s [])

/-- HAND_BACK_DONE (R138, R143). -/
def execHandBackDone (n : LaneNo) (result : BusWrite) (s : State) : Result := .next ((s.handBackEnded n result).finish s [])

/-- The flush timer of a lane runs (R139). -/
def Lane.flushRuns (l : Lane) : Bool := l.flushTimer.isSome && l.state == .opened && l.bin.isSome && l.handBack.isNone

/-- FLUSH_TIMER_EXPIRY: the bin is handed back with PARTIAL (R139). -/
def execFlushTimerExpiry (n : LaneNo) (s : State) : Result :=
  if (s.lane n).flushRuns then .next ((s.modLane n (·.beginHandBack true)).finish s []) else .next s

end Sys2Proof.Machine
end

