-- ==== Sys2Proof/Machine/Dispatch.lean ====
section
/-! DEFINITION. What each command does: one arm per constructor of Instr, each one call of its meaning. -/

namespace Sys2Proof.Machine

/-- The effect of a command on everything but the queue. -/
def exec (i : Instr) (s : State) : Host.Outcome State Fault Refusal :=
  match i with
  | .powerOn l0 l1 l2 l3 => Sys2Proof.Machine.execPowerOn l0 l1 l2 l3 s
  | .encoderCount t line adc => Sys2Proof.Machine.execEncoderCount t line adc s
  | .encoderSkip t => Sys2Proof.Machine.execEncoderSkip t s
  | .sensorRawEdge t sensor => Sys2Proof.Machine.execSensorRawEdge t sensor s
  | .debounceHoldExpiry t sensor => Sys2Proof.Machine.execDebounceHoldExpiry t sensor s
  | .reflectiveTransition t => Sys2Proof.Machine.execReflectiveTransition t s
  | .pickMiss t => Sys2Proof.Machine.execPickMiss t s
  | .leadWindowEndPassed t st => Sys2Proof.Machine.execLeadWindowEndPassed t st s
  | .trailDeadlinePassed t st => Sys2Proof.Machine.execTrailDeadlinePassed t st s
  | .runInDone t => Sys2Proof.Machine.execRunInDone t s
  | .gapMet t => Sys2Proof.Machine.execGapMet t s
  | .captureWindowStart t side => Sys2Proof.Machine.execCaptureWindowStart t side s
  | .captureWindowEnd t side => Sys2Proof.Machine.execCaptureWindowEnd t side s
  | .markWindowEnd t => Sys2Proof.Machine.execMarkWindowEnd t s
  | .stallTimerExpiry t => Sys2Proof.Machine.execStallTimerExpiry t s
  | .runOffTimerExpiry t => Sys2Proof.Machine.execRunOffTimerExpiry t s
  | .packetWaitExpiry t side => Sys2Proof.Machine.execPacketWaitExpiry t side s
  | .flushTimerExpiry lane => Sys2Proof.Machine.execFlushTimerExpiry lane s
  | .pollTimerExpiry => Sys2Proof.Machine.execPollTimerExpiry s
  | .linePacket t side bytes => Sys2Proof.Machine.execLinePacket t side bytes s
  | .rbaseWrite high value => Sys2Proof.Machine.execRbaseWrite high value s
  | .start period => Sys2Proof.Machine.execStart period s
  | .startHeaderReadDone header => Sys2Proof.Machine.execStartHeaderReadDone header s
  | .halt period => Sys2Proof.Machine.execHalt period s
  | .softReset period => Sys2Proof.Machine.execSoftReset period s
  | .pollPeriodWrite period => Sys2Proof.Machine.execPollPeriodWrite period s
  | .sweepWrite value => Sys2Proof.Machine.execSweepWrite value s
  | .evtclrWrite value => Sys2Proof.Machine.execEvtclrWrite value s
  | .evtenWrite value => Sys2Proof.Machine.execEvtenWrite value s
  | .registerWrite reg value => Sys2Proof.Machine.execRegisterWrite reg value s
  | .sweepEnd links turns => Sys2Proof.Machine.execSweepEnd links turns s
  | .enable t block => Sys2Proof.Machine.execEnable t block s
  | .setupReadDone t setup => Sys2Proof.Machine.execSetupReadDone t setup s
  | .disable t block => Sys2Proof.Machine.execDisable t block s
  | .pause t block => Sys2Proof.Machine.execPause t block s
  | .resume t block => Sys2Proof.Machine.execResume t block s
  | .abort t block => Sys2Proof.Machine.execAbort t block s
  | .ruleAccept t block => Sys2Proof.Machine.execRuleAccept t block s
  | .ruleReview t block => Sys2Proof.Machine.execRuleReview t block s
  | .ruleRefeed t block => Sys2Proof.Machine.execRuleRefeed t block s
  | .ruleDiscard t block => Sys2Proof.Machine.execRuleDiscard t block s
  | .ruleClear t block => Sys2Proof.Machine.execRuleClear t block s
  | .unknownCommand t block => Sys2Proof.Machine.execUnknownCommand t block s
  | .laneRestart block => Sys2Proof.Machine.execLaneRestart block s
  | .laneRestartReadDone lane record => Sys2Proof.Machine.execLaneRestartReadDone lane record s
  | .laneClose block => Sys2Proof.Machine.execLaneClose block s
  | .roomUnknownCommand => Sys2Proof.Machine.execRoomUnknownCommand s
  | .owedAnswerWrite block turn => Sys2Proof.Machine.execOwedAnswerWrite block turn s
  | .answerWriteDone result => Sys2Proof.Machine.execAnswerWriteDone result s
  | .ticketTake t link turn => Sys2Proof.Machine.execTicketTake t link turn s
  | .ticketTakeDone t ticket main alt route => Sys2Proof.Machine.execTicketTakeDone t ticket main alt route s
  | .binTakeDone lane link bin => Sys2Proof.Machine.execBinTakeDone lane link bin s
  | .entryWriteDone result => Sys2Proof.Machine.execEntryWriteDone result s
  | .handBackDone lane result => Sys2Proof.Machine.execHandBackDone lane result s
  | .statusBlockWriteDone t result => Sys2Proof.Machine.execStatusBlockWriteDone t result s
  | .partHalted => Sys2Proof.Machine.execPartHalted s
  | .uncountedEncoderEdge t line => Sys2Proof.Machine.execUncountedEncoderEdge t line s
  | .outcomeWriteDone t result => Sys2Proof.Machine.execOutcomeWriteDone t result s

end Sys2Proof.Machine
end

