-- ==== Sys2Proof/Safety.lean ====
section
/-! DEFINITION. What counts as a good state of the part, in the terms the statements use: the invariants that every step
keeps, and the readings of the part's outputs that the statements refer to. -/

namespace Sys2Proof.Machine

/-! ### Control -/

/-- The laws of a Transport Controller's state (02 sections 2.1 to 2.5): a stop reason exactly in HELD, a purpose in DRAINING
and none outside DRAINING and HELD, a pick-wait reason in RUNNING only, the motor STANDING and the clutch released in OFF and
HELD, only a run-off in READY and PAUSED, no run-off in RUNNING and DRAINING, the stall timer running exactly with the motor,
the run-off timer exactly in RUN_OFF. -/
def Transport.ControlLaw (x : Transport) : Prop :=
  (x.stopReason = .none ↔ x.state ≠ .held) ∧
  (x.state = .draining → x.purpose ≠ .none) ∧
  (x.state = .off ∨ x.state = .ready ∨ x.state = .running ∨ x.state = .paused → x.purpose = .none) ∧
  (x.state ≠ .running → x.pickWait = .none) ∧
  (x.state = .off ∨ x.state = .held → x.motor = .standing ∧ x.clutch = false) ∧
  (x.state = .ready ∨ x.state = .paused → x.motor = .standing ∨ x.motor = .runOff) ∧
  (x.state = .running ∨ x.state = .draining → x.motor ≠ .runOff) ∧
  (x.pos.stallTimer.isSome ↔ x.motor ≠ .standing) ∧
  (x.runOffTimer.isSome ↔ x.motor = .runOff)

/-- Every transport obeys the laws of its control state, and the setup read of an ENABLE in flight is for a transport that is
still OFF (R23). -/
def State.ControlLaw (s : State) : Prop :=
  (∀ t, (s.tr t).ControlLaw) ∧ ∀ t n, s.room.setupRead = some (t, n) → (s.tr t).state = .off

/-! ### Bounds -/

/-- The bounds of the collections of a transport: 6 records (R49), 32 elements (R65), 8 pulses (R94), a skip count of at most
255 (R3), and per record 4 segments and 255 further ones (R80). -/
def Transport.Bounded (x : Transport) : Prop :=
  x.track.length ≤ 6 ∧ x.queue.length ≤ 32 ∧ x.marks.pulses.length ≤ 8 ∧ x.pos.skipCount ≤ 255 ∧
  ∀ r ∈ x.track, r.verdict.segments.length ≤ 4 ∧ r.verdict.further ≤ 255

/-- Every transport keeps its bounds. -/
def State.Bounded (s : State) : Prop := ∀ t, (s.tr t).Bounded

/-! ### Pages -/

/-- The pages that the pieces of an element still hold: those of the pieces not yet written (R129). -/
def Element.pages (e : Element) : List Nat :=
  e.pieces.flatMap fun p => if p.written then [] else p.image.elim [] (·.pages)

/-- The pages that a transport's records and pieces hold. -/
def Transport.holding (x : Transport) : List Nat := x.track.flatMap SheetRecord.pages ++ x.queue.flatMap Element.pages

/-- The pages that hold data (R119). -/
def State.holding (s : State) : List Nat := allTransports.flatMap fun t => (s.tr t).holding

/-- A side that takes no image or has lost it holds no page. -/
def SideRecord.empty (x : SideRecord) : Prop := (x.capture = .notTaken ∨ x.capture = .discarded) → x.pages = []

/-- The side of a record for which a unit captures is CAPTURING. -/
def Transport.captureLinked (x : Transport) (sd : Side) : Prop :=
  ∀ id ended, (x.unit sd).activity = .capturing id ended →
    id < x.nextId ∧ ∀ r ∈ x.track, r.id = id → (r.side sd).capture = .capturing

/-- A side that takes no image or has lost it (R55, R59). -/
def SideRecord.imageless (x : SideRecord) : Prop := x.capture = .notTaken ∨ x.capture = .discarded

/-- The laws that tie a transport's pages to its records: the ids of its records are distinct and below the next one, sides
without an image hold no page, a WITHDRAWN record has no image (R59), and a unit captures for a CAPTURING side. -/
def Transport.PageLaw (x : Transport) : Prop :=
  (x.track.map (·.id)).Nodup ∧ (∀ r ∈ x.track, r.id < x.nextId) ∧
  (∀ r ∈ x.track, r.front.empty ∧ r.back.empty ∧ (r.life = .withdrawn → r.front.imageless ∧ r.back.imageless)) ∧
  x.captureLinked .front ∧ x.captureLinked .back

/-- The law of the hold store (R119): every page is on the free list or held once, and the promised pages are on the free
list, so that free, reserved and holding pages add up to P_total. -/
def State.PageLaw (s : State) : Prop :=
  (s.hold.free ++ s.holding).Perm (List.range s.hold.total) ∧ s.hold.reserved ≤ s.hold.free.length ∧
  ∀ t, (s.tr t).PageLaw

/-! ### Counts -/

/-- The records of a track that were counted as picked: those whose ENTRY lead was seen (R39). -/
def Transport.inTrack (x : Transport) : Nat := x.track.countP fun r => r.life != .picked

/-- The law of the counts of a batch (R106, R149): picked equals settled plus withdrawn plus the records counted as picked
that are still in the track, while no count has reached its bound (R103); the ENTRY window is armed for PICKED records only
(R9, R11). The track is empty in OFF, READY and PAUSED (R50); a batch whose closure is asked has an empty track and drains, or
is HELD, for END, ABORT or HALT; an outcome that is not a refusal is being written exactly while the closure is at its
writing; a take is in flight in READY only, and not beside a write (R89, R91, log 35). -/
def Transport.CountLaw (x : Transport) : Prop :=
  (x.batch.counters.picked < 2 ^ 32 - 1 →
    x.batch.counters.picked = x.batch.counters.settled + x.batch.counters.withdrawn + x.inTrack) ∧
  (∀ r ∈ x.track, r.life ≠ .picked → r.entry.leadEnd = .idle) ∧
  (x.state = .off ∨ x.state = .ready ∨ x.state = .paused → x.track = []) ∧
  (x.batch.closure ≠ .notAsked →
    x.track = [] ∧ (x.state = .draining ∨ x.state = .held) ∧ x.purpose ≠ .none ∧ x.purpose ≠ .pause) ∧
  (x.batch.closure = .writing ↔ ∃ w, x.batch.outcome = some w ∧ w.code ≠ .refused) ∧
  (x.batch.take ≠ none → x.state = .ready ∧ x.batch.outcome = none)

/-- Every transport obeys the law of the counts. -/
def State.CountLaw (s : State) : Prop := ∀ t, (s.tr t).CountLaw

/-! ### Frames -/

/-- The Position Unit, but for its stall timer, and the loaded setup of y are those of x. -/
def Transport.KeepsPath (x y : Transport) : Prop :=
  { y.pos with stallTimer := none } = { x.pos with stallTimer := none } ∧ y.setup = x.setup

/-- The Room Interface but for EVT, the status writes with their change numbers, the poll timer and the pending flag. -/
def RoomInterface.core (r : RoomInterface) : RoomInterface :=
  { r with evt := 0, status := .replicate 4 .idle, change := .replicate 4 0, pollTimer := none, sweepPending := false }

/-- What the consequences of an event leave alone: host memory, the queue, the counter of resets, the Room Interface's core,
and every transport's positions, sensors and setup. -/
structure State.Quiet (s u : State) : Prop where
  hostMem : u.hostMem = s.hostMem
  pending : u.pending = s.pending
  freeIndex : u.freeIndex = s.freeIndex
  room : u.room.core = s.room.core
  path : ∀ i, (s.tr i).KeepsPath (u.tr i)

/-- EVT is as it was, or has gained the bit SPACE alone (R125). -/
def State.EventsKept (s u : State) : Prop := u.room.evt = s.room.evt ∨ u.room.evt = s.room.evt ||| 0x2000#16

/-- Everything outside the transports is as it was, but for the hold store and EVT.SPACE. -/
structure State.OutsideKept (s u : State) : Prop where
  lanes : u.lanes = s.lanes
  writer : u.writer = s.writer
  room : { u.room with evt := 0 } = { s.room with evt := 0 }
  events : s.EventsKept u
  hostMem : u.hostMem = s.hostMem
  pending : u.pending = s.pending
  freeIndex : u.freeIndex = s.freeIndex

/-- Nothing but transport t differs. -/
structure State.OnlyTransport (s u : State) (t : TransportNo) : Prop where
  others : ∀ i, i ≠ t → u.tr i = s.tr i
  rest : { u with transports := s.transports } = s

/-- y is x but for what a pick changes: the track, the next id and the clutch (R38). -/
def Transport.OnlyPicked (x y : Transport) : Prop := { y with track := x.track, nextId := x.nextId, clutch := x.clutch } = x

/-- The other transports are as they were, but for picks of those that waited for pages (R123). -/
def State.OthersOnlyPick (s u : State) (t : TransportNo) : Prop :=
  ∀ i, i ≠ t → (s.tr i).OnlyPicked (u.tr i) ∧ (s.hold.waiting = [] → u.tr i = s.tr i)

/-- A record without its armed positions, its gap, its verdict and its sides. -/
def SheetRecord.kernel (r : SheetRecord) : SheetRecord :=
  { r with
    entry := { lead := r.entry.lead, trail := r.entry.trail }
    df := { lead := r.df.lead, trail := r.df.trail }
    mark := { lead := r.mark.lead, trail := r.mark.trail }
    exit := { lead := r.exit.lead, trail := r.exit.trail }
    gap := .unarmed
    verdict := {}
    front := {}
    back := {} }

/-- The cells of host memory that the end of a write by a command may change: those of the write in flight that it ends, or
of every write in flight at a reset. Every other command changes none. -/
def writtenCells (c : Instr) (s : State) : List Host.Cell :=
  match c with
  | .powerOn _ _ _ _ => s.writesInFlight
  | .softReset _ => s.writesInFlight
  | .answerWriteDone _ => s.answerInFlight
  | .statusBlockWriteDone t _ => s.statusInFlight t
  | .outcomeWriteDone t _ => s.outcomeInFlight t
  | .entryWriteDone _ => s.entryInFlight
  | .handBackDone n _ => s.handBackInFlight n
  | _ => []

/-! ### Reading command blocks -/

/-- The bytes of a command block are posted with a command code (R160; 10 Tables 10-7 and 10-8). -/
def Posted (bytes : List Byte) (code : Nat) : Prop := field bytes 0 1 = 1 ∧ field bytes 1 1 = code

/-- The bytes of a control block are posted with a RULE of an argument (10 Table 10-7). -/
def PostedRule (bytes : List Byte) (argument : Nat) : Prop := Posted bytes 6 ∧ field bytes 2 1 = argument

/-! ### Reading the paper path -/

/-- The forward sequence of the level pair (A, B), as its steps from a pair to the next (R1). -/
def forwardSteps : List ((Bool × Bool) × (Bool × Bool)) :=
  [((false, false), (true, false)), ((true, false), (true, true)), ((true, true), (false, true)),
   ((false, true), (false, false))]

/-- Transport t is HELD for a reason after a stop, as R41 leaves it: the purpose it had kept, its motor STANDING, its clutch
released, no run-on, no retry, no measurement, no position armed for a run-in, R kept, and only DONE, PARKED and WITHDRAWN
records in its track. That no motor start is left waiting for the cover is the model's choice (log 15). -/
structure State.HeldAfter (s u : State) (t : TransportNo) (reason : StopReason) : Prop where
  state : (u.tr t).state = .held
  reason : (u.tr t).stopReason = reason
  purpose : (u.tr t).purpose = (s.tr t).purpose
  motor : (u.tr t).motor = .standing ∧ (u.tr t).clutch = false ∧ (u.tr t).pos.stallTimer = none
  waits : (u.tr t).pickWait = .none ∧ (u.tr t).coverWait = false
  runs : (u.tr t).runOn = none ∧ (u.tr t).retries = 0 ∧ (u.tr t).runInEnd = .idle
  units : (u.tr t).marks = {} ∧ (u.tr t).dfu.reference = (s.tr t).dfu.reference
  track : ∀ r ∈ (u.tr t).track, r.life = .done ∨ r.life = .parked ∨ r.life = .withdrawn

/-- Where a transport goes that leaves HELD by its held purpose (R154). -/
def Transport.LeavesHeld (x y : Transport) : Prop :=
  y.stopReason = .none ∧ y.haltRequest = x.haltRequest ∧
  (x.purpose = .none → y.state = .running ∧ y.purpose = .none) ∧
  (x.purpose = .pause → y.track ≠ [] → y.state = .draining ∧ y.purpose = .pause) ∧
  (x.purpose = .pause → y.track = [] → y.state = .paused ∧ y.purpose = .none ∧ y.motor = x.motor) ∧
  (x.purpose = .endBatch ∨ x.purpose = .abort ∨ x.purpose = .halt → y.state = .draining ∧ y.purpose = x.purpose) ∧
  (x.motor = .standing → y.state = .draining → y.track = [] → y.motor = .standing) ∧
  (x.motor = .standing → x.pos.coverOpen.level = false → x.cfg.runInDistance ≠ 0 →
    y.state = .running ∨ (y.state = .draining ∧ y.track ≠ []) → y.motor = .runIn)

/-! ### Reading what the part writes -/

/-- The address of the byte at an offset of a record; it wraps at 2^64 (log 40). -/
def byteAddress (base : Addr) (offset : Nat) : Nat := (base + BitVec.ofNat 64 offset).toNat

/-- The part has last written these bytes from an offset of a record on. -/
def Holds (m : List Host.Cell) (base : Addr) (offset : Nat) (bytes : List Byte) : Prop :=
  ∀ i x, bytes[i]? = some x → readCell (byteAddress base (offset + i)) m = some x

/-- The values that the bytes of a run form stand for, after a literal v (R116): a 0 and a count repeat v, any other byte is
the next literal. -/
def expandRuns (v : Byte) : List Byte → List Byte
  | [] => []
  | [x] => [x]
  | x :: n :: rest => if x = 0 then List.replicate n.toNat v ++ expandRuns v rest else x :: expandRuns x (n :: rest)

end Sys2Proof.Machine
end

