-- ==== Sys2Proof/Certificates/Slice0/Obligations.lean ====
section
/-! DEFINITION. The statements about the model, from the numbered rules of spec/, for the provers. -/

open Sys2Proof Sys2Proof.Machine

/-! ### Steps, resets and invariants -/

/-- One step is exec of the command at the front of the queue on the state with the queue's rest; on an empty queue the part
idles. The idling is the model's choice (log 2). -/
def Obligations.StepTakesFront : Prop :=
  (∀ (c : Instr) (rest : List Instr) (s : State),
    step { s with pending := c :: rest } = exec c { s with pending := rest }) ∧
  ∀ s : State, s.pending = [] → step s = .next s

/-- No command ends the run: each one answers a next state, whose queue and DRAM size are as before. -/
def Obligations.EveryCommandCompletes : Prop :=
  ∀ (c : Instr) (s : State), ∃ u, exec c s = .next u ∧ u.pending = s.pending ∧ u.hold.dram = s.hold.dram

/-- What reset leaves, in every block, and the invariants at reset. Every transport is OFF with the motor STANDING, the clutch
released, the track and the queue empty, every reason NONE, no setup, R 0, the counter 0, mode 4x, its Batch Context without a
ticket, take, batch or count, its Mark Unit without a measurement and its Capture Units IDLE at trigger number 0; the store is
all free (R21, R50, R119); the lanes IDLE with cursor HEAD, the lane writer idle (R133); the part HALTED with every register 0
but the poll period of 10 (09 Tables 9-1 to 9-3). Of RUNCTL the size code of the DRAM is left out, and nothing is said of the
line levels and the sensors: both are the model's choice (log 5). -/
def Obligations.ResetState : Prop :=
  (∀ t, let x := State.reset.tr t
    x.state = .off ∧ x.motor = .standing ∧ x.clutch = false ∧ x.track = [] ∧ x.queue = [] ∧ x.setup = none ∧
    x.purpose = .none ∧ x.stopReason = .none ∧ x.pickWait = .none ∧ x.haltRequest = false ∧ x.coverWait = false ∧
    x.runOn = none ∧ x.retries = 0 ∧ x.runInEnd = .idle ∧ x.runOffTimer = none ∧ x.dfu.reference = 0 ∧ x.dfu.run = .none ∧
    x.dfu.gathering = false ∧ x.pos.counter = 0 ∧ x.pos.multiplier = .x4 ∧ x.pos.skipCount = 0 ∧ x.pos.debounce = 15 ∧
    x.pos.stallTimer = none ∧ x.batch.candidate = .head ∧ x.batch.take = none ∧ x.batch.batch = none ∧
    x.batch.ticket = none ∧ x.batch.counters = {} ∧ x.batch.outcome = none ∧ x.batch.lanesTouched = [] ∧
    x.marks.measurement = .none ∧ x.marks.pulses = [] ∧
    ∀ sd, (x.unit sd).activity = .idle ∧ (x.unit sd).trigger = 0 ∧ (x.unit sd).expected = 0 ∧ (x.unit sd).packetWait = false) ∧
  State.reset.hold.freePages = State.reset.hold.total ∧ State.reset.hold.waiting = [] ∧ State.reset.hold.lowMark = 0 ∧
  State.reset.hold.below = false ∧ State.reset.writer.pointer = none ∧ State.reset.writer.turn = none ∧
  (∀ n, let l := State.reset.lane n
    l.state = .idle ∧ l.cursor = .head ∧ l.bin = none ∧ l.flushTime = 0 ∧ l.sequence = 0 ∧ l.flushTimer = none ∧
    l.restart = false ∧ l.binTake = false ∧ l.handBack = none ∧ l.requests = []) ∧
  State.reset.room.part = .halted ∧ State.reset.interrupt = false ∧ State.reset.room.sweep = .idle ∧
  State.reset.room.sweepPending = false ∧ State.reset.room.table = none ∧
  (∀ r, r ≠ .runctl → State.reset.readRegister r = 0) ∧
  State.reset.readRegister .runctl &&& 0xFFFCFFFF#32 = 0x0A000000#32 ∧
  Memory.wf State.reset.hostMem ∧ State.reset.ControlLaw ∧ State.reset.Bounded ∧ State.reset.PageLaw ∧ State.reset.CountLaw

/-- Every step keeps the list of bytes written in its canonical form. -/
def Obligations.MemoryStaysCanonical : Prop :=
  ∀ s u : State, Memory.wf s.hostMem → step s = .next u → Memory.wf u.hostMem

/-- Every step keeps the laws of the control states: stop reasons only in HELD, purposes only in DRAINING and HELD, the motor
STANDING and the clutch released in OFF and HELD, at most a run-off in READY and PAUSED, the stall timer running exactly with
the motor. -/
def Obligations.ControlLawKept : Prop :=
  ∀ s u : State, s.ControlLaw → step s = .next u → u.ControlLaw

/-- Every step keeps the bounds: 6 records (R49), 32 elements (R65), 8 pulses (R94), 4 segments and 255 further ones (R80), a
skip count of at most 255 (R3). -/
def Obligations.BoundsKept : Prop :=
  ∀ s u : State, s.Bounded → step s = .next u → u.Bounded

/-- Every step keeps the law of the hold store: free, reserved and holding pages are the pages of the store, each once
(R119). -/
def Obligations.PageLawKept : Prop :=
  ∀ s u : State, s.PageLaw → step s = .next u → u.PageLaw

/-- Every step keeps the law of the counts: picked is settled plus withdrawn plus what is still in the track (R106, R149); the
track is empty in OFF, READY and PAUSED (R50); a take is in flight in READY only, and an outcome is being written exactly while
the closure is at its writing (R89, R91, R106). The law's last clause, that no take stands beside the write of an outcome or a
refusal, is the model's choice (log 35). -/
def Obligations.CountLawKept : Prop :=
  ∀ s u : State, s.ControlLaw → s.PageLaw → s.CountLaw → step s = .next u → u.CountLaw

/-- No command changes host memory but at the cells of the write in flight that it ends, or of the writes in flight at a
reset (R164, R175). The cells of an answer write are its code, its number and its turn alone: the model's choice (log 25). -/
def Obligations.MemoryFrame : Prop :=
  ∀ (c : Instr) (s u : State), exec c s = .next u →
    ∀ a, (∀ x ∈ writtenCells c s, x.1 ≠ a) → readCell a u.hostMem = readCell a s.hostMem

/-- What the end of a step leaves alone, whatever states its event went through. Everything that State.Quiet names; in every
transport the units, the measurement, R, the candidate, the take, the ticket, the snapshot and the active profile; the control
state and the motor of a transport that is neither RUNNING nor DRAINING; in every lane the state, cursor, bin, flush time and
sequence number; EVT but for SPACE. What it does: the settlements and the end tests, then the pick stage and the pauses done, then
the batch ends, the lane writer's search and the halt's quiet, which stops the poll timer and clears the pending flag in HALTING
with every transport OFF (R163), then the status writes requested along these states; the order of the stages is the model's (log
10), and so is that of the transports (log 38). It leaves no transport with a head record for which the five conditions of R63
hold. -/
def Obligations.ConsequencesFrame : Prop :=
  ∀ (s before : State) (path : List State) (forced : List TransportNo), let u := s.finishVia before path forced
    s.Quiet u ∧ s.EventsKept u ∧
    (∀ t, let x := s.tr t
      let y := u.tr t
      y.front = x.front ∧ y.back = x.back ∧ y.marks = x.marks ∧ y.dfu.reference = x.dfu.reference ∧ y.dfu.run = x.dfu.run ∧
      y.retries = x.retries ∧ y.runOn = x.runOn ∧ y.batch.candidate = x.batch.candidate ∧ y.batch.take = x.batch.take ∧
      y.batch.ticket = x.batch.ticket ∧ y.batch.snapshot = x.batch.snapshot ∧ y.batch.active = x.batch.active ∧
      (x.state ≠ .running → x.state ≠ .draining →
        y.state = x.state ∧ y.purpose = x.purpose ∧ y.stopReason = x.stopReason ∧ y.motor = x.motor ∧ y.clutch = x.clutch ∧
        y.haltRequest = x.haltRequest ∧ y.coverWait = x.coverWait ∧ y.dfu = x.dfu ∧ y.pickWait = .none)) ∧
    (∀ n, let l := s.lane n
      let m := u.lane n
      m.state = l.state ∧ m.cursor = l.cursor ∧ m.bin = l.bin ∧ m.flushTime = l.flushTime ∧ m.sequence = l.sequence ∧
        m.restart = l.restart) ∧
    let each := fun (f : State → TransportNo → State) (v : State) => f (f (f (f v 0) 1) 2) 3
    let a := each (fun v t => v.setTr t (v.tr t).endTests) s.settleAll
    let b := each (fun v t => v.setTr t (v.tr t).pauseDone) a.pickStage
    let d := (each State.endBatch b).lookForWork
    let quiet := d.room.part = .halting ∧ ∀ t, (d.tr t).state = .off
    let c := d.haltQuiet
    u = c.requestReports before (path ++ [s, a, b, c]) forced ∧
    (quiet → c = d.setRoom { d.room with pollTimer := none, sweepPending := false }) ∧ (¬quiet → c = d) ∧
    ∀ t r rest, (u.tr t).track = r :: rest → ¬(r.life = .done ∧ r.verdict.decided = true ∧ r.markResult ≠ .pending ∧
      (∀ sd, (r.side sd).capture ≠ .waiting ∧ (r.side sd).capture ≠ .capturing) ∧ (u.tr t).queue.length < 32)

/-- The status writes that the end of a step requests (R48, R171, log 10), for a transport whose status write is idle: none where
its state, stop reason, pick-wait reason and purpose are as before; one begun where the pick-wait reason alone changed or the
control state changed once; a further one owed where it changed more than once on the way, or changed in a step that requests one
of its own. -/
def Obligations.ReportsRequested : Prop :=
  ∀ (s before : State) (path : List State) (forced : List TransportNo) (t : TransportNo), s.room.status[t] = .idle →
    let u := s.requestReports before path forced
    let changed := fun p : State × State =>
      (p.1.tr t).state ≠ (p.2.tr t).state ∨ (p.1.tr t).stopReason ≠ (p.2.tr t).stopReason ∨
        (p.1.tr t).purpose ≠ (p.2.tr t).purpose
    let steps := (before :: path).zip path
    let waits := (((path.getLastD before).tr t).pickWait = (before.tr t).pickWait)
    ((∀ p ∈ steps, ¬changed p) → t ∉ forced → waits → u.room.status[t] = .idle ∧ u.room.change[t] = s.room.change[t]) ∧
    ((∀ p ∈ steps, ¬changed p) → t ∉ forced → ¬waits →
      u.room.status[t] = .inFlight false ∧ u.room.change[t] = s.room.change[t] + 1) ∧
    ((∃ a p b, steps = a ++ p :: b ∧ changed p ∧ ∀ q ∈ a ++ b, ¬changed q) → t ∉ forced →
      u.room.status[t] = .inFlight false ∧ u.room.change[t] = s.room.change[t] + 1) ∧
    ((∃ a p b q c, steps = a ++ p :: (b ++ q :: c) ∧ changed p ∧ changed q) ∨ (t ∈ forced ∧ ∃ p ∈ steps, changed p) →
      u.room.status[t] = .inFlight true ∧ u.room.change[t] = s.room.change[t] + 1)

/-- POWER_ON and SOFT_RESET (R21, R50, R119, R133, R161, R164): every block at its power-on values, the Position Units whole; the
soft reset keeps RBASE and the line levels and takes the poll period that its write carries (the model's reading, log 34); the
debounced levels are the raw levels, nothing pending (R6). Which bytes of a write in flight reach memory is free (log 6). -/
def Obligations.Resets : Prop :=
  (∀ (l0 l1 l2 l3 : LineLevels) (s : State), ∃ u, exec (.powerOn l0 l1 l2 l3) s = .next u ∧
    (∀ t, let l := #v[l0, l1, l2, l3][t]
      let p : PositionUnit :=
        { levelA := l.a, levelB := l.b, dark := l.dark, entry := { raw := l.entry, level := l.entry },
          df := { raw := l.df, level := l.df }, mark := { raw := l.mark, level := l.mark },
          exit := { raw := l.exit, level := l.exit }, trayEmpty := { raw := l.trayEmpty, level := l.trayEmpty },
          coverOpen := { raw := l.coverOpen, level := l.coverOpen } }
      u.tr t = { pos := p }) ∧
    u.hold = { dram := s.hold.dram, free := List.range s.hold.total } ∧ (∀ n, u.lane n = {}) ∧ u.writer = {} ∧
    u.room = {} ∧ u.interrupt = false) ∧
  ∀ (p : Byte) (s : State), ∃ u, exec (.softReset p) s = .next u ∧
    (∀ t, let q := (s.tr t).pos
      let kept := fun c : SensorState => { raw := c.raw, level := c.raw, pending := none : SensorState }
      u.tr t = { pos := {
        levelA := q.levelA, levelB := q.levelB, dark := q.dark, entry := kept q.entry, df := kept q.df, mark := kept q.mark,
        exit := kept q.exit, trayEmpty := kept q.trayEmpty, coverOpen := kept q.coverOpen, multiplier := .x4, counter := 0,
        skipCount := 0, debounce := 15, stallTimer := none } }) ∧
    u.hold = { dram := s.hold.dram, free := List.range s.hold.total } ∧ (∀ n, u.lane n = {}) ∧ u.writer = {} ∧
    u.room = { rbaseL := s.room.rbaseL, rbaseH := s.room.rbaseH, pollPeriod := p.toNat } ∧ u.interrupt = false

/-! ### The encoder -/

/-- The decoder (R1, 01 Table 1-2): which edges each mode counts, the direction by the forward sequence of the level pair, one
count for each counted edge, and an edge that is not counted changes the decoder levels and nothing else. -/
def Obligations.EncoderEdges : Prop :=
  ∀ (s : State) (t : TransportNo) (line : EncLine) (adc : BitVec 10),
    let p := (s.tr t).pos
    let old := (p.levelA, p.levelB)
    let new := match line with | .a => (!p.levelA, p.levelB) | .b => (p.levelA, !p.levelB)
    let counted := match p.multiplier with | .x1 => line = .a ∧ p.levelA = false | .x2 => line = .a | .x4 => True
    (counted → ∃ u, exec (.encoderCount t line adc) s = .next u ∧
      ((u.tr t).pos.levelA, (u.tr t).pos.levelB) = new ∧
      ((old, new) ∈ forwardSteps → (u.tr t).pos.counter = p.counter + 1) ∧
      ((new, old) ∈ forwardSteps → (u.tr t).pos.counter = p.counter - 1)) ∧
    (¬counted → exec (.uncountedEncoderEdge t line) s =
      .next (s.setTr t { s.tr t with pos := { p with levelA := new.1, levelB := new.2 } }))

/-- What a counted edge leaves alone: the other transports; the lanes, the writer, the registers, host memory; in its own
transport everything of the control state, the setup, the sensors, the batch, the queue, R, and of each record all but its armed
positions and gap, its verdict and its sides: its latches, marks and results stay. That the clutch stays too on the count that
passes an ENTRY window end, where R38 releases it, is the model's choice: the expiry is held as raised until its row takes it (log
4), and the clutch is released with that taking, also where a change pending at ENTRY holds it back (log 44). A running stall
timer starts again (R16). An encoder skip (R3) takes the new levels, keeps the counter and the stall timer, raises the skip count
up to 255, and gives every record of the track LENGTH_UNVERIFIED; nothing else changes. -/
def Obligations.EncoderCountFrame : Prop :=
  (∀ (s u : State) (t : TransportNo) (line : EncLine) (adc : BitVec 10), exec (.encoderCount t line adc) s = .next u →
    (∀ i, i ≠ t → u.tr i = s.tr i) ∧ s.OutsideKept u ∧
    let x := s.tr t
    let y := u.tr t
    y.state = x.state ∧ y.purpose = x.purpose ∧ y.haltRequest = x.haltRequest ∧ y.stopReason = x.stopReason ∧
    y.pickWait = x.pickWait ∧ y.motor = x.motor ∧ y.coverWait = x.coverWait ∧ y.clutch = x.clutch ∧ y.runOn = x.runOn ∧
    y.retries = x.retries ∧ y.runOffTimer = x.runOffTimer ∧ y.nextId = x.nextId ∧ y.batch = x.batch ∧ y.queue = x.queue ∧
    y.setup = x.setup ∧ y.dfu.reference = x.dfu.reference ∧ (∀ sn, y.pos.sensor sn = x.pos.sensor sn) ∧
    y.pos.multiplier = x.pos.multiplier ∧ y.pos.skipCount = x.pos.skipCount ∧
    (x.pos.counts line → y.pos.stallTimer = x.pos.stallTimer.map fun _ => x.cfg.stallTime) ∧
    y.track.map SheetRecord.kernel = x.track.map SheetRecord.kernel) ∧
  ∀ (s : State) (t : TransportNo), exec (.encoderSkip t) s = .next (s.setTr t { s.tr t with
    pos := { (s.tr t).pos with levelA := !(s.tr t).pos.levelA, levelB := !(s.tr t).pos.levelB,
                               skipCount := min 255 ((s.tr t).pos.skipCount + 1) }
    track := (s.tr t).track.map fun r => { r with verdict := { r.verdict with lengthUnverified := true } } })

/-- Passing (R4, R37): the forward count from p raises every expiry armed at p and no other, the gap position among them; a
reverse count raises none and arms none again. -/
def Obligations.PassingRaisesExpiries : Prop :=
  ∀ (s : State) (t : TransportNo) (line : EncLine) (adc : BitVec 10),
    (s.tr t).PageLaw → (s.tr t).pos.counts line →
    ∃ u, exec (.encoderCount t line adc) s = .next u ∧
      let c := (s.tr t).pos.counter
      let forward := (s.tr t).pos.goesForward line
      let after := fun (a : Armed) =>
        if forward then (match a with | .at q => if q = c then Armed.raised else .at q | b => b) else a
      (u.tr t).runInEnd = after (s.tr t).runInEnd ∧ (u.tr t).marks.windowEnd = after (s.tr t).marks.windowEnd ∧
      ∀ r ∈ (s.tr t).track, ∃ q ∈ (u.tr t).track, q.id = r.id ∧
        (∀ st, (q.at st).leadEnd = after (r.at st).leadEnd ∧ (q.at st).trailEnd = after (r.at st).trailEnd) ∧
        (q.gap = if forward then (match r.gap with | .at p => if p = c then Gap.raised else .at p | g => g) else r.gap) ∧
        ∀ sd, (q.side sd).windowStart = after (r.side sd).windowStart ∧ (q.side sd).windowEnd = after (r.side sd).windowEnd

/-- The sample step and where a sample goes (R68 to R71, R76; 04 Table 4-4). With a setup loaded, a forward count takes a sample
on every D-th count alone; on the others, and on a reverse count, the unit stays as it is. A sample goes nowhere outside RUNNING
and DRAINING or with the motor STANDING or in RUN_OFF; in RUN_IN to the run-in accumulator unless paper is at DF; in DRIVING
without paper at DF to the gap accumulator, or off by a change pending at DF, or off and counted down by the trail exclusion
(where both apply the pending change counts first: the model's choice, log 16); in DRIVING with paper at DF to the run of the
record there: below E_in a run opens at the position after the count, above E_out the open run ends and is recorded. -/
def Obligations.SampleStep : Prop :=
  ∀ (s u : State) (t : TransportNo) (line : EncLine) (adc : BitVec 10) (c : Setup),
    (s.tr t).setup = some c → (s.tr t).pos.counts line → exec (.encoderCount t line adc) s = .next u →
    let x := s.tr t
    let d := x.dfu
    let e := (u.tr t).dfu
    let q := x.pos.counter + 1
    let zero := { d with step := 0 }
    let add := fun m : Accumulator => if m.count < 65535 then { sum := m.sum + adc.toNat, count := m.count + 1 } else m
    let kept := (u.tr t).track.map (·.verdict) = x.track.map (·.verdict)
    let inMotion := x.state = .running ∨ x.state = .draining
    let atDF := x.track.find? fun r => r.life != .withdrawn && r.df.lead.isSome && r.df.trail.isNone
    (x.pos.goesForward line = false → e = d ∧ kept) ∧
    (x.pos.goesForward line = true → d.step + 1 < c.sampleDistance → e = { d with step := d.step + 1 } ∧ kept) ∧
    (x.pos.goesForward line = true → c.sampleDistance ≤ d.step + 1 →
      (¬inMotion ∨ x.motor = .standing ∨ x.motor = .runOff → e = zero ∧ kept) ∧
      (inMotion → x.motor = .runIn →
        kept ∧ e = if x.pos.df.level then zero else { zero with runIn := add d.runIn }) ∧
      (inMotion → x.motor = .driving → x.pos.df.level = false → kept ∧ e =
        if x.pos.df.pending.isSome then zero
        else if 0 < d.trailExclusion then { zero with trailExclusion := d.trailExclusion - 1 }
        else { zero with gap := add d.gap }) ∧
      (inMotion → x.motor = .driving → x.pos.df.level = true →
        (atDF = none → e = zero ∧ kept) ∧
        ∀ r, atDF = some r →
          (r.verdict.ampUnavailable = true ∨ d.run = .none → e = zero ∧ kept) ∧
          ∀ eIn eOut, r.verdict.ampUnavailable = false → r.verdict.thresholds = some (eIn, eOut) →
            (d.run = .outside → kept ∧ e = { zero with run := if adc.toNat < eIn then .inside q else .outside }) ∧
            ∀ p, d.run = .inside p →
              (adc.toNat ≤ eOut → e = zero ∧ kept) ∧
              (eOut < adc.toNat → e = { zero with run := .outside } ∧
                ∃ r' ∈ (u.tr t).track, r'.id = r.id ∧ r'.verdict = (r.endRun x p q).verdict)))

/-! ### Sensors and edges -/

/-- A raw edge (R6) with a debounce time above 0: it makes a change pending with the counter as its latch, restarts the hold
of a pending change with the latch kept, or only moves the raw level back. A MARK change to paper also begins a measurement
in RUNNING and DRAINING (R93). -/
def Obligations.RawEdgePends : Prop :=
  ∀ (s : State) (t : TransportNo) (sn : Sensor), (s.tr t).pos.debounce ≠ 0 →
    let x := s.tr t
    let c := x.pos.sensor sn
    let put := fun c' : SensorState => { x with pos := x.pos.setSensor sn c' }
    let pending : SensorState := { c with raw := !c.raw, pending := some { latch := x.pos.counter, hold := x.pos.debounce } }
    (∀ p, c.pending = some p → exec (.sensorRawEdge t sn) s =
      .next (s.setTr t (put { c with raw := !c.raw, pending := some { p with hold := x.pos.debounce } }))) ∧
    (c.pending = none → (!c.raw) = c.level →
      exec (.sensorRawEdge t sn) s = .next (s.setTr t (put { c with raw := !c.raw }))) ∧
    (c.pending = none → (!c.raw) ≠ c.level → (sn ≠ .station .mark ∨ c.raw ∨ ¬x.isActive ∨ x.marks.measurement ≠ .none) →
      exec (.sensorRawEdge t sn) s = .next (s.setTr t (put pending))) ∧
    (c.pending = none → (!c.raw) ≠ c.level → sn = .station .mark → c.raw = false → x.isActive → x.marks.measurement = .none →
      exec (.sensorRawEdge t sn) s = .next (s.setTr t { put pending with
        marks := { measurement := .provisional, lead := some x.pos.counter,
                   pulses := if x.pos.dark then [{ start := x.pos.counter, stop := none }] else [] } }))

/-- A hold timer that runs out (R6, R7) leaves the debounced level at the raw level with nothing pending, whatever follows, and
every other sensor, the counter and the setups as they were; with a debounce time of 0 every raw edge does so at once. A change
accepted at a station is delivered with the latch of its first raw edge, and a glitch is delivered nowhere (at MARK it drops a
PROVISIONAL measurement, R97); what follows is the end of the step, and before it the expiries that the change held back are
taken, while the transport is still RUNNING or DRAINING: the mark window end (R95), the trail deadline, a TRAIL_LATE stop (R13),
the lead window end, a pick miss at ENTRY and a JAM_LATE stop elsewhere (R12); their order is the model's (log 18). An accepted
tray change acts by its level alone (R18). An accepted cover opening is a COVER stop in RUNNING and DRAINING and commands the
motor off in READY and PAUSED; a closing starts the motor where a start waits for it (R17, R31). That a stop drops a waiting start
is the model's choice (log 15), and so is that a waiting start is made in a drain with an empty track too (log 51). -/
def Obligations.HoldTimerAccepts : Prop :=
  ∀ (s : State) (t : TransportNo) (sn : Sensor),
    let x := s.tr t
    let c := x.pos.sensor sn
    let resolved := fun (u : State) (raw : Bool) => (u.tr t).pos.sensor sn = { raw, level := raw, pending := none } ∧
      (∀ sm, sm ≠ sn → (u.tr t).pos.sensor sm = x.pos.sensor sm) ∧ (u.tr t).pos.counter = x.pos.counter ∧
      (∀ i, (u.tr i).setup = (s.tr i).setup) ∧ u.hostMem = s.hostMem
    let put := fun (raw : Bool) (m : MarkUnit) =>
      s.setTr t { x with pos := x.pos.setSensor sn { raw, level := raw, pending := none }, marks := m }
    let taken := fun raw : Bool => put raw x.marks
    let free := fun (a : State) (st : Station) => ¬(a.tr t).isActive ∨ ((a.tr t).marks.windowEnd ≠ .raised ∧
      ∀ r ∈ (a.tr t).track, (r.at st).leadEnd ≠ .raised ∧ (r.at st).trailEnd ≠ .raised)
    let accepts := fun a : State => exec (.debounceHoldExpiry t sn) s = .next (a.finish s [])
    let late := fun (v : State) (P : SheetRecord → Prop) => (v.tr t).isActive ∧ ∃ r ∈ (v.tr t).track, r.life ≠ .withdrawn ∧ P r
    let resolves := fun (s1 : State) (outcome : Result) => ∀ st, sn = .station st →
      let x1 := s1.tr t
      let c1 := x1.pos.sensor sn
      let settled := fun m : MarkUnit =>
        s1.setTr t { x1 with pos := x1.pos.setSensor sn { raw := c1.raw, level := c1.raw, pending := none }, marks := m }
      ∃ a m q l : State, outcome = .next (l.finishVia s [a, m, q] []) ∧
        (c1.pending = none → a = s1) ∧
        (∀ p, c1.pending = some p →
          (c1.raw ≠ c1.level → a = (settled x1.marks).stationChange t st c1.raw p.latch) ∧
          (c1.raw = c1.level → a = settled (if st = .mark ∧ x1.marks.measurement = .provisional then {} else x1.marks))) ∧
        (let due := (a.tr t).isActive ∧ st = .mark ∧ (a.tr t).marks.windowEnd = .raised;
          (due → m = a.setTr t (a.tr t).markWindowExpired) ∧ (¬due → m = a)) ∧
        (let due := late m fun r => (r.at st).trailEnd = .raised;
          (due → q = m.takeStop t .trailLate ∧ m.HeldAfter q t .trailLate) ∧ (¬due → q = m)) ∧
        (let due := late q fun r => (r.at st).leadEnd = .raised;
          (due → st ≠ .entry → l = q.takeStop t .jamLate ∧ q.HeldAfter l t .jamLate) ∧
          (due → st = .entry → ∃ ahead r behind, (q.tr t).track = ahead ++ r :: behind ∧ r.life ≠ .withdrawn ∧
            r.entry.leadEnd = .raised ∧ (∀ o ∈ ahead, o.life = .withdrawn ∨ o.entry.leadEnd ≠ .raised) ∧
            l = q.pickMissed t r) ∧
          (¬due → l = q))
    (c.pending.isSome → resolves s (exec (.debounceHoldExpiry t sn) s)) ∧
    (x.pos.debounce = 0 → resolves (s.setTr t (x.rawEdge sn)) (exec (.sensorRawEdge t sn) s)) ∧
    (c.pending.isSome → ∃ u, exec (.debounceHoldExpiry t sn) s = .next u ∧ resolved u c.raw) ∧
    (x.pos.debounce = 0 → ∃ u, exec (.sensorRawEdge t sn) s = .next u ∧ resolved u (!c.raw)) ∧
    (∀ st, sn = .station st → st ≠ .mark → c.pending = none → (!c.raw) ≠ c.level → x.pos.debounce = 0 →
      let a := (taken (!c.raw)).stationChange t st (!c.raw) x.pos.counter
      free a st → exec (.sensorRawEdge t sn) s = .next (a.finish s [])) ∧
    ∀ p, c.pending = some p →
      (∀ st, sn = .station st → c.raw ≠ c.level →
        let a := (taken c.raw).stationChange t st c.raw p.latch
        free a st → accepts a) ∧
      (∀ st, sn = .station st → c.raw = c.level → free s st →
        (st ≠ .mark ∨ x.marks.measurement ≠ .provisional → accepts (taken c.raw)) ∧
        (st = .mark → x.marks.measurement = .provisional → accepts (put c.raw {}))) ∧
      (sn = .trayEmpty ∨ (sn = .coverOpen ∧ c.raw = c.level) → accepts (taken c.raw)) ∧
      (sn = .coverOpen → c.raw ≠ c.level → c.raw = true →
        (x.isActive → ∃ v, accepts v ∧ s.HeldAfter v t .cover) ∧
        (x.state = .ready ∨ x.state = .paused → ∃ v, accepts v ∧ s.OnlyTransport v t ∧ (v.tr t).motor = .standing ∧
          (v.tr t).clutch = false ∧ (v.tr t).runOffTimer = none ∧ (v.tr t).pos.stallTimer = none ∧
          (v.tr t).state = x.state ∧ (v.tr t).stopReason = x.stopReason ∧ (v.tr t).batch = x.batch) ∧
        (x.state = .off ∨ x.state = .held → accepts (taken true))) ∧
      (sn = .coverOpen → c.raw ≠ c.level → c.raw = false →
        (¬x.isActive ∨ x.coverWait = false → accepts (taken false)) ∧
        (x.isActive → x.coverWait = true → x.motor = .standing → ∃ v, accepts v ∧ s.OnlyTransport v t ∧
          (v.tr t).coverWait = false ∧ (v.tr t).state = x.state ∧ (v.tr t).pos.stallTimer = some x.cfg.stallTime ∧
          (x.cfg.runInDistance = 0 → (v.tr t).motor = .driving) ∧
          (x.cfg.runInDistance ≠ 0 → (v.tr t).motor = .runIn ∧
            (v.tr t).runInEnd = .at (x.pos.counter + BitVec.ofNat 32 x.cfg.runInDistance))))

/-- A reflective transition (R94): the level changes; with a measurement held a dark one begins a pulse at the counter's value,
or sets the overflow when 8 are stored, and a light one ends the newest pulse that has no end. -/
def Obligations.ReflectivePulses : Prop :=
  ∀ (s : State) (t : TransportNo), let x := s.tr t
    let q := x.pos.counter
    let put := fun m : MarkUnit => s.setTr t { x with pos := { x.pos with dark := !x.pos.dark }, marks := m }
    (x.marks.measurement = .none → exec (.reflectiveTransition t) s = .next (put x.marks)) ∧
    (x.marks.measurement ≠ .none → x.pos.dark = false → x.marks.pulses.length < 8 → exec (.reflectiveTransition t) s =
      .next (put { x.marks with pulses := x.marks.pulses ++ [{ start := q, stop := none }] })) ∧
    (x.marks.measurement ≠ .none → x.pos.dark = false → 8 ≤ x.marks.pulses.length →
      exec (.reflectiveTransition t) s = .next (put { x.marks with overflow := true })) ∧
    (∀ ps p, x.marks.measurement ≠ .none → x.pos.dark = true → x.marks.pulses = ps ++ [p] → p.stop = none →
      exec (.reflectiveTransition t) s = .next (put { x.marks with pulses := ps ++ [{ p with stop := some q }] })) ∧
    (∀ ps p, x.marks.measurement ≠ .none → x.pos.dark = true → x.marks.pulses = ps ++ [p] → p.stop ≠ none →
      exec (.reflectiveTransition t) s = .next (put x.marks)) ∧
    (x.marks.measurement ≠ .none → x.pos.dark = true → x.marks.pulses = [] →
      exec (.reflectiveTransition t) s = .next (put x.marks))

/-- An ENTRY lead edge (R9, R39, R56): in the window of the oldest PICKED record it makes the record IN_PATH with the next sheet
number, arms the three later windows and the trail deadline, counts the sheet, and releases the clutch; outside the window, or
without a PICKED record, it is a JAM_EARLY stop. That the sheet number is the picked count with its bound is the model's choice
(log 21), and so is the waiting motor start that HeldAfter says a stop drops (log 15). So is that a PICKED record which a ruling's
own step picked, with run-in distance 0, takes the lead of a change that was pending at that ruling (log 56). -/
def Obligations.EntryLeadEdge : Prop :=
  ∀ (s : State) (t : TransportNo) (latch : Pos), (s.tr t).isActive →
    let x := s.tr t
    let u := s.stationChange t .entry true latch
    (∀ r, x.track.find? (fun r => r.life == .picked) = some r → fwd r.pickPos latch ≤ fwd r.pickPos
        (r.pickPos + BitVec.ofNat 32 x.cfg.pickWindow) →
      (∀ i, i ≠ t → u.tr i = s.tr i) ∧ s.OutsideKept u ∧ u.hold = s.hold ∧
      (u.tr t).clutch = false ∧ (u.tr t).retries = 0 ∧ (u.tr t).state = x.state ∧ (u.tr t).motor = x.motor ∧
      (u.tr t).batch.counters = { x.batch.counters with picked := min (2 ^ 32 - 1) (x.batch.counters.picked + 1) } ∧
      (u.tr t).track = x.track.map fun q => if q.id = r.id then
        { q with
          life := .inPath
          sheet := some (BitVec.ofNat 32 (min (2 ^ 32 - 1) (x.batch.counters.picked + 1)))
          entry := { q.entry with lead := some latch, leadEnd := .idle,
                                  trailEnd := .at (latch + BitVec.ofNat 32 (x.copyOf q.selector).cLMax) }
          df := { q.df with leadEnd := .at (latch + BitVec.ofNat 32 x.cfg.dDF + BitVec.ofNat 32 x.cfg.tolerance) }
          mark := { q.mark with leadEnd := .at (latch + BitVec.ofNat 32 x.cfg.dMK + BitVec.ofNat 32 x.cfg.tolerance) }
          exit := { q.exit with leadEnd := .at (latch + BitVec.ofNat 32 x.cfg.dEX + BitVec.ofNat 32 x.cfg.tolerance) } }
        else q) ∧
    (∀ r, x.track.find? (fun r => r.life == .picked) = some r → fwd r.pickPos
        (r.pickPos + BitVec.ofNat 32 x.cfg.pickWindow) < fwd r.pickPos latch → s.HeldAfter u t .jamEarly) ∧
    (x.track.find? (fun r => r.life == .picked) = none → s.HeldAfter u t .jamEarly)

/-- Edges at the stations in RUNNING and DRAINING (R10, R11, R13, R14, R37, R43, R72, R74, R75, R77, R83, R108). A lead at DF,
MARK or EXIT without a record or outside its window is a JAM_EARLY stop, a trail without a record too, and a trail whose deadline
was passed before its latch a TRAIL_LATE stop. An ENTRY trail gives its record the latch and arms the gap after it, met at once
for a gap distance of 0 or a position already passed. A DF lead gives the latch, the trail deadline, the gap update of R, the
thresholds or AMP_UNAVAILABLE, an open run state, and arms the window starts of the sides that wait; a position already passed
begins the capture at once. A DF trail gives the latch, the verdict, the SUSPECT mark and the run-on of a HOLD action, two samples
of exclusion, and arms the window ends of the sides taken. That a stop drops a waiting motor start, as HeldAfter says, is the
model's choice (log 15), and so is that a lead outside its window whose end was held back is judged by its latch, JAM_EARLY (log
18). -/
def Obligations.StationEdges : Prop :=
  ∀ (s : State) (t : TransportNo) (latch : Pos), (s.tr t).isActive →
    let x := s.tr t
    let w := BitVec.ofNat 32 x.cfg.tolerance
    let lead := fun st => s.stationChange t st true latch
    let trail := fun st => s.stationChange t st false latch
    let before := fun st : Station =>
      match st with | .entry => Station.entry | .df => .entry | .mark => .df | .exit => .mark
    let leadOf := fun st => x.track.find? fun r =>
      r.life != .withdrawn && (r.at (before st)).lead.isSome && (r.at st).lead.isNone
    let trailOf := fun st => x.track.find? fun r => r.life != .withdrawn && (r.at st).lead.isSome && (r.at st).trail.isNone &&
      (st == .entry || (r.at (before st)).trail.isSome)
    let inWindow := fun (r : SheetRecord) (st : Station) =>
      let c := r.entry.lead.getD 0 + BitVec.ofNat 32 (x.cfg.distance st)
      fwd (c - w) latch ≤ fwd (c - w) (c + w)
    let late := fun (r : SheetRecord) (st : Station) =>
      (r.at st).trailEnd = .raised ∧ (x.copyOf r.selector).cLMax < fwd ((r.at st).lead.getD 0) latch
    let beyond := fun p : Pos => 1 ≤ fwd p x.pos.counter ∧ fwd p x.pos.counter < 2 ^ 31
    let line := fun sd => latch + BitVec.ofNat 32 (x.cfg.cameraDistance sd)
    let put := fun (id : Nat) (d : DoubleFeedUnit) (on : Option Nat) (f : SheetRecord → SheetRecord) =>
      s.setTr t { x with dfu := d, runOn := on, track := x.track.map fun q => if q.id = id then f q else q }
    (∀ st, (st ≠ .entry → leadOf st = none → s.HeldAfter (lead st) t .jamEarly) ∧
      (st ≠ .entry → ∀ r, leadOf st = some r → ¬inWindow r st → s.HeldAfter (lead st) t .jamEarly) ∧
      (trailOf st = none → s.HeldAfter (trail st) t .jamEarly) ∧
      ∀ r, trailOf st = some r → late r st → s.HeldAfter (trail st) t .trailLate) ∧
    (∀ r, trailOf .entry = some r → ¬late r .entry →
      let g := latch + BitVec.ofNat 32 x.cfg.gapDistance
      (x.cfg.gapDistance = 0 ∨ beyond g → trail .entry = put r.id x.dfu x.runOn fun q =>
        { q with entry := { q.entry with trail := some latch, trailEnd := .idle }, gap := .met }) ∧
      (x.cfg.gapDistance ≠ 0 → ¬beyond g → trail .entry = put r.id x.dfu x.runOn fun q =>
        { q with entry := { q.entry with trail := some latch, trailEnd := .idle }, gap := .at g })) ∧
    (∀ r, x.PageLaw → leadOf .df = some r → inWindow r .df →
      let d := x.dfu.gapUpdate
      let low := d.reference < 64 * x.cfg.amplitudeFloor
      let p := x.profileOf r.selector
      let arm := fun (sd : Side) (y : SideRecord) => if y.capture = .waiting then { y with windowStart := .at (line sd) } else y
      ((∀ sd, (r.side sd).capture = .waiting → ¬beyond (line sd)) →
        lead .df = put r.id { d with run := if low then .none else .outside } x.runOn fun q =>
          { q with
            df := { q.df with lead := some latch, leadEnd := .idle,
                              trailEnd := .at (latch + BitVec.ofNat 32 (x.copyOf r.selector).cLMax) }
            verdict := if low then { q.verdict with ampUnavailable := true }
              else { q.verdict with thresholds := some (thresholdsOf d.reference p.qIn p.qOut) }
            front := arm .front q.front
            back := arm .back q.back }) ∧
      ∀ sd, (r.side sd).capture = .waiting → beyond (line sd) → (x.unit sd).activity = .idle →
        (((lead .df).tr t).unit sd).activity = .capturing r.id false) ∧
    ∀ r, x.PageLaw → trailOf .df = some r → ¬late r .df →
      (∀ sd, (r.side sd).capture = .waiting ∨ (r.side sd).capture = .capturing → ¬beyond (line sd)) →
      let v := (r.decideVerdict x latch).verdict
      let arm := fun (sd : Side) (y : SideRecord) =>
        if y.capture = .waiting ∨ y.capture = .capturing then { y with windowEnd := .at (line sd) } else y
      trail .df = put r.id { x.dfu with run := .none, trailExclusion := 2 }
        (if v.action = .hold ∧ x.runOn = none then some r.id else x.runOn) fun q =>
          { q with
            df := { q.df with trail := some latch, trailEnd := .idle }
            verdict := v
            suspect := q.suspect || v.action == .hold
            front := arm .front q.front
            back := arm .back q.back }

/-- Edges at MARK and EXIT (R14, R44, R54, R57, R58, R60, R93, R95). A MARK lead gives its record the latch and the trail deadline;
with mark check OFF the result is NONE and the measurement ends, with it ON the measurement is OPEN with its window end armed,
judged at once when that is already passed. A MARK trail closes the record's OPEN measurement at the trail or at the window end,
whichever is first, and otherwise gives the latch alone. An EXIT lead gives the latch; an EXIT trail makes the record DONE, or,
for the offender of the run-on, makes the SUSPECT stop that leaves it PARKED with its verdict and pages, its capture going on to
completion (that the window ends with the stop is read from R58 and R60, log 42). HeldAfter's waiting start is log 15. -/
def Obligations.MarkAndExitEdges : Prop :=
  ∀ (s : State) (t : TransportNo) (latch : Pos) (r : SheetRecord), (s.tr t).isActive → (s.tr t).PageLaw →
    let x := s.tr t
    let k := x.copyOf r.selector
    let leadSeen := fun q : StationTrack =>
      { q with lead := some latch, leadEnd := .idle, trailEnd := .at (latch + BitVec.ofNat 32 k.cLMax) }
    let trailSeen := fun q : StationTrack => { q with trail := some latch, trailEnd := .idle }
    let put := fun (m : MarkUnit) (f : SheetRecord → SheetRecord) =>
      s.setTr t { x with marks := m, track := x.track.map fun q => if q.id = r.id then f q else q }
    let inWindow := fun st : Station =>
      let c := r.entry.lead.getD 0 + BitVec.ofNat 32 (x.cfg.distance st)
      let w := BitVec.ofNat 32 x.cfg.tolerance
      fwd (c - w) latch ≤ fwd (c - w) (c + w)
    let late := fun q : StationTrack => q.trailEnd = .raised ∧ k.cLMax < fwd (q.lead.getD 0) latch
    ((x.track.find? fun q => q.life != .withdrawn && q.df.lead.isSome && q.mark.lead.isNone) = some r → inWindow .mark →
      let u := s.stationChange t .mark true latch
      let e := latch + BitVec.ofNat 32 k.cMarkWindow
      let isPassed := 1 ≤ fwd e x.pos.counter ∧ fwd e x.pos.counter < 2 ^ 31
      (k.profile.markCheck = false → u = put {} fun q => { q with mark := leadSeen q.mark, markResult := .noDivider }) ∧
      (k.profile.markCheck = true → ¬isPassed →
        u = put { x.marks with measurement := .opened r.id, lead := some latch, windowEnd := .at e } fun q =>
          { q with mark := leadSeen q.mark }) ∧
      (k.profile.markCheck = true → isPassed → (u.tr t).marks = {} ∧ ∃ q ∈ (u.tr t).track, q.id = r.id ∧
        q.mark = leadSeen r.mark ∧ q.markResult = judgeMark { x with marks := { x.marks with lead := some latch } } k.profile e)) ∧
    ((x.track.find? fun q => q.life != .withdrawn && q.mark.lead.isSome && q.mark.trail.isNone && q.df.trail.isSome) = some r →
      ¬late r.mark →
      let u := s.stationChange t .mark false latch
      let m := x.marks.lead.getD 0
      let e := m + BitVec.ofNat 32 k.cMarkWindow
      let res := judgeMark x k.profile (if fwd m latch ≤ fwd m e then latch else e)
      (x.marks.measurement ≠ .opened r.id → u = put x.marks fun q => { q with mark := trailSeen q.mark }) ∧
      (x.marks.measurement = .opened r.id → (u.tr t).marks = {} ∧
        (∃ q ∈ (u.tr t).track, q.id = r.id ∧ q.mark = trailSeen r.mark ∧ q.markResult = res) ∧
        (res ≠ .divider .switch → res ≠ .divider .endBatch →
          u = put {} fun q => { q with mark := trailSeen q.mark, markResult := res }))) ∧
    ((x.track.find? fun q => q.life != .withdrawn && q.mark.lead.isSome && q.exit.lead.isNone) = some r → inWindow .exit →
      s.stationChange t .exit true latch = put x.marks fun q => { q with exit := leadSeen q.exit }) ∧
    ((x.track.find? fun q => q.life != .withdrawn && q.exit.lead.isSome && q.exit.trail.isNone && q.mark.trail.isSome) = some r →
      ¬late r.exit →
      let u := s.stationChange t .exit false latch
      (x.runOn ≠ some r.id → u = put x.marks fun q => { q with exit := trailSeen q.exit, life := .done }) ∧
      (x.runOn = some r.id → s.HeldAfter u t .suspect ∧
        (∀ sd, ((u.tr t).unit sd).activity = .capturing r.id false → (r.side sd).windowEnd = .raised) ∧
        ∃ q ∈ (u.tr t).track, q.id = r.id ∧ q.life = .parked ∧ q.exit.trail = some latch ∧ q.verdict = r.verdict ∧
          q.suspect = r.suspect ∧ q.pages = r.pages))

/-! ### Expiries and timers of the path -/

/-- The stops by an expiry (R12, R13, R16, R41): a passed lead window end at DF, MARK or EXIT is JAM_LATE, a passed trail deadline
TRAIL_LATE, a stall STALL, each in RUNNING and DRAINING. A change pending at the station holds the first two back, as it does a
pick miss at ENTRY and, pending to no paper, the mark window end at MARK (R12, R13, R95); that a pick miss so held back leaves the
clutch engaged, as it leaves the whole state, is the model's choice (log 44). No stop leaves a side of a DONE or PARKED record
inside its window: the side completes, or waits for its packets, or has its window end to be taken (R58, R60; that the window ends
with the stop is read from them, log 42). That a stop drops a waiting motor start, as HeldAfter says, is the model's choice (log
15). -/
def Obligations.ExpiryStops : Prop :=
  (∀ (s : State) (t : TransportNo), (s.tr t).isActive →
    (∀ st, st ≠ .entry → (∃ r ∈ (s.tr t).track, r.life ≠ .withdrawn ∧ (r.at st).leadEnd = .raised) →
      ((s.tr t).pos.sensor (.station st)).pending = none →
      ∃ u, exec (.leadWindowEndPassed t st) s = .next u ∧ s.HeldAfter u t .jamLate) ∧
    (∀ st, (∃ r ∈ (s.tr t).track, r.life ≠ .withdrawn ∧ (r.at st).trailEnd = .raised) →
      ((s.tr t).pos.sensor (.station st)).pending = none →
      ∃ u, exec (.trailDeadlinePassed t st) s = .next u ∧ s.HeldAfter u t .trailLate) ∧
    ((s.tr t).pos.stallTimer.isSome → ∃ u, exec (.stallTimerExpiry t) s = .next u ∧ s.HeldAfter u t .stall)) ∧
  (∀ (s : State) (t : TransportNo) (st : Station), ((s.tr t).pos.sensor (.station st)).pending.isSome →
    exec (.leadWindowEndPassed t st) s = .next s ∧ exec (.trailDeadlinePassed t st) s = .next s ∧
    (st = .entry → exec (.pickMiss t) s = .next s) ∧
    (st = .mark → (s.tr t).pos.mark.level = true → exec (.markWindowEnd t) s = .next s)) ∧
  ∀ (s : State) (t : TransportNo) (sd : Side) (reason : StopReason) (r : SheetRecord), (s.tr t).isActive → (s.tr t).PageLaw →
    r ∈ (s.tr t).track → r.life = .done ∨ r.life = .parked → ((s.tr t).unit sd).activity = .capturing r.id false →
    let c := (s.tr t).unit sd
    let u := s.takeStop t reason
    ((r.side sd).windowEnd = .raised → (u.tr t).unit sd = c) ∧
    ((r.side sd).windowEnd ≠ .raised → c.trigger ≠ c.expected →
      (u.tr t).unit sd = { c with activity := .capturing r.id true, packetWait := true }) ∧
    ((r.side sd).windowEnd ≠ .raised → c.trigger = c.expected → ((u.tr t).unit sd).activity = .idle ∧
      ∃ q ∈ (u.tr t).track, q.id = r.id ∧ (q.side sd).capture = .complete ∧ (q.side sd).pages = (r.side sd).pages)

/-- A pick miss (R40): the record leaves the track without a count, the clutch is released, and its pages and reservation
return; in RUNNING without a run-on the retry count rises, and beyond the setup's retries it is a MISFEED stop; otherwise the
retry count becomes 0. What follows is the end of the step. That the clutch stays engaged until then is the model's choice (log
44), and that the stop drops a waiting motor start too (log 15). -/
def Obligations.PickMiss : Prop :=
  ∀ (s : State) (t : TransportNo) (r : SheetRecord), let x := s.tr t
    let missed := fun n : Nat => ((s.setTr t { x with
      track := x.track.filter fun q => q.id != r.id, clutch := false, retries := n }).returnPages r.pages r.reserve).finish s []
    x.track.find? (fun r => r.life == .picked && r.entry.leadEnd == .raised) = some r → x.isActive →
    x.pos.entry.pending = none →
    (x.state = .running → x.runOn = none → x.retries < x.cfg.pickRetries →
      exec (.pickMiss t) s = .next (missed (x.retries + 1))) ∧
    (x.state = .running → x.runOn = none → x.cfg.pickRetries ≤ x.retries →
      ∃ v : State, exec (.pickMiss t) s = .next (v.finish s []) ∧ s.HeldAfter v t .misfeed ∧
        ∀ q ∈ (v.tr t).track, q.id ≠ r.id) ∧
    (x.state = .draining ∨ x.runOn ≠ none → exec (.pickMiss t) s = .next (missed 0))

/-- The run-in done (R32, R71): DRIVING, and R from at least 4 samples. The gap met (R37). The motor commanded off by a timer:
the run-off's end (R33), and a stall in READY and PAUSED (R16), after which the motor is STANDING with the clutch released and
its timers idle, with no stop, and the state, R and every count as they were. -/
def Obligations.RunInAndGap : Prop :=
  (∀ (s : State) (t : TransportNo), let x := s.tr t
    let d := x.dfu
    x.motor = .runIn → x.runInEnd = .raised → exec (.runInDone t) s = .next ((s.setTr t { x with
      motor := .driving, runInEnd := .idle
      dfu := { d with gathering := false, runIn := {}, gap := {},
                      reference := if 4 ≤ d.runIn.count then 64 * (d.runIn.sum / d.runIn.count) else d.reference } }).finish
      s [])) ∧
  (∀ (s : State) (t : TransportNo) (r : SheetRecord), let x := s.tr t
    x.track.find? (fun r => r.gap == .raised) = some r → exec (.gapMet t) s = .next ((s.setTr t { x with
      track := x.track.map fun q => if q.id = r.id then { q with gap := .met } else q }).finish s [])) ∧
  ∀ (s : State) (t : TransportNo), let x := s.tr t
    let off : Transport :=
      { x with motor := .standing, clutch := false, runOffTimer := none, pos := { x.pos with stallTimer := none } }
    let stopsMotor := fun c : Instr => ∃ u, exec c s = .next u ∧ u = (s.setTr t off).finish s [] ∧
      (u.tr t).state = x.state ∧ (u.tr t).stopReason = x.stopReason ∧ (u.tr t).motor = .standing ∧
      (u.tr t).pos.stallTimer = none ∧ (u.tr t).runOffTimer = none ∧ (u.tr t).dfu.reference = x.dfu.reference ∧
      (u.tr t).batch.counters = x.batch.counters
    (x.state = .ready ∨ x.state = .paused) → x.track = [] → x.motor ≠ .runIn →
    (x.motor = .runOff → x.runOffTimer.isSome → stopsMotor (.runOffTimerExpiry t)) ∧
    (x.pos.stallTimer.isSome → stopsMotor (.stallTimerExpiry t))

/-! ### The Double-Feed Unit -/

/-- The arithmetic of the Double-Feed Unit. The gap update (R72): R moves by an eighth of its distance from 64 times the gap mean,
truncated toward 0; so it stays between its old value and 64 times the mean, moves toward it whenever it is 8 or more away, stays
within 0 to 65472, and keeps its value for fewer than 4 samples. The thresholds (R74) of a profile and an R of range: E_in lies
below E_out, and E_out is at most 1019, so a sample can always cross it. -/
def Obligations.ReferenceAndThresholds : Prop :=
  (∀ d : DoubleFeedUnit, let m := d.gap.sum / d.gap.count
    let r := d.gapUpdate.reference
    d.gapUpdate.gap = {} ∧ (d.gap.count < 4 → r = d.reference) ∧
    (4 ≤ d.gap.count →
      (r : Int) = d.reference + ((64 * m : Int) - d.reference).tdiv 8 ∧
      (d.reference ≤ 64 * m → d.reference ≤ r ∧ r ≤ 64 * m ∧ (d.reference + 8 ≤ 64 * m → d.reference < r)) ∧
      (64 * m ≤ d.reference → 64 * m ≤ r ∧ r ≤ d.reference ∧ (64 * m + 8 ≤ d.reference → r < d.reference)) ∧
      (d.reference ≤ 65472 → m ≤ 1023 → r ≤ 65472))) ∧
  ∀ reference qIn qOut : Nat, reference ≤ 65472 → 0 < qIn → qIn < qOut → qOut ≤ 255 →
    let e := thresholdsOf reference qIn qOut
    e.1 = reference * qIn / 16384 ∧ e.1 < e.2 ∧ e.2 ≤ 1019 ∧ (e.1 < reference * qOut / 16384 → e.2 = reference * qOut / 16384)

/-- Runs, segments and the verdict (R77 to R83). A run is measured from the DF lead, its offset and its length in tenths, a
distance of 2^31 or more as 0; shorter than the profile's least length it is no segment, and inside a zone it is exempt. The
first four segments are stored and further ones counted up to 255; one that is not exempt gives OVERLAP. The verdict at the DF
trail: an open run is ended there first; the length is stored; LONG and SHORT come from the limits of the profile unless the
record is LENGTH_UNVERIFIED; and the action is the stronger of the two that the flags call for. -/
def Obligations.RunsAndVerdict : Prop :=
  (∀ (x : Transport) (p : Profile) (lead runStart runEnd : Pos),
    let near := fun a b : Pos => if 2 ^ 31 ≤ (b - a).toNat then 0 else (b - a).toNat
    let offset := x.tenths (near lead runStart)
    let length := x.tenths (near runStart runEnd)
    (length < p.overlapMin → judgeRun x p lead runStart runEnd = none) ∧
    (p.overlapMin ≤ length → ∃ g, judgeRun x p lead runStart runEnd = some g ∧ g.offset = offset ∧ g.length = length ∧
      (g.exempt = true ↔ ∃ z ∈ p.zones, z.1 ≤ offset ∧ offset + length ≤ z.2))) ∧
  (∀ (v : Verdict) (g : Segment), let w := v.addSegment g
    (v.segments.length < 4 → w.segments = v.segments ++ [g] ∧ w.further = v.further) ∧
    (4 ≤ v.segments.length → w.segments = v.segments ∧ w.further = min 255 (v.further + 1)) ∧
    (w.overlap = true ↔ v.overlap = true ∨ g.exempt = false)) ∧
  ∀ (x : Transport) (r : SheetRecord) (trail : Pos),
    let p := x.profileOf r.selector
    let v := (r.decideVerdict x trail).verdict
    let lead := r.df.lead.getD 0
    let length := x.tenths (trail - lead).toNat
    let ended := fun start : Pos => match judgeRun x p lead start trail with
      | none => r.verdict | some g => r.verdict.addSegment g
    (∀ start, x.dfu.run = .inside start → v.overlap = (ended start).overlap ∧ v.segments = (ended start).segments ∧
      v.further = (ended start).further) ∧
    ((∀ start, x.dfu.run ≠ .inside start) → v.overlap = r.verdict.overlap ∧ v.segments = r.verdict.segments ∧
      v.further = r.verdict.further) ∧
    v.decided = true ∧ v.length = some length ∧ v.thresholds = r.verdict.thresholds ∧
    (r.verdict.lengthUnverified = true → v.long = r.verdict.long ∧ v.short = r.verdict.short) ∧
    (r.verdict.lengthUnverified = false → p.nominal = 0 →
      (v.long = true ↔ r.verdict.long = true ∨ p.lMax < length) ∧ v.short = r.verdict.short) ∧
    (r.verdict.lengthUnverified = false → p.nominal ≠ 0 →
      (v.long = true ↔ r.verdict.long = true ∨ p.nominal + p.longTol < length) ∧
      (v.short = true ↔ r.verdict.short = true ∨ length + p.shortTol < p.nominal)) ∧
    (v.action = .hold ↔ ((v.overlap = true ∨ v.long = true) ∧ p.suspectAction = .hold) ∨
      (v.short = true ∧ p.shortAction = .hold)) ∧
    (v.action = .none ↔ (v.overlap = true ∨ v.long = true → p.suspectAction = .none) ∧
      (v.short = true → p.shortAction = .none)) ∧
    (v.action = .review ↔ v.action ≠ .hold ∧ (((v.overlap = true ∨ v.long = true) ∧ p.suspectAction = .review) ∨
      (v.short = true ∧ p.shortAction = .review)))

/-- The conversions (R19, R20): C(x) is the least count whose length before rounding reaches x, unless the bound of 16777215
cuts it, and no count below it reaches x; C(0) is 0; L() is the product rounded half up and bounded by 65535, which it is only
where the product rounds to as much. -/
def Obligations.Conversions : Prop :=
  ∀ mode scale : Nat, mode ≤ 2 → 0 < scale → scale < 65536 →
    (∀ x, let c := countsOf mode scale x
      (c < 16777215 → x * scaleUnit mode ≤ c * scale) ∧ (∀ n, n < c → n * scale < x * scaleUnit mode) ∧ c ≤ 16777215 ∧
      countsOf mode scale 0 = 0) ∧
    ∀ n, let l := lengthOf mode scale n
      2 * l * scaleUnit mode ≤ 2 * n * scale + scaleUnit mode ∧
      (l < 65535 → 2 * n * scale + scaleUnit mode < 2 * (l + 1) * scaleUnit mode) ∧ l ≤ 65535

/-! ### Capture -/

/-- Capture windows (R108 to R110, R118). A start with the unit IDLE and no line outstanding makes side and unit CAPTURING with
one line triggered at once; a unit whose older side's window end has passed, taken or not, first completes that side, its
outstanding lines repaired. An end starts the packet wait when a line is outstanding, else the side completes at once: its blank
result is worked out and its reservation returns. When the packet wait runs out, every outstanding line is repaired and counted
and the side completes. Before the end of the step the other transports differ by picks of waiting requests at most. -/
def Obligations.CaptureWindows : Prop :=
  (∀ (s : State) (t : TransportNo) (sd : Side) (r : SheetRecord), let x := s.tr t
    let c := x.unit sd
    x.PageLaw →
    x.track.find? (fun r => (r.side sd).capture == .waiting && (r.side sd).windowStart == .raised) = some r →
    (c.activity = .idle → c.trigger = c.expected → exec (.captureWindowStart t sd) s = .next ((s.setTr t
      (({ x with track := x.track.map fun q => if q.id = r.id then
            q.setSide sd { q.side sd with capture := .capturing, windowStart := .idle } else q } : Transport).setUnit sd
        { c with activity := .capturing r.id false, previous := none, inkHistory := [], rewind := 0, accumulator := 0,
                 trigger := c.trigger + 1 })).finish s [])) ∧
    ∀ i q ended, c.activity = .capturing i ended → q ∈ x.track → q.id = i → ended = true ∨ (q.side sd).windowEnd = .raised →
      ∃ v : State, exec (.captureWindowStart t sd) s = .next (v.finish s []) ∧ s.OthersOnlyPick v t ∧ s.OutsideKept v ∧
        ((v.tr t).unit sd).activity = .capturing r.id false ∧ ((v.tr t).unit sd).trigger = c.trigger + 1 ∧
        ((v.tr t).unit sd).outstanding = 1 ∧
        ∃ q' ∈ (v.tr t).track, q'.id = i ∧ (q'.side sd).capture = .complete ∧
          (q'.side sd).lines = (q.side sd).lines + c.outstanding ∧ (q'.side sd).reserve = 0) ∧
  (∀ (s : State) (t : TransportNo) (sd : Side) (r : SheetRecord), let x := s.tr t
    let c := x.unit sd
    let side := r.side sd
    x.PageLaw →
    x.track.find? (fun r => (r.side sd).capture == .capturing && (r.side sd).windowEnd == .raised) = some r →
    (c.trigger ≠ c.expected → exec (.captureWindowEnd t sd) s = .next ((s.setTr t
      (({ x with track := x.track.map fun q => if q.id = r.id then
            q.setSide sd { q.side sd with windowEnd := .idle } else q } : Transport).setUnit sd
        { c with activity := .capturing r.id true, packetWait := true })).finish s [])) ∧
    (c.trigger = c.expected → exec (.captureWindowEnd t sd) s = .next (((s.setTr t
      (({ x with track := x.track.map fun q => if q.id = r.id then q.setSide sd { side with
            capture := .complete, reserve := 0, windowEnd := .idle
            blank := some (blankResult (x.profileOf r.selector) x.cfg.width side) } else q } : Transport).setUnit sd
        { c with activity := .idle, packetWait := false, inkHistory := [] })).returnPages [] side.reserve).finish s []))) ∧
  ∀ (s : State) (t : TransportNo) (sd : Side) (r : SheetRecord) (ended : Bool), let x := s.tr t
    let c := x.unit sd
    x.PageLaw → c.packetWait → r ∈ x.track → c.activity = .capturing r.id ended →
    ∃ v : State, exec (.packetWaitExpiry t sd) s = .next (v.finish s []) ∧ s.OthersOnlyPick v t ∧ s.OutsideKept v ∧
      ((v.tr t).unit sd).activity = .idle ∧ ((v.tr t).unit sd).packetWait = false ∧
      ((v.tr t).unit sd).expected = c.trigger ∧ ((v.tr t).unit sd).trigger = c.trigger ∧
      ∃ q ∈ (v.tr t).track, q.id = r.id ∧ (q.side sd).capture = .complete ∧ (q.side sd).reserve = 0 ∧
        (q.side sd).lines = (r.side sd).lines + c.outstanding ∧
        (q.side sd).repaired = (r.side sd).repaired + c.outstanding ∧
        (q.side sd).blank = some (blankResult (x.profileOf r.selector) x.cfg.width (q.side sd)) ∧
        ((q.side sd).damaged ↔ (r.side sd).damaged ∨
          (c.trigger ≠ c.expected ∧ (x.profileOf r.selector).repairLimit < (r.side sd).repaired + c.outstanding))

/-- A line packet (R110 to R113): an IDLE unit discards it. For a CAPTURING side, a packet whose CRC fails repairs the expected
line when one is outstanding; one with a good CRC and a tag that no outstanding line carries is discarded; one whose tag is d
beyond the expected tag repairs the d lines before its own, and its own line is taken when its pixel count is W and repaired
when it is not. The last outstanding line of a side whose window has ended completes the side; before that, and inside the
window, unit and side stay CAPTURING. -/
def Obligations.LinePackets : Prop :=
  ∀ (s : State) (t : TransportNo) (sd : Side) (bytes : List Byte), let x := s.tr t
    let c := x.unit sd
    let d := (BitVec.ofNat 16 (field bytes 0 2) - c.expected).toNat
    let white := List.replicate x.cfg.width { red := 255, green := 255, blue := 255 : Pixel }
    let discarded := exec (.linePacket t sd bytes) s = .next (s.finish s [])
    (c.activity = .idle → discarded) ∧
    ∀ r ended, x.PageLaw → r ∈ x.track → c.activity = .capturing r.id ended →
      let consumed := fun (n repaired : Nat) (previous : List Pixel) =>
        ∃ v : State, exec (.linePacket t sd bytes) s = .next (v.finish s []) ∧ s.OthersOnlyPick v t ∧ s.OutsideKept v ∧
          ((v.tr t).unit sd).expected = c.expected + BitVec.ofNat 16 n ∧ ((v.tr t).unit sd).trigger = c.trigger ∧
          ((v.tr t).unit sd).previous = some previous ∧
          ∃ q ∈ (v.tr t).track, q.id = r.id ∧ (q.side sd).lines = (r.side sd).lines + n ∧
            (q.side sd).repaired = (r.side sd).repaired + repaired ∧
            (ended = true ∧ n = c.outstanding →
              ((v.tr t).unit sd).activity = .idle ∧ (q.side sd).capture = .complete ∧ (q.side sd).reserve = 0) ∧
            (ended = false ∨ n ≠ c.outstanding →
              ((v.tr t).unit sd).activity = c.activity ∧ (q.side sd).capture = (r.side sd).capture)
      (packetChecks bytes = false → c.trigger ≠ c.expected → consumed 1 1 (c.previous.getD white)) ∧
      (packetChecks bytes = false → c.trigger = c.expected → ended = false → discarded) ∧
      (packetChecks bytes = true → c.outstanding ≤ d → ended = false ∨ c.trigger ≠ c.expected → discarded) ∧
      (packetChecks bytes = true → d < c.outstanding → field bytes 2 2 = x.cfg.width →
        consumed (d + 1) d (pixelsOf ((bytes.drop 4).take (3 * x.cfg.width)))) ∧
      (packetChecks bytes = true → d < c.outstanding → field bytes 2 2 ≠ x.cfg.width →
        consumed (d + 1) (d + 1) (c.previous.getD white))

/-- The line trigger and the pages (R109, R113, R120, R123, R125). A counted edge steps the sampling and the expiries first and
then the line triggers of both sides, FRONT before BACK, which R123 leaves open for the pages they take (the model's choice, log
52). For a unit inside its side's window a reverse count raises the rewind (up to 2^32 - 1), a forward count lowers it, and with
no rewind left A rises by 65536 and, where it reaches the pitch, falls by the pitch and triggers a line; the oldest line is
repaired first where 32768 would be outstanding. Elsewhere a count does nothing. A line is stored at the end of the side's image;
where it does not fit, a page is taken from the side's reservation, which leaves the free pages as they are, else from the free
pages, else the side is CLIPPED and stores nothing of this line or any later one. -/
def Obligations.LineTriggerAndPages : Prop :=
  (∀ (s : State) (t : TransportNo) (line : EncLine) (adc : BitVec 10), (s.tr t).pos.counts line →
    let f := (s.tr t).pos.goesForward line
    exec (.encoderCount t line adc) s =
      .next (((s.setTr t ((s.tr t).count line adc f)).captureCount t .front f).captureCount t .back f)) ∧
  (∀ (s : State) (t : TransportNo) (sd : Side) (r : SheetRecord), let x := s.tr t
    let u := x.unit sd
    let p := (x.profileOf r.selector).pitch
    let put := fun u' : CaptureUnit => s.setTr t (x.setUnit sd u')
    ((∀ id, u.activity ≠ .capturing id false) → ∀ f, s.captureCount t sd f = s) ∧
    (x.record r.id = some r → u.activity = .capturing r.id false →
      ((r.side sd).windowEnd = .raised → ∀ f, s.captureCount t sd f = s) ∧
      ((r.side sd).windowEnd ≠ .raised →
        (u.rewind < 2 ^ 32 - 1 → s.captureCount t sd false = put { u with rewind := u.rewind + 1 }) ∧
        (0 < u.rewind → s.captureCount t sd true = put { u with rewind := u.rewind - 1 }) ∧
        (u.rewind = 0 → u.accumulator + 65536 < p →
          s.captureCount t sd true = put { u with accumulator := u.accumulator + 65536 }) ∧
        (u.rewind = 0 → p ≤ u.accumulator + 65536 → u.outstanding + 1 ≠ 32768 →
          s.captureCount t sd true = put { u with accumulator := u.accumulator + 65536 - p, trigger := u.trigger + 1 }) ∧
        (u.rewind = 0 → p ≤ u.accumulator + 65536 → u.outstanding + 1 = 32768 →
          let v := s.captureCount t sd true
          ((v.tr t).unit sd).trigger = u.trigger + 1 ∧ ((v.tr t).unit sd).expected = u.expected + 1 ∧
          ((v.tr t).unit sd).accumulator = u.accumulator + 65536 - p ∧
          ∃ q ∈ (v.tr t).track, q.id = r.id ∧ (q.side sd).lines = (r.side sd).lines + 1 ∧
            (q.side sd).repaired = (r.side sd).repaired + 1)))) ∧
  ∀ (s : State) (y : SideRecord) (line : List Byte),
    let z := s.storeLine y line
    let full := 65536 * y.pages.length < y.image.length + line.length
    (y.clipped = true → z = (s, y)) ∧
    (y.clipped = false → ¬full → z = (s, { y with image := y.image ++ line })) ∧
    (∀ page rest, y.clipped = false → full → s.hold.free = page :: rest →
      (0 < y.reserve → z = (s.setHold { s.hold with free := rest, reserved := s.hold.reserved - 1 },
          { y with image := y.image ++ line, pages := y.pages ++ [page], reserve := y.reserve - 1 }) ∧
        (0 < s.hold.reserved → z.1.hold.freePages = s.hold.freePages)) ∧
      (y.reserve = 0 → 0 < s.hold.freePages →
        z.2 = { y with image := y.image ++ line, pages := y.pages ++ [page] } ∧ z.1.hold.free = rest ∧
        z.1.hold.freePages + 1 = s.hold.freePages ∧ (z.1.hold.below = true ↔ s.hold.freePages - 1 < s.hold.lowMark) ∧
        z.1.room.evt = (if s.hold.freePages - 1 < s.hold.lowMark ∧ s.hold.below = false then s.room.evt ||| 0x2000#16
          else s.room.evt))) ∧
    (y.clipped = false → full → y.reserve = 0 → s.hold.freePages = 0 → z = (s, { y with clipped := true }))

/-- The line forms, ink and the blank test (R114 to R118). A stored line is its byte count in two bytes and its content: the
pixels as taken, the grey values, or their run form, the grey value being the weighted sum rounded and bounded by 255. A line
taken for a side is stored in the format of its profile. In the run form a literal is followed by run codes for the equal values
after it: 0 and 255 while 255 or more are left, then 0 and the number for 3 or more, and literals for 1 or 2. The run form loses
nothing: it stands for the grey values, 0 written as 1, and is no longer than the grey line. The ink of a line is the number of
its pixels from the side margin up to the other one whose grey value lies below the ink level. Over the lines of a side the ink
count becomes the sum of the lines from the top margin up to the bottom margin before the last, as long as it stays below 2^32
(beyond, the value is free: log 45). The blank result is NO for a counted area of 0 or less, else YES exactly when ink x 65536 is
at most the blank limit times the area. -/
def Obligations.LineFormsAndBlank : Prop :=
  (∀ (u : Setup) (pixels : List Pixel), let n := pixels.length
    let greys := pixels.map fun q => min 255 ((u.kr * q.red.toNat + u.kg * q.green.toNat + u.kb * q.blue.toNat + 128) / 256)
    storedLine .colour u pixels = leBytes (3 * n) 2 ++ pixels.flatMap (fun q => [q.red, q.green, q.blue]) ∧
    storedLine .grey u pixels = leBytes n 2 ++ greys.map (BitVec.ofNat 8) ∧
    storedLine .greyRun u pixels = leBytes (runLine greys).length 2 ++ runLine greys) ∧
  (∀ (s : State) (t : TransportNo) (sd : Side) (r : SheetRecord) (pixels : List Pixel) (isRepair : Bool),
    (s.tr t).capturedRecord sd = some r → let x := s.tr t
    let y := r.side sd
    let z := s.storeLine y (storedLine ((x.profileOf r.selector).format sd) x.cfg pixels)
    let v := s.takeLine t sd pixels isRepair
    v.hold = z.1.hold ∧ v.room = z.1.room ∧ ∃ q ∈ (v.tr t).track, q.id = r.id ∧ (q.side sd).image = z.2.image ∧
      (q.side sd).pages = z.2.pages ∧ (q.side sd).clipped = z.2.clipped ∧ (q.side sd).reserve = z.2.reserve) ∧
  (runLine [] = [] ∧ ∀ (g : Nat) (same rest : List Nat), (∀ h ∈ g :: (same ++ rest), h ≤ 255) →
    (∀ h ∈ same, max 1 h = max 1 g) → (∀ h more, rest = h :: more → max 1 h ≠ max 1 g) →
    let n := same.length
    let left := n % 255
    runLine (g :: (same ++ rest)) = [BitVec.ofNat 8 (max 1 g)] ++ (List.replicate (n / 255) [0, 255]).flatten ++
      (if 3 ≤ left then [0, BitVec.ofNat 8 left] else List.replicate left (BitVec.ofNat 8 (max 1 g))) ++ runLine rest) ∧
  (∀ (greys : List Nat) (v : Byte), (∀ g ∈ greys, g ≤ 255) →
    expandRuns v (runLine greys) = greys.map (fun g => BitVec.ofNat 8 (max 1 g)) ∧ (runLine greys).length ≤ greys.length) ∧
  (∀ (p : Profile) (u : Setup) (pixels : List Pixel), pixels.length = u.width →
    lineInk p u pixels = ((List.range u.width).filter fun i => decide (p.sideMargin ≤ i) && decide (i + p.sideMargin < u.width)
      && pixels[i]?.any fun q => decide (greyOf u q < p.inkLevel)).length) ∧
  (∀ (p : Profile) (y : SideRecord) (inks : List Nat), y.lines = 0 → y.ink = 0 → inks.sum < 2 ^ 32 →
    let after := inks.foldl (fun z i =>
      let w := countInk p i z.1 z.2
      ({ w.1 with lines := w.1.lines + 1 }, w.2)) (y, [])
    after.1.lines = inks.length ∧
    after.1.ink = ((inks.drop p.topMargin).take (inks.length - p.topMargin - p.bottomMargin)).sum) ∧
  ∀ (p : Profile) (width : Nat) (y : SideRecord),
    let area : Int := ((width : Int) - 2 * p.sideMargin) * ((y.lines : Int) - p.topMargin - p.bottomMargin)
    (area ≤ 0 → blankResult p width y = false) ∧
    (0 < area → (blankResult p width y = true ↔ (y.ink : Int) * 65536 ≤ p.blankLimit * area))

/-! ### Marks -/

/-- The mark window end (R29, R95, R98, R99): the OPEN measurement's record gets the result of its pulse list at the window end,
the measurement ends, and the result acts: END gives OVERRUN to every record behind it and begins DRAINING(END) from RUNNING and
from DRAINING(PAUSE), while DRAINING for another purpose stays; an allowed SWITCH changes the active profile; a refused one marks
its record and is counted; the others change nothing more. A list of 2 to 6 pulses within the window, all of them valid bars, with
no overflow, is the divider of that code, and any other list is NONE (R96). That the width of a bar of 2^31 or more counts as 0 is
the model's choice (log 43). -/
def Obligations.MarkWindowEnd : Prop :=
  (∀ (s : State) (t : TransportNo) (r : SheetRecord), let x := s.tr t
    let res := judgeMark x (x.profileOf r.selector)
      (x.marks.lead.getD 0 + BitVec.ofNat 32 (x.copyOf r.selector).cMarkWindow)
    let c := x.batch.counters
    let allowed := ∃ sn alt, x.batch.snapshot = some sn ∧ sn.alt = some alt ∧
      alt.profile.pitch = sn.main.profile.pitch ∧ alt.profile.sides = sn.main.profile.sides
    x.PageLaw → x.marks.windowEnd = .raised → x.pos.mark.pending = none → r ∈ x.track →
    x.marks.measurement = .opened r.id →
    ∃ v : State, exec (.markWindowEnd t) s = .next (v.finish s []) ∧ s.OnlyTransport v t ∧
      (v.tr t).marks = {} ∧ (∃ q ∈ (v.tr t).track, q.id = r.id ∧ q.markResult = res) ∧
      (res ≠ .divider .switch → res ≠ .divider .endBatch → v.tr t = { x with
        marks := {}, track := x.track.map fun q => if q.id = r.id then { q with markResult := res } else q }) ∧
      (res = .divider .endBatch →
        (∀ ahead behind, x.track = ahead ++ r :: behind →
          (v.tr t).track = ahead ++ { r with markResult := res } :: behind.map fun q => { q with overrun := true }) ∧
        (x.state = .running ∨ (x.state = .draining ∧ x.purpose = .pause) →
          (v.tr t).state = .draining ∧ (v.tr t).purpose = .endBatch ∧ (v.tr t).motor = x.motor) ∧
        (x.state ≠ .running → ¬(x.state = .draining ∧ x.purpose = .pause) →
          (v.tr t).state = x.state ∧ (v.tr t).purpose = x.purpose)) ∧
      (res = .divider .switch → allowed → (v.tr t).batch = { x.batch with
        active := match x.batch.active with | .main => .alt | .alt => .main
        counters := { c with switchesObeyed := min (2 ^ 32 - 1) (c.switchesObeyed + 1) } }) ∧
      (res = .divider .switch → ¬allowed → v.tr t = { x with
        marks := {}
        track := x.track.map fun q => if q.id = r.id then { q with markResult := res, switchRefused := true } else q
        batch := { x.batch with
          counters := { c with switchesRefused := min (2 ^ 32 - 1) (c.switchesRefused + 1) } } })) ∧
  ∀ (x : Transport) (p : Profile) (close : Pos), let lead := x.marks.lead.getD 0
    let res := judgeMark x p close
    let bars := x.marks.pulses.filter fun b => decide (nearDistance lead b.start < nearDistance lead close)
    let valid := fun b : Pulse => ∃ e, b.stop = some e ∧ nearDistance lead e ≤ nearDistance lead close ∧
      p.barMin ≤ x.tenths (nearDistance b.start e) ∧ x.tenths (nearDistance b.start e) ≤ p.barMax
    (res.isDivider → x.marks.overflow = false ∧ bars.length = res.code ∧ ∀ b ∈ bars, valid b) ∧
    (x.marks.overflow = true ∨ (∃ b ∈ bars, ¬valid b) → res = .noDivider) ∧
    (x.marks.overflow = false → (∀ b ∈ bars, valid b) →
      (bars.length < 2 ∨ 6 < bars.length → res = .noDivider) ∧
      ∀ d, (bars.length, d) ∈ [(2, Divider.document), (3, .folder), (4, .switch), (5, .endBatch), (6, .dropNext)] →
        res = .divider d)

/-! ### Registers, START, HALT, sweeps -/

/-- Register writes, START and the polling (R161, R162, R165). RBASE is replaced in HALTED and kept otherwise, a START in flight
untouched; a word written to a register spells its row, one written to RUNCTL by bits 2 to 0: START, HALT, SOFT_RESET, or none,
with the poll period in bits 31 to 24; every RUNCTL write takes that period, one to its read-only fields too (that the rows carry
it is the model's reading, log 34); one that gives no command changes at most the period and its timer; writes to EVT and EVTACT
are ignored. START is taken in HALTED with none in flight: an RBASE of 0 is RANGE, one with low bits set is ALIGN, any other is
latched and its header read begun. A poll timer that runs out requests a sweep and starts again; a SWEEP write requests one in
ACTIVE, and in HALTING while a transport is not OFF; a request begins a sweep or marks one pending; a changed period restarts or
stops the timer; the end of a sweep raises the count and begins the pending one. -/
def Obligations.RegistersAndPolling : Prop :=
  ((∀ (s : State) (v : Word), s.room.part = .halted →
    exec (.rbaseWrite true v) s = .next (s.setRoom { s.room with rbaseH := v }) ∧
    exec (.rbaseWrite false v) s = .next (s.setRoom { s.room with rbaseL := v })) ∧
  (∀ (s : State) (h : Bool) (v : Word), s.room.part ≠ .halted → exec (.rbaseWrite h v) s = .next s) ∧
  (∀ (s : State) (p : Byte), ∀ c ∈ [Instr.start p, .halt p, .softReset p, .pollPeriodWrite p],
    ∃ u, exec c s = .next u ∧ u.room.pollPeriod = p.toNat) ∧
  (∀ (s : State) (p : Byte), ∃ timer, exec (.pollPeriodWrite p) s =
    .next (s.setRoom { s.room with pollPeriod := p.toNat, pollTimer := timer })) ∧
  (∀ (s : State) (v : Word), exec (.registerWrite .evt v) s = .next s ∧ exec (.registerWrite .evtact v) s = .next s ∧
    exec (.registerWrite .runctlReadOnly v) s = exec (.pollPeriodWrite (BitVec.ofNat 8 (v.toNat / 2 ^ 24))) s) ∧
  ∀ v : Word, let row := fun r => registerRow r v
    let command := v.toNat % 8
    let period : Byte := BitVec.ofNat 8 (v.toNat / 2 ^ 24)
    (command = 1 → row .runctl = .start period) ∧ (command = 2 → row .runctl = .halt period) ∧
    (command = 3 → row .runctl = .softReset period) ∧
    (command = 0 ∨ 3 < command → row .runctl = .pollPeriodWrite period) ∧
    row .rbaseL = .rbaseWrite false v ∧ row .rbaseH = .rbaseWrite true v ∧ row .sweep = .sweepWrite v ∧
    row .evt = .registerWrite .evt v ∧ row .evten = .evtenWrite v ∧ row .evtact = .registerWrite .evtact v ∧
    row .evtclr = .evtclrWrite v) ∧
  (∀ (s : State) (p : Byte), let r := { s.room with pollPeriod := p.toNat }
    let base : Addr := s.room.rbaseH ++ s.room.rbaseL
    (s.room.part = .halted → s.room.startInFlight = none →
      (base = 0 → exec (.start p) s = .next (s.setRoom { r with startResult := .range })) ∧
      (base ≠ 0 → base.toNat % 4096 ≠ 0 → exec (.start p) s = .next (s.setRoom { r with startResult := .align })) ∧
      (base ≠ 0 → base.toNat % 4096 = 0 → exec (.start p) s = .next (s.setRoom { r with startInFlight := some base }))) ∧
    (s.room.part ≠ .halted ∨ s.room.startInFlight ≠ none → exec (.start p) s = exec (.pollPeriodWrite p) s)) ∧
  ∀ (s : State), let timer := fun n : Nat => if n = 0 then none else some n
    let r := s.room
    let mayPoll := r.part = .active ∨ (r.part = .halting ∧ ∃ t, (s.tr t).state ≠ .off)
    (r.pollTimer.isSome → r.sweep = .idle → exec .pollTimerExpiry s =
      .next (s.setRoom { r with sweep := .inFlight 0, pollTimer := timer r.pollPeriod })) ∧
    (∀ p, r.pollTimer.isSome → r.sweep = .inFlight p → exec .pollTimerExpiry s =
      .next (s.setRoom { r with sweepPending := true, pollTimer := timer r.pollPeriod })) ∧
    (∀ v, mayPoll → r.sweep = .idle → exec (.sweepWrite v) s = .next (s.setRoom { r with sweep := .inFlight 0 })) ∧
    (∀ v p, mayPoll → r.sweep = .inFlight p → exec (.sweepWrite v) s = .next (s.setRoom { r with sweepPending := true })) ∧
    (∀ v, ¬mayPoll → exec (.sweepWrite v) s = .next s) ∧
    (∀ p : Byte, p.toNat = r.pollPeriod → exec (.pollPeriodWrite p) s = .next s) ∧
    (∀ p : Byte, p.toNat ≠ r.pollPeriod → mayPoll → exec (.pollPeriodWrite p) s =
      .next (s.setRoom { r with pollPeriod := p.toNat, pollTimer := timer p.toNat })) ∧
    ∀ p, r.sweep = .inFlight p → p ≤ 16 → r.answer = none → r.setupRead = none →
      exec (.sweepEnd [] []) s = .next (s.setRoom { r with
        sweep := if r.sweepPending then .inFlight 0 else .idle, sweepCount := r.sweepCount + 1, sweepPending := false })

/-- The end of a START's header read (R125, R133, R162): a bus error is BUS with MEMFAULT, a header that fails loads nothing and
gives the first failing row's result, one that passes makes the part ACTIVE, loads its addresses, its low mark and its lanes,
starts the poll timer, begins a sweep and requests a status write for every transport; it keeps the candidates. The below-mark
condition is worked out afresh, and EVT.SPACE is set when it is then yes, also where it was yes before. A header is judged by the
rows of 09 Table 9-5 in order: a version other than 1 is VERSION, an address that is not a multiple is ALIGN, an address of 0, a
count out of range, no lane 0 or a low mark above P_total is RANGE, and every other header is OK. -/
def Obligations.StartHeader : Prop :=
  (∀ (s : State) (base : Addr), s.room.startInFlight = some base →
    exec (.startHeaderReadDone .busError) s =
      .next (s.setRoom { s.room with startInFlight := none, startResult := .bus, evt := s.room.evt ||| 0x4000#16 }) ∧
    ∀ bytes, let h := parseHeader bytes
      let v := h.judge s.hold.total
      (v ≠ .ok → exec (.startHeaderReadDone (.data bytes)) s =
        .next (s.setRoom { s.room with startInFlight := none, startResult := v })) ∧
      (v = .ok → s.room.sweep = .idle → ∃ u w : State, exec (.startHeaderReadDone (.data bytes)) s = .next u ∧
        u = w.finish s [0, 1, 2, 3] ∧ w.transports = s.transports ∧ w.writer = s.writer ∧ w.hostMem = s.hostMem ∧
        w.hold.free = s.hold.free ∧ w.hold.reserved = s.hold.reserved ∧ w.hold.waiting = s.hold.waiting ∧
        (w.hold.below = true ↔ s.hold.freePages < h.lowMark) ∧
        w.room.evt = s.room.evt ||| (if s.hold.freePages < h.lowMark then 0x2000#16 else 0) ∧
        u.room.part = .active ∧ u.room.startResult = .ok ∧ u.room.startInFlight = none ∧ u.room.sweep = .inFlight 0 ∧
        u.room.table = some (h.table base) ∧
        u.room.pollTimer = (if s.room.pollPeriod = 0 then none else some s.room.pollPeriod) ∧
        u.hold.lowMark = h.lowMark ∧ (∀ t : TransportNo, u.room.status[t] ≠ .idle) ∧
        (∀ t, (u.tr t).batch.candidate = (s.tr t).batch.candidate) ∧
        ∀ n : LaneNo, (u.lane n).flushTime = h.laneFlush[n] ∧ (u.lane n).sequence = 0 ∧ (u.lane n).bin = none ∧
          (h.laneHead[n] = 0 → (u.lane n).state = .unused) ∧
          (h.laneHead[n] ≠ 0 → (u.lane n).state = .idle ∧ (u.lane n).cursor = .at h.laneHead[n]))) ∧
  ∀ (h : Header) (total : Nat),
    let blocks := fun P : Addr → Prop =>
      (∀ t : TransportNo, P h.setup[t] ∧ P h.control[t] ∧ P h.status[t]) ∧ P h.profiles ∧ P h.routes ∧ P h.room
    let aligned := blocks (fun a => a.toNat % 64 = 0) ∧ ∀ n : LaneNo, h.laneHead[n] ≠ 0 → h.laneHead[n].toNat % 4096 = 0
    let inRange := blocks (· ≠ 0) ∧ 1 ≤ h.profileCount ∧ h.profileCount ≤ 32 ∧ 1 ≤ h.routeCount ∧ h.routeCount ≤ 8 ∧
      h.laneHead[(0 : LaneNo)] ≠ 0 ∧ h.lowMark ≤ total
    (h.version ≠ 1 → h.judge total = .version) ∧ (h.version = 1 → ¬aligned → h.judge total = .align) ∧
    (h.version = 1 → aligned → ¬inRange → h.judge total = .range) ∧ (h.version = 1 → aligned → inRange → h.judge total = .ok)

/-- HALT (R46, R157, R163, 02 Table 2-6): taken in ACTIVE the part becomes HALTING and the halt acts on each transport by its
state; elsewhere it only writes the period. That the gap accumulator and the trail exclusion go over from RUNNING to DRAINING as
they are is the model's choice (log 48). -/
def Obligations.HaltTaken : Prop :=
  ∀ (s : State) (p : Byte),
    (s.room.part ≠ .active → exec (.halt p) s = exec (.pollPeriodWrite p) s) ∧
    (s.room.part = .active → ∃ w v : State, exec (.pollPeriodWrite p) s = .next w ∧ exec (.halt p) s = .next (v.finish w []) ∧
      v.room = { w.room with part := .halting } ∧ v.hold = s.hold ∧ v.lanes = s.lanes ∧ v.hostMem = s.hostMem ∧
      ∀ t, let x := s.tr t
        let y := v.tr t
        (x.state = .off → y = x) ∧
        (x.state = .ready → y.state = .off ∧ y.motor = .standing ∧ y.clutch = false ∧ y.runOffTimer = none ∧
          y.setup = x.setup ∧ y.dfu.reference = x.dfu.reference ∧ y.batch = { x.batch with take := none }) ∧
        (x.state = .running → y = { x with state := .draining, purpose := .halt }) ∧
        (x.state = .draining → x.purpose = .pause → y = { x with purpose := .halt }) ∧
        (x.state = .draining ∨ x.state = .held → x.purpose = .endBatch ∨ x.purpose = .abort →
          y = { x with haltRequest := true }) ∧
        (x.state = .draining ∨ x.state = .held → x.purpose = .halt → y = x) ∧
        (x.state = .paused → y.state = .draining ∧ y.purpose = .halt ∧ y.motor = .standing ∧ y.runOffTimer = none ∧
          y.batch = x.batch) ∧
        (x.state = .held → x.purpose = .none ∨ x.purpose = .pause → y = { x with purpose := .halt }))

/-- The event registers (R173): EVTEN is written and read, 0 after both resets; EVTACT is EVT AND EVTEN; the line is asserted
exactly while EVTACT is not 0, so it rises when the enable of a set event is set, falls when the last enabled event is
cleared through EVTCLR or disabled, and a soft reset deasserts it. -/
def Obligations.EventRegisters : Prop :=
  (∀ (s : State) (v : Word), ∃ u, exec (.evtenWrite v) s = .next u ∧
    u = s.setRoom { s.room with evten := v.setWidth 16 } ∧ u.readRegister .evten = (v.setWidth 16).setWidth 32) ∧
  (∀ s : State, s.readRegister .evtact = s.readRegister .evt &&& s.readRegister .evten ∧
    (s.interrupt = true ↔ s.readRegister .evtact ≠ 0)) ∧
  (∀ (s u : State) (v : Word), exec (.evtenWrite v) s = .next u → u.room.evt = s.room.evt ∧
    (s.room.evt &&& v.setWidth 16 ≠ 0 → u.interrupt = true) ∧ (s.room.evt &&& v.setWidth 16 = 0 → u.interrupt = false)) ∧
  (∀ (s : State) (v : Word), ∃ u, exec (.evtclrWrite v) s = .next u ∧
    u = s.setRoom { s.room with evt := s.room.evt &&& ~~~(v.setWidth 16) } ∧
    (u.interrupt = true ↔ s.room.evt &&& s.room.evten &&& ~~~(v.setWidth 16) ≠ 0)) ∧
  (∀ (s u : State) (p : Byte), exec (.softReset p) s = .next u →
    u.readRegister .evt = 0 ∧ u.readRegister .evten = 0 ∧ u.interrupt = false) ∧
  ∀ (s u : State) (l0 l1 l2 l3 : LineLevels), exec (.powerOn l0 l1 l2 l3) s = .next u →
    u.readRegister .evten = 0 ∧ u.interrupt = false

/-- Step 4 of a sweep (R135, R166, R167): every STARVED lane is read, whatever is in flight on it; one whose bin is found posted
begins its bin take, or stays with the take it has; a failed read of a link or a turn sets MEMFAULT; the sweep count rises. Nothing
but the lanes and the Room Interface changes, and no lane that is not STARVED. That a posted bin begins no take beside a restart in
flight is the model's choice (log 50). -/
def Obligations.SweepExaminesLanes : Prop :=
  ∀ (s : State) (links turns : List LaneRead) (p : Nat),
    s.room.sweep = .inFlight p → p ≤ 16 → s.room.answer = none → s.room.setupRead = none →
    (links.map (·.lane)).Nodup → (turns.map (·.lane)).Nodup →
    ∃ u, exec (.sweepEnd links turns) s = .next u ∧ u.room.sweepCount = s.room.sweepCount + 1 ∧
      { u with lanes := s.lanes, room := s.room } = s ∧
      ∀ n, let l := s.lane n
        let link := fun m : MemRead => ({ lane := n, read := m } : LaneRead) ∈ links
        let turn := fun m : MemRead => ({ lane := n, read := m } : LaneRead) ∈ turns
        let starved := l.state = .starved
        let takes := u.lane n = if l.restart then l else { l with binTake := true }
        let fails := u.lane n = l ∧ u.room.evt &&& 0x4000#16 ≠ 0
        (∀ a bytes, starved → l.cursor = .at a → turn (.data bytes) → turnPosted bytes → takes) ∧
        (starved → (∃ a, l.cursor = .at a) → turn .busError → fails) ∧
        (starved → (∀ a, l.cursor ≠ .at a) →
          (link .busError → fails) ∧
          (∀ k, link (.data k) → addrField k 0 = 0 → u.lane n = l) ∧
          ∀ k, link (.data k) → addrField k 0 ≠ 0 →
            (∀ bytes, turn (.data bytes) → turnPosted bytes → takes) ∧
            (turn .busError → fails)) ∧
        (∀ bytes, turn (.data bytes) → turnPosted bytes = false → u.lane n = l) ∧
        (¬starved ∨ (∀ m, ¬turn m) → u.lane n = l)

/-! ### Records the part reads -/

/-- The records the part reads, field by field at its place (R5, R23, R90, R162, R174; 10 Tables 10-1, 10-2, 10-3 and 10-5). The
ranges that refuse a setup block and a profile (01 Table 1-3, 02 Table 2-4, 04 Tables 4-2 and 4-3, 05 Table 5-3, 06 Tables 6-1 and
6-2): a block is loaded exactly when every field is in its range, and then its fields are the bytes'. Of a profile an ink level of 0
is taken as 1 and a bottom margin above 64 as 64. The Room Table header and the ticket hold the bytes of their places. -/
def Obligations.RecordRanges : Prop :=
  (∀ b : List Byte, let f := field b
    (∃ c, parseSetup b = some c) ↔
      (f 0 1 = 1 ∨ f 0 1 = 2 ∨ f 0 1 = 4) ∧ f 1 1 ≤ 2 ∧ f 2 2 ≠ 0 ∧
      0 < f 4 2 ∧ f 4 2 < f 6 2 ∧ f 6 2 < f 8 2 ∧ f 8 2 < f 10 2 ∧ f 10 2 < f 12 2 ∧ f 16 2 ≠ 0 ∧ f 20 2 ≤ 4095 ∧
      f 23 1 ≠ 0 ∧ f 25 1 ≤ 3 ∧ 1 ≤ f 26 1 ∧ f 26 1 ≤ 64 ∧ f 27 1 ≤ 1 ∧ f 28 2 ≤ 1023 ∧ 64 ≤ f 30 2 ∧ f 30 2 ≤ 3072) ∧
  (∀ (b : List Byte) (c : SetupBlock), parseSetup b = some c → let f := field b
    let u := c.fields
    (c.multiplier = .x1 ↔ f 0 1 = 1) ∧ (c.multiplier = .x2 ↔ f 0 1 = 2) ∧ c.debounce = f 22 1 % 16 ∧
    u.scaleMode = f 1 1 ∧ u.scale = f 2 2 ∧ u.dDF = f 4 2 ∧ u.dMK = f 6 2 ∧ u.dCF = f 8 2 ∧ u.dCB = f 10 2 ∧
    u.dEX = f 12 2 ∧ u.tolerance = f 14 2 % 4096 ∧ u.pickWindow = f 16 2 ∧ u.gapDistance = f 18 2 ∧
    u.runInDistance = f 20 2 ∧ u.stallTime = f 23 1 ∧ u.runOffTime = f 24 1 ∧ u.pickRetries = f 25 1 ∧
    u.sampleDistance = f 26 1 ∧ (u.backCamera = true ↔ f 27 1 = 1) ∧ u.amplitudeFloor = f 28 2 ∧ u.width = f 30 2 ∧
    u.kr = f 32 1 ∧ u.kg = f 33 1 ∧ u.kb = f 34 1) ∧
  (∀ b : List Byte, let f := field b
    (∃ p, parseProfile b = some p) ↔
      f 0 1 ≠ 0 ∧ f 0 1 < f 1 1 ∧ f 4 2 ≠ 0 ∧ f 6 2 ≤ f 4 2 ∧ f 12 1 ≤ 2 ∧ f 13 1 ≤ 2 ∧ f 14 1 ≤ 4 ∧ f 15 1 ≤ 15 ∧
      (∀ i, i < f 14 1 → f (16 + 4 * i) 2 < f (18 + 4 * i) 2) ∧ f 32 1 ≤ 1 ∧ f 33 1 ≤ 1 ∧ f 36 2 ≤ f 38 2 ∧ f 40 1 ≤ 1 ∧
      f 41 1 ≤ 2 ∧ f 42 1 ≤ 2 ∧ f 43 1 ≤ 2 ∧ 65536 ≤ f 44 4 ∧ f 44 4 ≤ 4194304 ∧ f 48 2 ≠ 0 ∧ f 60 1 ≤ 1) ∧
  (∀ (b : List Byte) (p : Profile), parseProfile b = some p → let f := field b
    p.qIn = f 0 1 ∧ p.qOut = f 1 1 ∧ p.overlapMin = f 2 2 ∧ p.lMax = f 4 2 ∧ p.nominal = f 6 2 ∧ p.longTol = f 8 2 ∧
    p.shortTol = f 10 2 ∧ p.suspectAction.rank = f 12 1 + 1 ∧ p.shortAction.rank = f 13 1 + 1 ∧ p.group = f 15 1 ∧
    p.zones.length = f 14 1 ∧ (∀ i z, p.zones[i]? = some z → z = (f (16 + 4 * i) 2, f (18 + 4 * i) 2)) ∧
    (p.markCheck = true ↔ f 32 1 = 1) ∧ (p.markWait = true ↔ f 33 1 = 1) ∧ p.markWindow = f 34 2 ∧ p.barMin = f 36 2 ∧
    p.barMax = f 38 2 ∧ (p.dividerDrop = true ↔ f 40 1 = 1) ∧ (p.sides = .front ↔ f 41 1 = 0) ∧
    (p.sides = .back ↔ f 41 1 = 1) ∧ (p.formatFront = .colour ↔ f 42 1 = 0) ∧ (p.formatFront = .grey ↔ f 42 1 = 1) ∧
    (p.formatBack = .colour ↔ f 43 1 = 0) ∧ (p.formatBack = .grey ↔ f 43 1 = 1) ∧ p.pitch = f 44 4 ∧
    p.reserveLines = f 48 2 ∧ p.repairLimit = f 50 2 ∧ p.sideMargin = f 52 2 ∧ p.topMargin = f 54 2 ∧ p.blankLimit = f 56 2 ∧
    p.bottomMargin = min 64 (f 58 1) ∧ p.inkLevel = max 1 (f 59 1) ∧ (p.blankDrop = true ↔ f 60 1 = 1)) ∧
  (∀ b : List Byte, let f := field b
    let h := parseHeader b
    h.version = f 0 4 ∧ h.profileCount = f 4 1 ∧ h.routeCount = f 5 1 ∧ h.lowMark = f 8 4 ∧ h.profiles.toNat = f 16 8 ∧
    h.routes.toNat = f 24 8 ∧ h.room.toNat = f 32 8 ∧
    (∀ t : TransportNo, h.setup[t].toNat = f (40 + 8 * t.val) 8 ∧ h.control[t].toNat = f (72 + 8 * t.val) 8 ∧
      h.status[t].toNat = f (104 + 8 * t.val) 8) ∧
    ∀ n : LaneNo, h.laneHead[n].toNat = f (168 + 16 * n.val) 8 ∧ h.laneFlush[n] = f (176 + 16 * n.val) 2) ∧
  ∀ b : List Byte, let f := field b
    let k := parseTicket b
    k.endOnEmpty = (f 1 1).testBit 0 ∧ k.stopAtCount = (f 1 1).testBit 1 ∧ k.main = f 2 1 ∧ k.alt = f 3 1 ∧ k.route = f 4 1 ∧
    k.account = f 5 1 ∧ k.batchId.toNat = f 16 4 ∧ k.expected = f 20 4 ∧ k.firstDocument.toNat = f 24 4

/-! ### Commands of a control block -/

/-- ENABLE, the end of its setup read, and DISABLE (R22 to R24). ENABLE is answered HALTING in a halting part and has its setup
block read in OFF. A bus error of that read or a block out of range is SETUP_BAD and loads nothing; a good block is loaded whole,
the transport is READY with the motor STANDING and every reason NONE, and the counter, the skip count, R and the batch counters
stay; that this holds in a HALTING part too, for an ENABLE taken before the halt, is the model's choice (log 12), and so is that a
poll timer stopped before by R163 then stays stopped (log 57). DISABLE taken in READY: OFF, the motor off and the run-off ended, R
0; the batch counters, the setup, the candidate and what the ticket holds in host memory stay; a take in flight is abandoned with
no outcome. Before the end of the step nothing but this transport differs. -/
def Obligations.EnableAndDisable : Prop :=
  (∀ (s : State) (t : TransportNo) (k : List Byte), s.takesCommand (.control t) → Posted k 1 →
    let n := BitVec.ofNat 32 (field k 4 4)
    let r : RoomInterface := { s.room with sweep := .inFlight (1 + t.val + 1) }
    (s.room.part = .halting → exec (.enable t (.data k)) s =
      .next (s.setRoom { r with answer := some { block := .control t, code := .halting, number := n + 1 } })) ∧
    (s.room.part ≠ .halting → (s.tr t).state = .off →
      exec (.enable t (.data k)) s = .next (s.setRoom { r with setupRead := some (t, n) }))) ∧
  (∀ (s : State) (t : TransportNo) (n : Word), s.room.setupRead = some (t, n) →
    let x := s.tr t
    let bad : RoomInterface :=
      { s.room with setupRead := none, answer := some { block := .control t, code := .setupBad, number := n + 1 } }
    exec (.setupReadDone t .busError) s = .next (s.setRoom { bad with evt := bad.evt ||| 0x4000#16 }) ∧
    ∀ bytes, (parseSetup bytes = none → exec (.setupReadDone t (.data bytes)) s = .next (s.setRoom bad)) ∧
      ∀ b, parseSetup bytes = some b → x.state = .off → x.motor = .standing → x.track = [] →
        let s1 := s.setRoom { s.room with setupRead := none }
        ∃ u v : State, exec (.setupReadDone t (.data bytes)) s = .next u ∧
          u = (v.finish s1 []).answer (.control t) .done n ∧ s1.OnlyTransport v t ∧
          u.room.answer = some { block := .control t, code := .done, number := n + 1 } ∧ u.room.setupRead = none ∧
          (u.tr t).state = .ready ∧ (u.tr t).motor = .standing ∧ (u.tr t).purpose = .none ∧
          (u.tr t).stopReason = .none ∧ (u.tr t).pickWait = .none ∧ (u.tr t).setup = some b.fields ∧
          (u.tr t).pos = { x.pos with multiplier := b.multiplier, debounce := b.debounce } ∧
          (u.tr t).dfu.reference = x.dfu.reference ∧ (u.tr t).batch.counters = x.batch.counters ∧
          u.room.status[t] ≠ .idle) ∧
  ∀ (s : State) (t : TransportNo) (k : List Byte), s.takesCommand (.control t) → Posted k 2 → (s.tr t).state = .ready →
    s.CountLaw →
    let n := BitVec.ofNat 32 (field k 4 4)
    let s1 := s.setRoom { s.room with sweep := .inFlight (1 + t.val + 1) }
    ∃ u v : State, exec (.disable t (.data k)) s = .next u ∧ u = (v.finish s1 []).answer (.control t) .done n ∧
      s1.OnlyTransport v t ∧ u.room.answer = some { block := .control t, code := .done, number := n + 1 } ∧
      let x := s.tr t
      let y := u.tr t
      y.state = .off ∧ y.motor = .standing ∧ y.clutch = false ∧ y.runOffTimer = none ∧ y.pos.stallTimer = none ∧
      y.dfu.reference = 0 ∧ y.batch.counters = x.batch.counters ∧ y.setup = x.setup ∧ y.batch.take = none ∧
      y.batch.candidate = x.batch.candidate ∧ y.batch.outcome = x.batch.outcome ∧ u.hostMem = s.hostMem ∧
      y.pos.counter = x.pos.counter ∧ y.pos.multiplier = x.pos.multiplier ∧ y.pos.skipCount = x.pos.skipCount

/-- The answers without effect (R22, R147, R148, R156, R167, 02 Table 2-3): a command that the transport's state does not take, a
RULE that is not for its stop or meets paper in the path, an ABORT in HELD that does, and a command or RULE argument that is not
known change nothing but the sweep's place and the answer in flight, with the answer number read plus one. A read of the block
that fails sets EVT.MEMFAULT at once, whatever command it was to give, and answers nothing. -/
def Obligations.AnswersWithoutEffect : Prop :=
  ∀ (s : State) (t : TransportNo), s.takesCommand (.control t) →
    (∀ c ∈ [Instr.enable t .busError, .disable t .busError, .pause t .busError, .resume t .busError, .abort t .busError,
        .ruleAccept t .busError, .ruleReview t .busError, .ruleRefeed t .busError, .ruleDiscard t .busError,
        .ruleClear t .busError, .unknownCommand t .busError],
      exec c s = .next (s.setRoom { s.room with sweep := .inFlight (1 + t.val + 1), evt := s.room.evt ||| 0x4000#16 })) ∧
    ∀ k : List Byte,
      let n := BitVec.ofNat 32 (field k 4 4)
      let x := s.tr t
      let reply := fun a : Answer => (.next (s.setRoom { s.room with
        sweep := .inFlight (1 + t.val + 1), answer := some { block := .control t, code := a, number := n + 1 } }) : Result)
      let clear := (∀ st, (x.pos.sensor (.station st)).level = false) ∧ x.pos.coverOpen.level = false
      let all := fun (f : Instr → Prop) => (PostedRule k 1 → f (.ruleAccept t (.data k))) ∧
        (PostedRule k 2 → f (.ruleReview t (.data k))) ∧ (PostedRule k 3 → f (.ruleRefeed t (.data k))) ∧
        (PostedRule k 4 → f (.ruleDiscard t (.data k)))
      let clearRule := fun (f : Instr → Prop) => PostedRule k 5 → f (.ruleClear t (.data k))
      (field k 0 1 = 1 → field k 1 1 = 0 ∨ 6 < field k 1 1 ∨ (field k 1 1 = 6 ∧ (field k 2 1 = 0 ∨ 5 < field k 2 1)) →
        exec (.unknownCommand t (.data k)) s = reply .unknown) ∧
      (s.room.part ≠ .halting → x.state ≠ .off → Posted k 1 → exec (.enable t (.data k)) s = reply .busy) ∧
      (x.state ≠ .ready → Posted k 2 → exec (.disable t (.data k)) s = reply .busy) ∧
      (x.state ≠ .running → Posted k 3 → exec (.pause t (.data k)) s = reply .busy) ∧
      (x.state ≠ .paused → Posted k 4 → exec (.resume t (.data k)) s = reply .busy) ∧
      (x.state = .off ∨ x.state = .ready ∨ x.state = .draining → Posted k 5 → exec (.abort t (.data k)) s = reply .busy) ∧
      (x.state = .held → ¬clear → Posted k 5 → exec (.abort t (.data k)) s = reply .pathNotClear) ∧
      (x.state ≠ .held → all (fun c => exec c s = reply .notHeld) ∧ clearRule fun c => exec c s = reply .notHeld) ∧
      (x.state = .held → x.stopReason = .suspect → clearRule fun c => exec c s = reply .wrongRuling) ∧
      (x.state = .held → x.stopReason ≠ .suspect → all fun c => exec c s = reply .wrongRuling) ∧
      (x.state = .held → x.stopReason = .suspect → ¬clear → all fun c => exec c s = reply .pathNotClear) ∧
      (x.state = .held → x.stopReason ≠ .suspect → ¬clear → clearRule fun c => exec c s = reply .pathNotClear)

/-- PAUSE taken in RUNNING (R25): DRAINING(PAUSE) with a record in the track, else PAUSED at once with the run-off begun.
RESUME taken in PAUSED (R26): RUNNING with the same batch and no retries; a run-off turns to DRIVING, a standing motor starts
with a run-in, or waits for the cover. What follows is the end of the step. That PAUSED drops a motor start which waits for the
cover is the model's choice (log 15), and so is that the gap accumulator and the trail exclusion go over from RUNNING to DRAINING
as they are (log 48). -/
def Obligations.PauseAndResume : Prop :=
  ∀ (s : State) (t : TransportNo) (k : List Byte), s.takesCommand (.control t) →
    let n := BitVec.ofNat 32 (field k 4 4)
    let x := s.tr t
    let s1 := s.setRoom { s.room with sweep := .inFlight (1 + t.val + 1) }
    let done := fun v : State => (.next ((v.finish s1 []).answer (.control t) .done n) : Result)
    (Posted k 3 → x.state = .running → x.track ≠ [] →
      exec (.pause t (.data k)) s = done (s1.setTr t { x with state := .draining, purpose := .pause })) ∧
    (Posted k 3 → x.state = .running → x.track = [] → ∃ u v : State, exec (.pause t (.data k)) s = .next u ∧
      u = (v.finish s1 []).answer (.control t) .done n ∧ s1.OnlyTransport v t ∧
      u.room.answer = some { block := .control t, code := .done, number := n + 1 } ∧
      (u.tr t).state = .paused ∧ (u.tr t).purpose = .none ∧ (u.tr t).coverWait = false ∧
      u.hold.waiting.all (·.transport != t) ∧
      (x.motor = .standing → (u.tr t).motor = .standing) ∧
      (x.motor ≠ .standing → x.cfg.runOffTime = 0 → (u.tr t).motor = .standing ∧ (u.tr t).pos.stallTimer = none) ∧
      (x.motor ≠ .standing → x.cfg.runOffTime ≠ 0 →
        (u.tr t).motor = .runOff ∧ (u.tr t).runOffTimer = some x.cfg.runOffTime)) ∧
    (Posted k 4 → x.state = .paused → ∃ v : State, exec (.resume t (.data k)) s = done v ∧ s1.OnlyTransport v t ∧
      (v.tr t).state = .running ∧ (v.tr t).purpose = .none ∧ (v.tr t).retries = 0 ∧
      (v.tr t).batch = x.batch ∧ (v.tr t).track = x.track ∧
      (x.motor = .runOff → (v.tr t).motor = .driving ∧ (v.tr t).runOffTimer = none) ∧
      (x.motor = .standing → x.pos.coverOpen.level = true → (v.tr t).motor = .standing ∧ (v.tr t).coverWait = true) ∧
      (x.motor = .standing → x.pos.coverOpen.level = false → x.cfg.runInDistance ≠ 0 → (v.tr t).motor = .runIn ∧
        (v.tr t).runInEnd = .at (x.pos.counter + BitVec.ofNat 32 x.cfg.runInDistance) ∧
        (v.tr t).pos.stallTimer = some x.cfg.stallTime) ∧
      (x.motor = .standing → x.pos.coverOpen.level = false → x.cfg.runInDistance = 0 → (v.tr t).motor = .driving))

/-- ABORT (R27, R156): DRAINING(ABORT) from RUNNING with the motor as it is, from PAUSED with the motor off, and from HELD, the
path being clear, with the WITHDRAWN records and the offender removed and counted, suspects among them, and the halt request set
for a held purpose HALT. The motor starts with a run-in when a record is left in the track, and stays STANDING when none is. The
offender's pages and reservations return side by side, FRONT before BACK (the model's choice of order, log 39); that the gap
accumulator and the trail exclusion go over from RUNNING to DRAINING as they are is the model's choice too (log 48). What follows
is the end of the step. -/
def Obligations.AbortTaken : Prop :=
  ∀ (s : State) (t : TransportNo) (k : List Byte), s.takesCommand (.control t) → Posted k 5 →
    let n := BitVec.ofNat 32 (field k 4 4)
    let x := s.tr t
    let s1 := s.setRoom { s.room with sweep := .inFlight (1 + t.val + 1) }
    let done := fun v : State => (.next ((v.finish s1 []).answer (.control t) .done n) : Result)
    let gone := x.track.filter fun r => r.life == .withdrawn
    let offender := x.track.filter fun r => r.life == .parked
    (x.state = .running →
      exec (.abort t (.data k)) s = done (s1.setTr t { x with state := .draining, purpose := .abort })) ∧
    (x.state = .paused → ∃ v : State, exec (.abort t (.data k)) s = done v ∧ s1.OnlyTransport v t ∧
      (v.tr t).state = .draining ∧ (v.tr t).purpose = .abort ∧ (v.tr t).motor = .standing ∧ (v.tr t).runOffTimer = none ∧
      (v.tr t).batch = x.batch ∧ (v.tr t).track = x.track) ∧
    (x.state = .held → x.PageLaw → (∀ st, (x.pos.sensor (.station st)).level = false) → x.pos.coverOpen.level = false →
      (∀ r ∈ x.track, ∀ q ∈ x.track, r.life = .parked → q.life = .parked → r = q) →
      ∃ v : State, s1.OnlyTransport v t ∧
        (offender = [] → exec (.abort t (.data k)) s = done v) ∧
        (∀ r ∈ offender, exec (.abort t (.data k)) s = done (v.returnSides r) ∧
          ∀ sd ended, ((v.tr t).unit sd).activity ≠ .capturing r.id ended) ∧
        (v.tr t).state = .draining ∧ (v.tr t).purpose = .abort ∧ (v.tr t).stopReason = .none ∧
        ((v.tr t).haltRequest ↔ x.haltRequest ∨ x.purpose = .halt) ∧
        (v.tr t).track = x.track.filter (fun r => r.life != .withdrawn && r.life != .parked) ∧
        (v.tr t).batch.counters.withdrawn =
          min (2 ^ 32 - 1) (x.batch.counters.withdrawn + gone.length + offender.length) ∧
        (v.tr t).batch.counters.suspectsHeld =
          min (2 ^ 32 - 1) (x.batch.counters.suspectsHeld + gone.countP (·.suspect) + offender.length) ∧
        (v.tr t).batch.counters.refed = min (2 ^ 32 - 1) (x.batch.counters.refed + offender.length) ∧
        ((v.tr t).track = [] → x.motor = .standing → (v.tr t).motor = .standing) ∧
        ((v.tr t).track ≠ [] → x.motor = .standing →
          (v.tr t).dfu.reference = x.dfu.reference ∧ (v.tr t).pos.stallTimer = some x.cfg.stallTime ∧
          (x.cfg.runInDistance = 0 → (v.tr t).motor = .driving) ∧
          (x.cfg.runInDistance ≠ 0 → (v.tr t).motor = .runIn ∧ (v.tr t).dfu.gathering = true ∧
            (v.tr t).runInEnd = .at (x.pos.counter + BitVec.ofNat 32 x.cfg.runInDistance))))

/-- ACCEPT and REVIEW for a SUSPECT stop (R147, R149, R150, R154): the WITHDRAWN records leave and are counted, the offender is
DONE with the ruling mark and counted as a held suspect and by its ruling, its sides and verdict stay, and the transport leaves
HELD by its held purpose; before the end of the step nothing but this transport differs. -/
def Obligations.RuleAcceptReview : Prop :=
  ∀ (s : State) (t : TransportNo) (k : List Byte) (r : SheetRecord), s.takesCommand (.control t) →
    let n := BitVec.ofNat 32 (field k 4 4)
    let x := s.tr t
    let s1 := s.setRoom { s.room with sweep := .inFlight (1 + t.val + 1) }
    let done := fun v : State => (.next ((v.finish s1 []).answer (.control t) .done n) : Result)
    let c := x.batch.counters
    let gone := x.track.filter fun r => r.life == .withdrawn
    let released := fun (v : State) (m : RulingMark) =>
      s1.OnlyTransport v t ∧ x.LeavesHeld (v.tr t) ∧
      (v.tr t).track = (x.track.filter fun q => q.life != .withdrawn).map (fun q =>
        if q.id = r.id then { q with life := .done, ruling := m } else q) ∧
      (v.tr t).batch.counters.withdrawn = min (2 ^ 32 - 1) (c.withdrawn + gone.length) ∧
      (v.tr t).batch.counters.suspectsHeld = min (2 ^ 32 - 1) (c.suspectsHeld + gone.countP (·.suspect) + 1)
    x.state = .held → x.stopReason = .suspect → (∀ st, (x.pos.sensor (.station st)).level = false) →
    x.pos.coverOpen.level = false → x.PageLaw → r ∈ x.track → r.life = .parked → (∀ q ∈ x.track, q.life = .parked → q = r) →
    (PostedRule k 1 → ∃ v : State, exec (.ruleAccept t (.data k)) s = done v ∧ released v .accepted ∧
      (v.tr t).batch.counters.ruledAccept = min (2 ^ 32 - 1) (c.ruledAccept + 1)) ∧
    (PostedRule k 2 → ∃ v : State, exec (.ruleReview t (.data k)) s = done v ∧ released v .review ∧
      (v.tr t).batch.counters.ruledReview = min (2 ^ 32 - 1) (c.ruledReview + 1))

/-- REFEED, DISCARD and CLEAR (R149, R151 to R154): REFEED removes the offender, DISCARD keeps it DONE with its discard mark and
its sides discarded, in both its captures end and its pages and reservations return side by side, FRONT before BACK (the model's
choice of order, log 39); CLEAR touches no record but the WITHDRAWN ones. The transport leaves HELD by its held purpose. What
follows is the end of the step. -/
def Obligations.RuleRefeedDiscardClear : Prop :=
  ∀ (s : State) (t : TransportNo) (k : List Byte), s.takesCommand (.control t) →
    let n := BitVec.ofNat 32 (field k 4 4)
    let x := s.tr t
    let s1 := s.setRoom { s.room with sweep := .inFlight (1 + t.val + 1) }
    let done := fun v : State => (.next ((v.finish s1 []).answer (.control t) .done n) : Result)
    let c := x.batch.counters
    let gone := x.track.filter fun r => r.life == .withdrawn
    let kept := x.track.filter fun r => r.life != .withdrawn
    let left := fun v : State => s1.OnlyTransport v t ∧ x.LeavesHeld (v.tr t)
    let uncaptured := fun (v : State) (r : SheetRecord) =>
      ∀ sd ended, ((v.tr t).unit sd).activity ≠ .capturing r.id ended
    x.state = .held → (∀ st, (x.pos.sensor (.station st)).level = false) → x.pos.coverOpen.level = false → x.PageLaw →
    (PostedRule k 5 → x.stopReason ≠ .suspect → ∃ v : State, exec (.ruleClear t (.data k)) s = done v ∧
      left v ∧ (v.tr t).track = kept ∧
      (v.tr t).batch.counters = { c with
        withdrawn := min (2 ^ 32 - 1) (c.withdrawn + gone.length)
        suspectsHeld := min (2 ^ 32 - 1) (c.suspectsHeld + gone.countP (·.suspect)) }) ∧
    (x.stopReason = .suspect → ∀ r ∈ x.track, r.life = .parked → (∀ q ∈ x.track, q.life = .parked → q = r) →
      (PostedRule k 3 → ∃ v : State, exec (.ruleRefeed t (.data k)) s = done (v.returnSides r) ∧ left v ∧ uncaptured v r ∧
        (v.tr t).track = kept.filter (fun q => q.id != r.id) ∧
        (v.tr t).batch.counters.withdrawn = min (2 ^ 32 - 1) (c.withdrawn + gone.length + 1) ∧
        (v.tr t).batch.counters.refed = min (2 ^ 32 - 1) (c.refed + 1) ∧
        (v.tr t).batch.counters.suspectsHeld = min (2 ^ 32 - 1) (c.suspectsHeld + gone.countP (·.suspect) + 1)) ∧
      (PostedRule k 4 → ∃ v : State, exec (.ruleDiscard t (.data k)) s = done (v.returnSides r) ∧ left v ∧ uncaptured v r ∧
        (v.tr t).track = (kept.map fun q => if q.id = r.id then { q with
          life := .done, discardMark := true, front := r.front.discarded, back := r.back.discarded } else q) ∧
        (∀ sd, (r.side sd).capture ≠ .notTaken → (r.side sd).discarded.capture = .discarded ∧
          (r.side sd).discarded.pages = [] ∧ (r.side sd).discarded.reserve = 0) ∧
        (v.tr t).batch.counters.withdrawn = min (2 ^ 32 - 1) (c.withdrawn + gone.length) ∧
        (v.tr t).batch.counters.suspectsHeld = min (2 ^ 32 - 1) (c.suspectsHeld + gone.countP (·.suspect) + 1)))

/-! ### Answers, status blocks, the halt's end -/

/-- The answer writes (R168 to R170): an answer that is written sets EVT.Tn or EVT.ROOM; a bus error sets MEMFAULT and leaves the
answer owed; a sweep that finds the block of an owed answer posted writes it again with the same code and number, clears it when
the turn is back at STATION, and leaves it owed when its read fails. The end of a status block write (R171): EVT.Tn, or MEMFAULT;
a further write owed begins with the change number risen; of the writes a step requests the first begins, or is owed, and the
others leave one owed. The end of the halt (R163): HALTED with its event exactly when every transport is OFF and nothing is in
flight. An answer is written as 10 Tables 10-7 and 10-8 lay it out, the turn last, and a status block as Table 10-9 does, its
leading copy first and its trailing copy last. The model's choices in this: the bytes of a field are written from the lowest
address up, and a bus error leaves the first bytes of the sequence written (log 8), an answer writes its code, number and turn
alone (log 25), a status block the values of the write's end (log 7) with the fields between its copies in rising order (log 54),
and the halt does not wait for a refusal write (log 35). -/
def Obligations.AnswersAndStatusWrites : Prop :=
  ((∀ (s : State) (w : AnswerWrite), s.room.answer = some w →
    let bit : BitVec 16 := match w.block with | .room => 0x1000#16 | .control t => 1#16 <<< t.val
    (∃ u, exec (.answerWriteDone .ok) s = .next u ∧ u.hostMem = writeCells s.answerInFlight s.hostMem ∧
      u = (s.setHostMem u.hostMem).setRoom { s.room with answer := none, evt := s.room.evt ||| bit }) ∧
    ∀ k, ∃ u, exec (.answerWriteDone (.busError k)) s = .next u ∧
      u.hostMem = writeCells (s.answerInFlight.take k) s.hostMem ∧ u.room.answer = none ∧
      u.room.evt = s.room.evt ||| 0x4000#16 ∧ u.room.owedOf w.block = some w ∧
      (∀ b, b ≠ w.block → u.room.owedOf b = s.room.owedOf b) ∧ { u with hostMem := s.hostMem, room := s.room } = s) ∧
  ∀ (s : State) (b : CommandBlock) (w : AnswerWrite), s.sweepReaches (blockPlace b) → s.room.owedOf b = some w →
    (∀ bytes, turnPosted bytes = true → ∃ u, exec (.owedAnswerWrite b (.data bytes)) s = .next u ∧
      u.room.answer = some w ∧ u.room.owedOf b = none ∧ u.room.evt = s.room.evt ∧ { u with room := s.room } = s) ∧
    (∀ bytes, turnPosted bytes = false → ∃ u, exec (.owedAnswerWrite b (.data bytes)) s = .next u ∧
      u.room.answer = none ∧ u.room.owedOf b = none ∧ u.room.evt = s.room.evt ∧ { u with room := s.room } = s) ∧
    ∃ u, exec (.owedAnswerWrite b .busError) s = .next u ∧ u.room.answer = none ∧ u.room.owedOf b = some w ∧
      u.room.evt = s.room.evt ||| 0x4000#16 ∧ { u with room := s.room } = s) ∧
  (∀ (s : State) (w : AnswerWrite) (k : RoomTable), s.room.answer = some w → s.room.table = some k →
    let cells := s.answerInFlight
    let held := Holds (writeCells cells s.hostMem)
    (∀ t, w.block = .control t → let a := k.control[t]
      cells.map (·.1) = [3, 4, 5, 6, 7, 0].map (byteAddress a) ∧ held a 4 (leBytes w.number.toNat 4) ∧ held a 0 [0] ∧
      ∀ b, (b, w.code) ∈ [(1, Answer.done), (2, .busy), (3, .notHeld), (4, .wrongRuling), (5, .pathNotClear), (6, .setupBad),
        (7, .halting), (8, .unknown)] → held a 3 [b]) ∧
    (w.block = .room → cells.map (·.1) = [3, 0].map (byteAddress k.room) ∧ held k.room 0 [0] ∧
      ∀ b, (b, w.code) ∈ [(1, Answer.done), (2, .badLane), (3, .busy), (8, .unknown)] → held k.room 3 [b])) ∧
  (∀ (s : State) (t : TransportNo) (owed : Bool) (k : RoomTable), s.room.status[t] = .inFlight owed → s.room.table = some k →
    let x := s.tr t
    let cells := s.statusInFlight t
    let held := Holds (writeCells cells s.hostMem) k.status[t]
    cells.map (·.1) = (List.range 64).map (byteAddress k.status[t]) ∧
    held 0 (leBytes s.room.change[t].toNat 4) ∧ held 60 (leBytes s.room.change[t].toNat 4) ∧
    (∀ b, (b, x.state) ∈ [(0, TransportState.off), (1, .ready), (2, .running), (3, .draining), (4, .paused), (5, .held)] →
      held 4 [b]) ∧
    (∀ b, (b, x.stopReason) ∈ [(0, StopReason.none), (1, .suspect), (2, .jamEarly), (3, .jamLate), (4, .trailLate), (5, .stall),
      (6, .cover), (7, .misfeed)] → held 5 [b]) ∧
    (∀ b, (b, x.pickWait) ∈ [(0, PickWait.none), (1, .runOn), (2, .runIn), (3, .trackFull), (4, .gap), (5, .tray), (6, .count),
      (7, .mark), (8, .space)] → held 6 [b]) ∧
    (∀ b, (b, x.purpose) ∈ [(0, Purpose.none), (1, .pause), (2, .endBatch), (3, .abort), (4, .halt)] → held 7 [b]) ∧
    (∀ c, x.batch.ticket = some c → held 8 (leBytes c.batchId.toNat 4)) ∧ (x.batch.ticket = none → held 8 (zeroBytes 4)) ∧
    held 12 (leBytes x.track.length 1) ∧ held 13 (leBytes x.queue.length 1) ∧ held 14 (leBytes x.pos.skipCount 1) ∧
    held 15 [0] ∧ held 16 (leBytes x.batch.counters.picked 4) ∧ held 20 (leBytes x.batch.counters.settled 4) ∧
    held 24 (leBytes x.dfu.reference 2) ∧ held 26 (zeroBytes 34)) ∧
  (∀ (s : State) (t : TransportNo) (owed : Bool), s.room.status[t] = .inFlight owed →
    let after := fun (m : List Host.Cell) (bits : BitVec 16) => (s.setHostMem m).setRoom { s.room with
      evt := s.room.evt ||| bits
      status := s.room.status.set t.val (if owed then .inFlight false else .idle) t.isLt
      change := if owed then s.room.change.set t.val (s.room.change[t] + 1) t.isLt else s.room.change }
    exec (.statusBlockWriteDone t .ok) s =
      .next (after (writeCells (s.statusInFlight t) s.hostMem) (1#16 <<< t.val)) ∧
    ∀ k, exec (.statusBlockWriteDone t (.busError k)) s =
      .next (after (writeCells ((s.statusInFlight t).take k) s.hostMem) 0x4000#16)) ∧
  (∀ (s : State) (t : TransportNo), let asked := fun (w : StatusWrite) (c : Word) => s.setRoom { s.room with
      status := s.room.status.set t.val w t.isLt, change := s.room.change.set t.val c t.isLt }
    s.requestStatuses t 0 = s ∧
    (s.room.status[t] = .idle → s.requestStatuses t 1 = asked (.inFlight false) (s.room.change[t] + 1) ∧
      ∀ n, s.requestStatuses t (n + 2) = asked (.inFlight true) (s.room.change[t] + 1)) ∧
    (s.room.status[t] ≠ .idle → ∀ n, s.requestStatuses t (n + 1) = asked (.inFlight true) s.room.change[t])) ∧
  ∀ s : State,
    let idle := (∀ t, (s.tr t).state = .off) ∧ s.room.sweep = .idle ∧ s.room.answer = none ∧
      (∀ t : TransportNo, s.room.status[t] = .idle) ∧
      ∀ n, (s.lane n).binTake = false ∧ (s.lane n).restart = false ∧ (s.lane n).handBack = none
    (s.room.part = .halting → idle → exec .partHalted s =
      .next (s.setRoom { s.room with part := .halted, evt := s.room.evt ||| 0x8000#16 })) ∧
    (s.room.part ≠ .halting ∨ ¬idle → exec .partHalted s = .next s)

/-! ### Tickets and batches -/

/-- Step 3 of a sweep for a READY transport (R88, R89, R167): the candidate is followed from the link that names it, a posted
one begins a take unless the cover is open or a take is in flight, a link that is 0 changes nothing, and a bad link or a failed read
sets MEMFAULT. A link that is followed makes the candidate AT that address, whether its ticket is taken, waits for the cover, is not
posted yet or cannot be read. That no take begins while a refusal is being written is the model's choice (log 35). -/
def Obligations.TicketFound : Prop :=
  ∀ (s : State) (t : TransportNo), s.sweepReaches (5 + t.val) → s.room.part = .active → (s.tr t).state = .ready →
    let x := s.tr t
    let past : RoomInterface := { s.room with sweep := .inFlight (5 + t.val + 1) }
    let fault : RoomInterface := { past with evt := past.evt ||| 0x4000#16 }
    let may := x.pos.coverOpen.level = false ∧ x.batch.take = none ∧ x.batch.outcome = none
    let put := fun (c : Candidate) (k : Option Addr) => s.setTr t { x with batch := { x.batch with candidate := c, take := k } }
    (∀ a link turn, x.batch.candidate = .at a → turnPosted turn = true →
      (may → exec (.ticketTake t link (.data turn)) s = .next ((put (.at a) (some a)).setRoom past)) ∧
      (¬may → exec (.ticketTake t link (.data turn)) s = .next (s.setRoom past))) ∧
    (∀ a link turn, x.batch.candidate = .at a → turnPosted turn = false →
      exec (.ticketTake t link (.data turn)) s = .next (s.setRoom past)) ∧
    (∀ a link, x.batch.candidate = .at a → exec (.ticketTake t link .busError) s = .next (s.setRoom fault)) ∧
    ((∀ a, x.batch.candidate ≠ .at a) →
      (∀ turn, exec (.ticketTake t .busError turn) s = .next (s.setRoom fault)) ∧
      ∀ link, let a := addrField link 0
        (∀ turn, a = 0 → exec (.ticketTake t (.data link) turn) s = .next (s.setRoom past)) ∧
        (∀ turn, a.toNat % 64 ≠ 0 → exec (.ticketTake t (.data link) turn) s = .next (s.setRoom fault)) ∧
        (a ≠ 0 → a.toNat % 64 = 0 →
          exec (.ticketTake t (.data link) .busError) s = .next ((put (.at a) x.batch.take).setRoom fault) ∧
          ∀ turn, let c := exec (.ticketTake t (.data link) (.data turn)) s
            (turnPosted turn = true → may → c = .next ((put (.at a) (some a)).setRoom past)) ∧
            (turnPosted turn = false ∨ ¬may → c = .next ((put (.at a) x.batch.take).setRoom past))))

/-- The end of a take (R89 to R92, 05 Table 5-2). A bus error on any read that is made abandons it with MEMFAULT. The checks in
order: the profile numbers, the route number, the route table's length, the lane, the main profile, the alt profile; the first
that fails refuses the ticket with its reason and changes nothing else. The place of the reads between the checks is the model's
choice (log 41). A ticket that passes, with an alt profile or without, starts its batch: RUNNING with fresh counters, the skip
count 0, the ticket's fields copied, the main profile active, and the conversions of each profile made at the take. -/
def Obligations.TakeEnds : Prop :=
  ∀ (s : State) (t : TransportNo) (a : Addr), (s.tr t).state = .ready → (s.tr t).batch.take = some a →
    let x := s.tr t
    let refused := fun reason : RefusalReason => (.next (s.setTr t { x with batch := { x.batch with
      take := none, outcome := some { ticket := a, code := .refused, reason, counters := {} } } }) : Result)
    let copied := fun p : Profile => ({
      profile := p
      cLMax := countsOf x.cfg.scaleMode x.cfg.scale p.lMax
      cMarkWindow := countsOf x.cfg.scaleMode x.cfg.scale p.markWindow } : ProfileCopy)
    let abandoned : Result := .next ((s.setTr t { x with
      batch := { x.batch with take := none } }).setRoom { s.room with evt := s.room.evt ||| 0x4000#16 })
    (∀ main alt route, exec (.ticketTakeDone t .busError main alt route) s = abandoned) ∧
    ∀ b table, s.room.table = some table →
      let k := parseTicket b
      let badProfile := table.profileCount ≤ k.main ∨ (k.alt ≠ 255 ∧ table.profileCount ≤ k.alt)
      (∀ main alt route, badProfile → exec (.ticketTakeDone t (.data b) main alt route) s = refused .profileRange) ∧
      (¬badProfile → table.routeCount ≤ k.route → ∀ main alt route,
        exec (.ticketTakeDone t (.data b) main alt route) s = refused .routeRange) ∧
      (¬badProfile → k.route < table.routeCount → ∀ main alt,
        exec (.ticketTakeDone t (.data b) main alt .busError) s = abandoned) ∧
      (¬badProfile → k.route < table.routeCount → ∀ rt,
        (32 < field rt 0 1 → ∀ main alt, exec (.ticketTakeDone t (.data b) main alt (.data rt)) s = refused .routeRange) ∧
        (field rt 0 1 ≤ 32 →
          (8 ≤ k.account ∨ (∃ n : LaneNo, n.val = k.account ∧ (s.lane n).state = .unused) → ∀ main alt,
            exec (.ticketTakeDone t (.data b) main alt (.data rt)) s = refused .laneRange) ∧
          ∀ n : LaneNo, n.val = k.account → (s.lane n).state ≠ .unused →
            (∀ alt, exec (.ticketTakeDone t (.data b) .busError alt (.data rt)) s = abandoned) ∧ ∀ m,
            (k.alt ≠ 255 → exec (.ticketTakeDone t (.data b) (.data m) .busError (.data rt)) s = abandoned) ∧
            (∀ q, parseProfile m = none →
              exec (.ticketTakeDone t (.data b) (.data m) (.data q) (.data rt)) s = refused .profileBad) ∧
            ∀ p, parseProfile m = some p →
              (∀ q, k.alt ≠ 255 → parseProfile q = none →
                exec (.ticketTakeDone t (.data b) (.data m) (.data q) (.data rt)) s = refused .altBad) ∧
              ∀ (alt : MemRead) (second : Option Profile),
                (k.alt = 255 ∧ second = none) ∨ (k.alt ≠ 255 ∧ ∃ q, alt = .data q ∧ parseProfile q = second ∧ second ≠ none) →
                ∃ v : State, exec (.ticketTakeDone t (.data b) (.data m) alt (.data rt)) s = .next (v.finish s []) ∧
                  s.OnlyTransport v t ∧
                  (v.tr t).state = .running ∧ (v.tr t).retries = 0 ∧ (v.tr t).pos.skipCount = 0 ∧
                  (v.tr t).pos.counter = x.pos.counter ∧ (v.tr t).batch.counters = {} ∧ (v.tr t).batch.active = .main ∧
                  (v.tr t).batch.batch = some a ∧ (v.tr t).batch.take = none ∧ (v.tr t).batch.folder = 1 ∧
                  (v.tr t).batch.document = k.firstDocument ∧ (v.tr t).batch.sheetInDoc = 0 ∧
                  (v.tr t).batch.lanesTouched = [] ∧
                  (v.tr t).batch.ticket = some { batchId := k.batchId, expected := k.expected, firstDocument := k.firstDocument,
                                                 accountLane := n, endOnEmpty := k.endOnEmpty, stopAtCount := k.stopAtCount } ∧
                  (v.tr t).batch.snapshot = some { main := copied p, alt := second.map copied, routes := parseRoutes rt } ∧
                  (x.motor = .runOff → (v.tr t).motor = .driving) ∧
                  (x.motor = .standing → x.pos.coverOpen.level = true →
                    (v.tr t).motor = .standing ∧ (v.tr t).coverWait = true)))

/-- The end of an outcome or refusal write (R28, R91, R106, R171): the candidate is AFTER the ticket, a status write is requested,
a bus error sets MEMFAULT and changes nothing else of this; a refused ticket leaves the transport READY with its counters; with an
outcome the batch is no longer current and DRAINING is left for READY, or for OFF after HALT or with the halt request, which
requests a further status write. What is written lies in the ticket as 10 Tables 10-5 and 10-6 lay it out, the turn last. That the
bytes of a field are written from the lowest address up, of which a bus error leaves the first ones written, is the model's choice
(log 8), and that the outcome is the one settled before a stop, whatever purpose an ABORT in HELD has since set, is the model's
choice (log 53). -/
def Obligations.OutcomeWriteEnds : Prop :=
  (∀ (w : OutcomeWrite) (m : List Host.Cell), let cells := outcomeCells w
    let held := Holds (writeCells cells m) w.ticket
    let c := w.counters
    cells.map (·.1) = ([6, 7] ++ (List.range 88).map (64 + ·) ++ [0]).map (byteAddress w.ticket) ∧
    (∀ b, (b, w.code) ∈ [(1, OutcomeCode.complete), (2, .short), (3, .over), (4, .aborted), (5, .interrupted), (6, .refused)] →
      held 6 [b]) ∧
    (∀ b, (b, w.reason) ∈ [(0, RefusalReason.none), (1, .profileRange), (2, .profileBad), (3, .altBad), (4, .routeRange),
      (5, .laneRange)] → held 7 [b]) ∧
    (∀ i n, [c.picked, c.settled, c.withdrawn, c.refed, c.page, c.divider, c.omitted, c.discarded, c.overrun, c.documents,
        c.folders, c.suspectsHeld, c.ruledAccept, c.ruledReview, c.passedFlagged, c.blankDropped, c.clipped, c.damaged,
        c.repaired, c.routeMisses, c.switchesObeyed, c.switchesRefused][i]? = some n →
      held (64 + 4 * i) (leBytes n 4)) ∧
    held 0 [0]) ∧
  ∀ (s : State) (t : TransportNo) (w : OutcomeWrite) (result : BusWrite), s.CountLaw → (s.tr t).batch.outcome = some w →
    let x := s.tr t
    (w.code = .refused ∧ x.state = .ready) ∨ (w.code ≠ .refused ∧ x.state = .draining) →
    ∃ u v : State, exec (.outcomeWriteDone t result) s = .next u ∧ u = v.finish s [t] ∧ (∀ i, i ≠ t → v.tr i = s.tr i) ∧
      v.hold = s.hold ∧ v.lanes = s.lanes ∧ v.writer = s.writer ∧
      u.hostMem = writeCells (landedCells result (outcomeCells w)) s.hostMem ∧
      (u.tr t).batch.candidate = .after w.ticket ∧ (u.tr t).batch.outcome = none ∧
      (u.tr t).batch.counters = x.batch.counters ∧ (u.tr t).batch.ticket = x.batch.ticket ∧ u.room.status[t] ≠ .idle ∧
      (result ≠ .ok → u.room.evt &&& 0x4000#16 ≠ 0) ∧
      (w.code = .refused → (u.tr t).state = .ready ∧ (u.tr t).batch.batch = x.batch.batch) ∧
      (w.code ≠ .refused → (u.tr t).batch.batch = none ∧ (u.tr t).batch.closure = .notAsked ∧ (u.tr t).purpose = .none ∧
        u.room.status[t] = .inFlight true ∧
        (s.room.status[t] = .idle → u.room.change[t] = s.room.change[t] + 1) ∧
        (x.purpose = .halt ∨ x.haltRequest → (u.tr t).state = .off ∧ (u.tr t).motor = .standing) ∧
        (x.purpose ≠ .halt → x.haltRequest = false → (u.tr t).state = .ready))

/-- The end of a batch (R28 to R30, R104 to R106, 05 Table 5-9). The END_ON_EMPTY and count tests turn RUNNING to DRAINING(END)
when no record is PICKED. DRAINING(PAUSE) with an empty track becomes PAUSED. A batch that drains for END, ABORT or HALT with
track and queue empty asks its closure once, of every lane it touched: a lane with an entry in its bin and nothing in flight goes
back with BATCH_END, one with a hand-back in flight, or or an entry in progress, also its first, holds the request, and one that
holds no entry is closed at once. With every lane closed the outcome is begun: by the purpose ABORTED or INTERRUPTED, else by
settled less overrun against the expected sheets, with every counter as it stands. The model's choices in this: the gap
accumulator and the trail exclusion go over from RUNNING to DRAINING as they are (log 48), a lane holds a request as said (log
19), and an outcome already begun stands (log 53). -/
def Obligations.BatchEnds : Prop :=
  (∀ x : Transport, let c := x.batch.counters
    let live := (x.track.filter fun r => r.life != .withdrawn).length
    let due := x.state = .running ∧ (∀ r ∈ x.track, r.life ≠ .picked) ∧ ∃ k, x.batch.ticket = some k ∧
      ((k.endOnEmpty = true ∧ x.pos.trayEmpty.level = true) ∨
        (k.stopAtCount = true ∧ k.expected ≠ 0 ∧ k.expected ≤ c.settled - c.overrun + live))
    (due → x.endTests = { x with state := .draining, purpose := .endBatch }) ∧ (¬due → x.endTests = x)) ∧
  (∀ x : Transport, let done := x.state = .draining ∧ x.purpose = .pause ∧ x.track = []
    let y := x.pauseDone
    (¬done → y = x) ∧
    (done → y.state = .paused ∧ y.purpose = .none ∧ y.batch = x.batch ∧ y.track = x.track ∧
      (x.motor = .standing → y.motor = .standing) ∧
      (x.motor ≠ .standing → x.cfg.runOffTime = 0 → y.motor = .standing ∧ y.pos.stallTimer = none) ∧
      (x.motor ≠ .standing → x.cfg.runOffTime ≠ 0 → y.motor = .runOff ∧ y.runOffTimer = some x.cfg.runOffTime))) ∧
  (∀ (purpose : Purpose) (expected settled overrun : Nat), let n := settled - overrun
    let code := outcomeOf purpose expected settled overrun
    (purpose = .abort → code = .aborted) ∧ (purpose = .halt → code = .interrupted) ∧
    (purpose ≠ .abort → purpose ≠ .halt →
      (0 < expected → n < expected → code = .short) ∧ (0 < expected → expected < n → code = .over) ∧
      (expected = 0 ∨ n = expected → code = .complete))) ∧
  ∀ (s : State) (t : TransportNo), let x := s.tr t
    let u := s.endBatch t
    let due := x.state = .draining ∧ (x.purpose = .endBatch ∨ x.purpose = .abort ∨ x.purpose = .halt) ∧ x.track = [] ∧
      x.queue = [] ∧ x.batch.closure = .notAsked
    let c := x.batch.counters
    let outcome : OutcomeWrite := {
      ticket := x.batch.batch.getD 0
      reason := .none
      counters := c
      code := outcomeOf x.purpose (x.batch.ticket.elim 0 (·.expected)) c.settled c.overrun }
    let written : BatchContext := { x.batch with closure := .writing, outcome := some outcome }
    let touched := x.batch.lanesTouched
    let holds := fun n => (s.lane n).handBack ≠ none ∨ ((s.lane n).state = .opened ∧
      (s.entryInProgress n = true ∨ ∃ b, (s.lane n).bin = some b ∧ 0 < b.count))
    (due → (∀ n ∈ touched, ¬holds n) → u = s.setTr t { x with batch := written }) ∧
    (due → (∃ n ∈ touched, holds n) →
      (∃ waits, (∀ n, n ∈ waits ↔ n ∈ touched ∧ holds n) ∧ u.tr t = { x with batch := { x.batch with closure := .asked waits } }) ∧
      (∀ i, i ≠ t → u.tr i = s.tr i) ∧ { u with transports := s.transports, lanes := s.lanes } = s ∧
      ∀ n, let l := s.lane n
        let asked := l.requests ++ List.replicate (touched.count n) t
        (n ∉ touched ∨ ¬holds n → u.lane n = l) ∧
        (n ∈ touched → holds n → l.handBack ≠ none ∨ s.entryInProgress n = true → u.lane n = { l with requests := asked }) ∧
        (n ∈ touched → holds n → l.handBack = none → s.entryInProgress n = false → u.lane n = { l with
          requests := asked, handBack := some { isPartial := false, batchEnd := true }, flushTimer := none,
          closeAsked := false })) ∧
    (x.state = .draining → x.batch.closure = .asked [] → u = s.setTr t { x with batch := written }) ∧
    (¬due → x.state ≠ .draining ∨ (x.batch.closure ≠ .asked [] ∧ x.batch.closure ≠ .written) → u = s)

/-! ### Lanes -/

/-- LANE_RESTART (R144, R170, R174): the command of code 1, with the lane number of the block's bytes. BAD_LANE above 7 and for
an UNUSED lane, BUSY for an OPEN lane and one with a restart, a bin take or a hand-back in flight, else DONE with the restart in
flight. The restart's end loads the flush time and gives IDLE AT the head, or STARVED with cursor HEAD for a head of 0; it keeps
the sequence number; the head pieces bound for the lane that are partly written or were broken off start again; a bus error sets
MEMFAULT and keeps the lane as it was. -/
def Obligations.LaneRestarts : Prop :=
  (∀ (s : State) (bytes : List Byte), s.takesCommand .room → Posted bytes 1 →
    let n := field bytes 2 1
    let s1 := s.setRoom { s.room with sweep := .inFlight 1 }
    let c := exec (.laneRestart (.data bytes)) s
    (8 ≤ n → c = .next (s1.answer .room .badLane 0)) ∧
    ∀ k : LaneNo, k.val = n → let l := s.lane k
      let busy := l.state = .opened ∨ l.restart ∨ l.binTake ∨ l.handBack ≠ none
      (l.state = .unused → c = .next (s1.answer .room .badLane 0)) ∧
      (l.state ≠ .unused → busy → c = .next (s1.answer .room .busy 0)) ∧
      (l.state ≠ .unused → ¬busy → c = .next ((s1.setLane k { l with restart := true }).answer .room .done 0))) ∧
  ∀ (s : State) (k : LaneNo), (s.lane k).restart = true → let l := s.lane k
    (∃ u, exec (.laneRestartReadDone k .busError) s = .next u ∧
      u = ((s.setLane k { l with restart := false }).setRoom { s.room with evt := s.room.evt ||| 0x4000#16 }).finish s [] ∧
      u.room.evt &&& 0x4000#16 ≠ 0 ∧
      (u.lane k).restart = false ∧ (u.lane k).flushTime = l.flushTime ∧ (u.lane k).sequence = l.sequence ∧
      (u.lane k).cursor = l.cursor) ∧
    ∀ bytes, ∃ v : State, exec (.laneRestartReadDone k (.data bytes)) s = .next (v.finish s []) ∧
      (∀ i, i ≠ k → v.lane i = s.lane i) ∧ v.hold = s.hold ∧ v.room = s.room ∧ v.hostMem = s.hostMem ∧
      let head := addrField bytes 0
      (v.lane k).restart = false ∧ (v.lane k).flushTime = field bytes 8 2 ∧ (v.lane k).sequence = l.sequence ∧
      (head = 0 → (v.lane k).state = .starved ∧ (v.lane k).cursor = .head) ∧
      (head ≠ 0 → (v.lane k).state = .idle ∧ (v.lane k).cursor = .at head) ∧
      ∀ t e p, (s.tr t).headPiece = some (e, p) →
        (p.lane = k → p.firstWritten ∨ p.interrupted → ∃ f : Element, (v.tr t).headPiece = some (f, { p with
          progress := 0, firstWritten := false, interrupted := false })) ∧
        (p.lane ≠ k ∨ (p.firstWritten = false ∧ p.interrupted = false) → v.tr t = s.tr t)

/-- LANE_CLOSE (R141, R170, R174), the command of code 2, and the flush timer (R139): BAD_LANE and BUSY as for a restart, but BUSY
for a FAULTED lane and not for an OPEN one; a bin with entries goes back with PARTIAL, after the entry in progress if there is
one; an empty bin is released with the cursor AT it; a lane without a bin stays as it is. A flush timer that runs out hands its
bin back with PARTIAL. A posted room control block of any other code spells the row that is answered UNKNOWN. A read of the block
that fails sets EVT.MEMFAULT at once and answers nothing (R167). -/
def Obligations.LaneClosesAndFlush : Prop :=
  (∀ s : State, s.takesCommand .room →
    ∀ c ∈ [Instr.laneRestart .busError, .laneClose .busError],
      exec c s = .next (s.setRoom { s.room with sweep := .inFlight 1, evt := s.room.evt ||| 0x4000#16 })) ∧
  (∀ (s : State) (bytes : List Byte), s.takesCommand .room → field bytes 1 1 ≠ 1 → field bytes 1 1 ≠ 2 →
    roomRow bytes = .roomUnknownCommand ∧
    exec .roomUnknownCommand s = .next ((s.setRoom { s.room with sweep := .inFlight 1 }).answer .room .unknown 0)) ∧
  (∀ (s : State) (bytes : List Byte), s.takesCommand .room → Posted bytes 2 →
    let n := field bytes 2 1
    let s1 := s.setRoom { s.room with sweep := .inFlight 1 }
    let c := exec (.laneClose (.data bytes)) s
    (8 ≤ n → c = .next (s1.answer .room .badLane 0)) ∧
    ∀ k : LaneNo, k.val = n → let l := s.lane k
      let busy := l.state = .faulted ∨ l.restart ∨ l.binTake ∨ l.handBack ≠ none
      (l.state = .unused → c = .next (s1.answer .room .badLane 0)) ∧
      (l.state ≠ .unused → busy → c = .next (s1.answer .room .busy 0)) ∧
      (l.state ≠ .unused → ¬busy →
        (l.bin = none → c = .next ((s1.finish s1 []).answer .room .done 0)) ∧
        (∀ b, l.bin = some b → s.entryInProgress k = true →
          c = .next (((s1.setLane k { l with closeAsked := true }).finish s1 []).answer .room .done 0)) ∧
        (∀ b, l.bin = some b → s.entryInProgress k = false → 0 < b.count → ∃ u, c = .next u ∧
          u = ((s1.setLane k { l with
            handBack := some { isPartial := true, batchEnd := !l.requests.isEmpty }, flushTimer := none, closeAsked := false
            }).finish s1 []).answer .room .done 0 ∧
          (u.lane k).handBack = some { isPartial := true, batchEnd := !l.requests.isEmpty } ∧ (u.lane k).bin = some b ∧
          (u.lane k).flushTimer = none) ∧
        (∀ b, l.bin = some b → s.entryInProgress k = false → b.count = 0 →
          c = .next (((s1.setLane k { l with bin := none, cursor := .at b.addr, state := .idle }).finish s1 []).answer
            .room .done 0)))) ∧
  ∀ (s : State) (k : LaneNo) (b : Bin), let l := s.lane k
    l.flushTimer.isSome → l.state = .opened → l.bin = some b → l.handBack = none →
    ∃ u, exec (.flushTimerExpiry k) s = .next u ∧
      u = (s.setLane k { l with
        handBack := some { isPartial := true, batchEnd := !l.requests.isEmpty }, flushTimer := none, closeAsked := false
        }).finish s [] ∧ (u.lane k).bin = some b ∧ (u.lane k).flushTimer = none ∧
      (u.lane k).handBack = some { isPartial := true, batchEnd := !l.requests.isEmpty }

/-- The reads of a bin take (R134): they follow the cursor; a link of 0 and a turn of STATION leave the lane STARVED, the link
followed; a bin of PART with a capacity of range opens the lane with 64 filled bytes and no entry; a misaligned bin and a bad
capacity make it FAULTED with MEMFAULT; a failed read makes it STARVED with MEMFAULT and the cursor before that read. -/
def Obligations.BinTaken : Prop :=
  ∀ (s : State) (n : LaneNo), (s.lane n).binTake = true → let l := s.lane n
    let ends := fun (link bin : MemRead) (state : LaneState) (cursor : Cursor) (b : Option Bin) (fault : Bool) =>
      ∃ u v : State, exec (.binTakeDone n link bin) s = .next u ∧ u = v.finish s [] ∧
        (∀ m, m ≠ n → v.lane m = s.lane m) ∧ v.hold = s.hold ∧ v.hostMem = s.hostMem ∧
        (∀ t, { v.tr t with batch := (s.tr t).batch } = s.tr t) ∧ (u.lane n).state = state ∧ (u.lane n).cursor = cursor ∧
        (b ≠ none → (u.lane n).bin = b) ∧ (u.lane n).flushTime = l.flushTime ∧ (u.lane n).sequence = l.sequence ∧
        (fault → u.room.evt &&& 0x4000#16 ≠ 0) ∧ (fault = false → s.EventsKept u)
    let reads := fun (link : MemRead) (a : Addr) =>
      (a.toNat % 4096 ≠ 0 → ∀ bin, ends link bin .faulted (.at a) none true) ∧
      (a.toNat % 4096 = 0 →
        ends link .busError .starved (.at a) none true ∧
        ∀ bytes, let c := field bytes 4 4
          let inRange := c % 4096 = 0 ∧ 4096 ≤ c ∧ c ≤ 16777216
          (turnPosted bytes = false → ends link (.data bytes) .starved (.at a) none false) ∧
          (turnPosted bytes = true → inRange → ends link (.data bytes) .opened (.at a)
            (some { addr := a, capacity := c, filled := 64, count := 0 }) false) ∧
          (turnPosted bytes = true → ¬inRange → ends link (.data bytes) .faulted (.at a) none true))
    (∀ a link, l.cursor = .at a → reads link a) ∧
    ((∀ a, l.cursor ≠ .at a) →
      (∀ bin, ends .busError bin .starved l.cursor none true) ∧
      (∀ link bin, addrField link 0 = 0 → ends (.data link) bin .starved l.cursor none false) ∧
      ∀ link, addrField link 0 ≠ 0 → reads (.data link) (addrField link 0))

/-- The writer's choice, and what it writes (R130, R132, R136, R137; 10 Tables 10-11 and 10-12). The idle writer looks from the
transport after its pointer for a head piece whose lane is OPEN or IDLE with nothing in flight and that no other transport's
partly written head piece blocks; none found, it stays idle; the first found is served: a bin take for an IDLE lane; else its next
entry, with the flush timer stopped and, at a piece's first entry, the lane among the batch's lanes touched; else, the room being
too small, the bin handed back as full. The room: the first entry of a freshly taken bin of the least capacity always begins, an
entry never outgrows its room, and one that is cut leaves the bin exactly full. The header has every field of Table 10-11 at its
offset, with the segments in their slots and 0 in every byte not listed, and each flag exactly when its rule sets it; a CONTINUE
entry has no segments. -/
def Obligations.WriterAndEntries : Prop :=
  (∀ s : State, s.writer.turn = none →
    let order : List TransportNo := match s.writer.pointer with | none => [0, 1, 2, 3] | some q => [q + 1, q + 2, q + 3, q]
    let serves := fun t => ∃ e p, (s.tr t).headPiece = some (e, p) ∧
      ((s.lane p.lane).state = .opened ∨ (s.lane p.lane).state = .idle) ∧ (s.lane p.lane).restart = false ∧
      (s.lane p.lane).binTake = false ∧ (s.lane p.lane).handBack = none ∧
      ∀ i, i ≠ t → ∀ f q, (s.tr i).headPiece = some (f, q) → q.lane = p.lane → q.firstWritten = false
    let u := s.lookForWork
    ((∀ t, ¬serves t) → u = s) ∧
    ∀ earlier t later e p, order = earlier ++ t :: later → (∀ i ∈ earlier, ¬serves i) → serves t →
      (s.tr t).headPiece = some (e, p) → let l := s.lane p.lane
      let turn := fun ph : TurnPhase => ({ pointer := some t, turn := some (t, ph) } : Writer)
      (l.state = .idle → u = (s.setLane p.lane { l with binTake := true }).setWriter (turn .binTake)) ∧
      ∀ b, l.state = .opened → l.bin = some b →
        let need := entryHeaderLength e p + min 64 (p.total - p.progress)
        (need ≤ b.capacity - b.filled → u.writer = turn .entry ∧ u.lane p.lane = { l with flushTimer := none } ∧
          (∀ n, n ≠ p.lane → u.lane n = s.lane n) ∧ s.OnlyTransport { u with lanes := s.lanes, writer := s.writer } t ∧
          (p.firstWritten = false → p.lane ∈ (u.tr t).batch.lanesTouched) ∧
          (p.firstWritten ∨ p.lane ∈ (s.tr t).batch.lanesTouched → u.tr t = s.tr t) ∧
          { (u.tr t) with batch := { (u.tr t).batch with lanesTouched := (s.tr t).batch.lanesTouched } } = s.tr t) ∧
        (b.capacity - b.filled < need → u = (s.setLane p.lane { l with
          handBack := some { isPartial := false, batchEnd := !l.requests.isEmpty }, flushTimer := none, closeAsked := false
          }).setWriter (turn .handBack))) ∧
  (∀ (e : Element) (p : Piece), e.verdict.segments.length ≤ 4 →
    (entryHeaderLength e p = if p.entryKind = .continuation ∨ e.verdict.segments.length ≤ 1 then 64 else 128) ∧
    entryFits e p (4096 - 64) = true ∧
    ∀ room, 64 ∣ room → entryFits e p room = true →
      let data := entryDataLength e p room
      roundUp64 (entryHeaderLength e p + data) ≤ room ∧
      (data < p.total - p.progress → entryHeaderLength e p + data = room ∧ 64 ≤ data)) ∧
  ∀ (t : TransportNo) (e : Element) (p : Piece) (room : Nat),
    let h := entryHeader t e p room
    let flag := (field h 4 2).testBit
    let image := fun f : PieceImage → Bool => ∃ i, p.image = some i ∧ f i = true
    let verdict := (field h 7 1).testBit
    let continued := p.entryKind = .continuation
    let slots := if continued then 0 else e.verdict.segments.length
    h.length = entryHeaderLength e p ∧
    field h 0 1 = (match p.image with | none => 3 | some _ => if p.firstWritten then 2 else 1) ∧ field h 1 1 = t.val ∧
    (continued ↔ p.image ≠ none ∧ p.firstWritten = true) ∧
    (p.image = none → field h 2 2 = 0 ∧ field h 30 2 = 0 ∧ field h 32 4 = 0 ∧ field h 36 4 = 0 ∧ field h 40 4 = 0) ∧
    (∀ i, p.image = some i → field h 30 2 = i.width % 2 ^ 16 ∧ field h 32 4 = i.lines % 2 ^ 32 ∧
      (∀ k, (k, i.side) ∈ [(1, Side.front), (2, .back)] → field h 2 1 = k) ∧
      ∀ k, (k, i.format) ∈ [(1, Format.colour), (2, .grey), (3, .greyRun)] → field h 3 1 = k) ∧
    (verdict 0 ↔ e.verdict.overlap = true) ∧ (verdict 1 ↔ e.verdict.long = true) ∧ (verdict 2 ↔ e.verdict.short = true) ∧
    field h 7 1 < 8 ∧ (∀ n, e.verdict.length = some n → field h 28 2 = n % 2 ^ 16) ∧
    field h 44 1 = slots % 2 ^ 8 ∧ field h 45 1 = (if continued then 0 else e.verdict.further % 2 ^ 8) ∧ field h 46 2 = 0 ∧
    (∀ i g, i < slots → e.verdict.segments[i]? = some g → field h (48 + 16 * i) 2 = g.offset % 2 ^ 16 ∧
      field h (50 + 16 * i) 2 = g.length % 2 ^ 16 ∧ field h (52 + 16 * i) 1 = (if g.exempt then 1 else 0) ∧
      field h (53 + 16 * i) 11 = 0) ∧
    (∀ i, 48 + 16 * slots ≤ i → field h i 1 = 0) ∧
    field h 6 1 = e.markResult.code ∧ field h 8 4 = e.batchId.toNat ∧ field h 12 4 = e.folder.toNat ∧
    field h 16 4 = e.document.toNat ∧ field h 20 4 = e.sheet.toNat ∧ field h 24 4 = e.sheetInDoc.toNat ∧
    field h 36 4 = entryDataLength e p room % 2 ^ 32 ∧ field h 40 4 = p.total % 2 ^ 32 ∧
    (flag 0 ↔ e.sheetFirst = false) ∧ (flag 1 ↔ entryDataLength e p room < p.total - p.progress) ∧
    (flag 2 ↔ image fun i => decide (0 < i.repaired)) ∧ (flag 3 ↔ image (·.damaged)) ∧ (flag 4 ↔ image (·.clipped)) ∧
    (flag 5 ↔ image (·.blank) ∨ (p.image = none ∧ p.blankDropped = true)) ∧ (flag 6 ↔ ∃ d, e.markResult = .divider d) ∧
    (flag 7 ↔ e.kind = .overrun) ∧ (flag 8 ↔ e.standing = .accepted) ∧ (flag 9 ↔ e.standing = .flagged) ∧
    (flag 10 ↔ p.noRoute = true) ∧ (flag 11 ↔ e.verdict.ampUnavailable = true) ∧
    (flag 12 ↔ e.verdict.lengthUnverified = true) ∧ (flag 13 ↔ e.kind = .omitted) ∧ (flag 14 ↔ e.kind = .discarded) ∧
    (flag 15 ↔ e.switchRefused = true)

/-- The end of an entry's write (R124, R129, R131, R136, R142). Well ended, the entry's bytes stand in memory, the bin's filled
bytes rise by the padded entry and its count by one, a full bin goes back, a whole piece returns its pages, ends the turn and, the
last of its element, takes the element off its queue, and a cut one keeps the turn for the next bin. On a bus error the lane is
FAULTED with MEMFAULT, the turn ends, a bin with earlier entries goes back with PARTIAL and an empty one is dropped. What follows
is the end of the step. That a bin which the entry fills goes back without PARTIAL where a LANE_CLOSE waits is the model's choice
(log 49), and so is the order in which the fields of the entry's header reach memory before a bus error (log 54), of which the
first bytes are then written (log 8). That a bin for which a LANE_CLOSE and a closure request both wait goes back with PARTIAL and
BATCH_END is the model's reading of R140 and R141 (log 20). -/
def Obligations.EntryWritten : Prop :=
  ∀ (s : State) (t : TransportNo) (e : Element) (p : Piece) (b : Bin), s.writer.turn = some (t, .entry) →
    (s.tr t).headPiece = some (e, p) → (s.lane p.lane).bin = some b →
    let data := entryDataLength e p (b.capacity - b.filled)
    let grown := { b with filled := b.filled + roundUp64 (entryHeaderLength e p + data), count := b.count + 1 }
    let l := s.lane p.lane
    (∃ v : State,
      (p.total ≤ p.progress + data →
        exec (.entryWriteDone .ok) s = .next ((v.returnPages (p.image.elim [] (·.pages)) 0).finish s []) ∧
        v.writer.turn = none ∧
        (e.pieces.filter (fun q => !q.written) = [p] → (v.tr t).queue = (s.tr t).queue.tail) ∧
        ∀ q more, e.pieces.filter (fun q => !q.written) = p :: q :: more → ∃ f : Element, (v.tr t).headPiece = some (f, q) ∧
          f.sheetFirst = true) ∧
      (p.progress + data < p.total → exec (.entryWriteDone .ok) s = .next (v.finish s []) ∧
        v.writer.turn = some (t, .handBack) ∧
        ∃ f : Element, (v.tr t).headPiece = some (f, { p with progress := p.progress + data, firstWritten := true }) ∧
          f.sheetFirst = true) ∧
      v.hostMem = writeCells (entryCells t e p b) s.hostMem ∧ v.hold = s.hold ∧
      (∀ i, i ≠ t → v.tr i = s.tr i) ∧ (∀ n, n ≠ p.lane → v.lane n = s.lane n) ∧ (v.lane p.lane).bin = some grown ∧
      (b.capacity ≤ grown.filled → (v.lane p.lane).handBack =
        some { isPartial := false, batchEnd := !l.requests.isEmpty }) ∧
      (grown.filled < b.capacity → l.closeAsked = true → (v.lane p.lane).handBack =
        some { isPartial := true, batchEnd := !l.requests.isEmpty }) ∧
      (grown.filled < b.capacity → l.closeAsked = false → l.requests ≠ [] → (v.lane p.lane).handBack =
        some { isPartial := false, batchEnd := true }) ∧
      (grown.filled < b.capacity → l.closeAsked = false → l.requests = [] → l.flushTime ≠ 0 →
        (v.lane p.lane).flushTimer = some l.flushTime ∧ (v.lane p.lane).handBack = l.handBack)) ∧
    ∀ k, ∃ v : State, exec (.entryWriteDone (.busError k)) s = .next (v.finish s []) ∧
      v.hostMem = writeCells ((entryCells t e p b).take k) s.hostMem ∧ (v.lane p.lane).state = .faulted ∧
      v.writer.turn = none ∧ v.room.evt = s.room.evt ||| 0x4000#16 ∧ v.hold = s.hold ∧
      (∀ n, n ≠ p.lane → v.lane n = s.lane n) ∧
      (0 < b.count → (v.lane p.lane).bin = some b ∧
        (v.lane p.lane).handBack = some { isPartial := true, batchEnd := !l.requests.isEmpty }) ∧
      (b.count = 0 → (v.lane p.lane).bin = none ∧ (v.lane p.lane).requests = [])

/-- The end of a hand-back (R138, R140, R143, R175). Well ended, its cells stand in memory, EVT.Ln is set, the lane has no bin,
its cursor is AFTER the bin, its sequence number has risen, and it is IDLE unless it was FAULTED; on a bus error it is FAULTED
with MEMFAULT. The header has the fields of 10 Table 10-10 at their offsets, 0 in the bytes not listed, the turn written last, and
the host's capacity and next link left alone. Well ended or failed, every closure request of the lane is met and reported closed
to its batch. The turn that waited for it goes on to a bin take of the lane, or, the lane being FAULTED, is broken off with its
piece to be written again; the writer is else left alone. The model's choices in this: after a failed hand-back the cursor is as
it was (log 28), a bus error leaves the first bytes of the sequence written (log 8), the flags are those fixed when the hand-back
began, also where a closure request arrived since (log 19), and the bytes of 0 are written after the flags and before the turn
(log 54). -/
def Obligations.HandBackEnds : Prop :=
  (∀ (b : Bin) (n : LaneNo) (sequence : Word) (h : HandBack) (m : List Host.Cell),
    let cells := handBackCells b n sequence h
    let held := Holds (writeCells cells m) b.addr
    let places := (List.range 8).map (16 + ·) ++ [2] ++ (List.range 4).map (24 + ·) ++ [1, 3] ++ (List.range 36).map (28 + ·) ++ [0]
    cells.map (·.1) = places.map (byteAddress b.addr) ∧ held 16 (leBytes b.filled 4) ∧ held 20 (leBytes b.count 4) ∧
    held 2 [BitVec.ofNat 8 n.val] ∧ held 24 (leBytes sequence.toNat 4) ∧
    held 1 [(if h.isPartial then 1 else 0) + (if h.batchEnd then 2 else 0)] ∧ held 3 [0] ∧ held 28 (zeroBytes 36) ∧
    held 0 [0]) ∧
  ∀ (s : State) (n : LaneNo) (h : HandBack) (b : Bin), (s.lane n).handBack = some h → (s.lane n).bin = some b →
    let l := s.lane n
    let cells := handBackCells b n l.sequence h
    let kept := fun v : State => (∀ m, m ≠ n → v.lane m = s.lane m) ∧ v.hold = s.hold ∧
      (∀ t, { v.tr t with batch := { (v.tr t).batch with closure := (s.tr t).batch.closure }, queue := (s.tr t).queue } = s.tr t) ∧
      (v.lane n).requests = [] ∧ ∀ t, let c := (s.tr t).batch.closure
        (t ∈ l.requests → ∀ ls, c = .asked ls → (v.tr t).batch.closure = .asked (ls.filter (· ≠ n))) ∧
        (t ∉ l.requests ∨ (∀ ls, c ≠ .asked ls) → (v.tr t).batch.closure = c)
    let waits := fun t => s.writer.turn = some (t, .handBack) ∧ ∃ e p, (s.tr t).headPiece = some (e, p) ∧ p.lane = n
    let goesOn := fun v : State => (∀ i, (v.tr i).queue = (s.tr i).queue) ∧
      (∀ t, waits t → v.writer = { s.writer with turn := some (t, .binTake) } ∧ (v.lane n).binTake = true) ∧
      ((∀ t, ¬waits t) → v.writer = s.writer ∧ (v.lane n).binTake = l.binTake)
    let breaks := fun v : State => (v.lane n).binTake = l.binTake ∧
      (∀ t, waits t → v.writer = { s.writer with turn := none } ∧ (∀ i, i ≠ t → (v.tr i).queue = (s.tr i).queue) ∧
        ∀ e p, (s.tr t).headPiece = some (e, p) → ∃ f : Element, (v.tr t).headPiece = some (f, { p with interrupted := true }) ∧
          (v.tr t).queue.tail = (s.tr t).queue.tail) ∧
      ((∀ t, ¬waits t) → v.writer = s.writer ∧ ∀ i, (v.tr i).queue = (s.tr i).queue)
    (∃ u v : State, exec (.handBackDone n .ok) s = .next u ∧ u = v.finish s [] ∧ kept v ∧
      (l.state ≠ .faulted → goesOn v) ∧ (l.state = .faulted → breaks v) ∧ u.hostMem = writeCells cells s.hostMem ∧
      (∃ rest, cells = rest ++ [(b.addr.toNat, 0)]) ∧ u.room.evt &&& (0x10#16 <<< n.val) ≠ 0 ∧
      (u.lane n).bin = none ∧ (u.lane n).cursor = .after b.addr ∧ (u.lane n).sequence = l.sequence + 1 ∧
      (u.lane n).handBack = none ∧ (u.lane n).state = if l.state = .faulted then .faulted else .idle) ∧
    ∀ k, ∃ u v : State, exec (.handBackDone n (.busError k)) s = .next u ∧ u = v.finish s [] ∧ kept v ∧
      breaks v ∧ u.hostMem = writeCells (cells.take k) s.hostMem ∧
      u.room.evt &&& 0x4000#16 ≠ 0 ∧ (u.lane n).bin = none ∧ (u.lane n).cursor = l.cursor ∧
      (u.lane n).sequence = l.sequence + 1 ∧ (u.lane n).handBack = none ∧ (u.lane n).state = .faulted

/-! ### Picks and settlement -/

/-- Picks (R34, R38, 02 Table 2-5): a command leaves at most one new record in the track of a transport, and where it does, the
transport is RUNNING with every condition of a pick met: no run-on, the motor DRIVING, at most 6 records with the new one, the
record before it past ENTRY with its gap met, paper in the tray, the count not passed, the mark of the record before it decided
under MARKWAIT, and the reservation of a sheet. The record is the newest, PICKED at the counter's value under the active
profile, its ENTRY window armed, and the clutch is engaged. -/
def Obligations.PicksOnlyInRunning : Prop :=
  ∀ (c : Instr) (s u : State), s.PageLaw → exec c s = .next u →
    ∀ t, let y := u.tr t
      y.nextId ≤ (s.tr t).nextId + 1 ∧
      ∀ r ∈ y.track, (s.tr t).nextId ≤ r.id →
        r.life = .picked ∧ r.pickPos = y.pos.counter ∧ r.selector = y.batch.active ∧ y.state = .running ∧ y.clutch = true ∧
        r.entry.leadEnd = .at (r.pickPos + BitVec.ofNat 32 y.cfg.pickWindow) ∧
        y.runOn = none ∧ y.motor = .driving ∧ y.track.length ≤ 6 ∧ y.pos.trayEmpty.level = false ∧
        r.reserve = u.needOf t ∧ r.pages = [] ∧
        (∀ k, y.batch.ticket = some k → k.stopAtCount = true → k.expected ≠ 0 →
          y.batch.counters.settled - y.batch.counters.overrun + (y.track.filter fun q => q.life != .withdrawn).length ≤
            k.expected) ∧
        ∃ rest, y.track = rest ++ [r] ∧ ∀ older q, rest = older ++ [q] →
          q.entry.trail.isSome ∧ q.gap = .met ∧ ((y.profileOf r.selector).markWait = true → q.markResult ≠ .pending)

/-- Admission (R35, R36, R38, R122 to R125). A transport that may pick and is not on the list is granted its page need at once
when the list is empty and free pages cover it, picks, and the need moves into the reservation total; else it joins the tail and
its track stays. The list is served from its head alone: a request that stands no more is withdrawn, one whose need is covered is
granted, and one that is not covered keeps all behind it waiting. At a return of pages the list is examined before and after; the
pages join the tail of the free list, and EVT.SPACE is set when the free pages come below the mark; that the withdrawals come
first is the model's choice (log 46). After the pick stage the pick-wait reason is the first unmet condition of 02 Table 2-5, and
a transport that waits for pages is on the list. -/
def Obligations.AdmissionInOrder : Prop :=
  (∀ (s : State) (t : TransportNo), (s.tr t).eligible → (∀ r ∈ s.hold.waiting, r.transport ≠ t) →
    let u := s.askAdmission t
    (∀ i, i ≠ t → u.tr i = s.tr i) ∧ s.OutsideKept u ∧
    (s.hold.waiting = [] → s.needOf t ≤ s.hold.freePages →
      u.hold.waiting = [] ∧ u.hold.free = s.hold.free ∧ u.hold.reserved = s.hold.reserved + s.needOf t ∧
      (u.tr t).clutch = true ∧ ∃ r, (u.tr t).track = (s.tr t).track ++ [r] ∧ r.life = .picked ∧ r.id = (s.tr t).nextId ∧
        r.reserve = s.needOf t ∧ r.pages = []) ∧
    (s.hold.waiting ≠ [] ∨ s.hold.freePages < s.needOf t → u.tr t = s.tr t ∧ u.hold = { s.hold with
      waiting := s.hold.waiting ++ [{ transport := t, need := s.needOf t, selector := (s.tr t).batch.active }] })) ∧
  (∀ (s : State) (r : Request) (rest : List Request), let x := s.tr r.transport
    let stands := x.eligible = true ∧ x.batch.active = r.selector
    let picks := fun v : State => v.hold.free = s.hold.free ∧ v.hold.reserved = s.hold.reserved + r.need ∧
      (∀ i, i ≠ r.transport → v.tr i = s.tr i) ∧ (v.tr r.transport).track = x.track ++ [x.newRecord s.hold.total] ∧
      (v.tr r.transport).clutch = true
    (¬stands → s.serveWaiting (r :: rest) = s.serveWaiting rest) ∧
    (stands → s.hold.freePages < r.need → s.serveWaiting (r :: rest) = s.setHold { s.hold with waiting := r :: rest }) ∧
    (stands → r.need ≤ s.hold.freePages → ∃ v : State, s.serveWaiting (r :: rest) = v.serveWaiting rest ∧ picks v)) ∧
  (∀ s : State, (∀ r ∈ s.hold.waiting, s.stands r = false) → s.serveList = s.setHold { s.hold with waiting := [] }) ∧
  (∀ (s : State) (r : Request) (rest : List Request), s.serveList.hold.waiting = r :: rest →
    s.serveList.stands r = true ∧ s.serveList.hold.freePages < r.need) ∧
  (∀ (s : State) (pages : List Nat) (reserve : Nat), let w := s.serveList
    ∃ v : State, s.returnPages pages reserve = v.serveList ∧ v.transports = w.transports ∧ v.lanes = w.lanes ∧
      v.hold.waiting = w.hold.waiting ∧ v.hold.free = w.hold.free ++ pages ∧ v.hold.reserved = w.hold.reserved - reserve ∧
      (v.hold.below = true ↔ v.hold.freePages < v.hold.lowMark) ∧
      v.room.evt = if v.hold.freePages < v.hold.lowMark ∧ w.hold.below = false then w.room.evt ||| 0x2000#16
        else w.room.evt) ∧
  ∀ (s : State) (t : TransportNo), let u := s.pickStage
    let x := u.tr t
    let c := x.batch.counters
    let live := (x.track.filter fun q => q.life != .withdrawn).length
    let newest := fun P : SheetRecord → Prop => ∀ older q, x.track = older ++ [q] → P q
    let met : List (PickWait × Prop) := [(.runOn, x.runOn = none), (.runIn, x.motor = .driving), (.trackFull, x.track.length < 6),
      (.gap, newest fun q => q.entry.trail.isSome ∧ q.gap = .met), (.tray, x.pos.trayEmpty.level = false),
      (.count, ∀ k, x.batch.ticket = some k → k.stopAtCount = true → k.expected ≠ 0 →
        c.settled - c.overrun + live < k.expected),
      (.mark, (x.profileOf x.batch.active).markWait = true → newest fun q => q.markResult ≠ .pending)]
    (x.state ≠ .running → x.pickWait = .none) ∧
    (x.state = .running → (∀ q ∈ met, q.2) → x.pickWait = .space ∧ ∃ r ∈ u.hold.waiting, r.transport = t) ∧
    (x.state = .running → ∀ earlier w later, met = earlier ++ w :: later → (∀ q ∈ earlier, q.2) → ¬w.2 → x.pickWait = w.1)

/-- The route decision (R126, R127, R174; 07 Table 7-2, 10 Table 10-4). A COMPLETE side is dropped by a blank-drop, else by the
divider images option, else sent to lane 0 for a REVIEW standing, else by the first entry of the route table whose fields all
match it: dropped, sent to the lane named, or, that lane being UNUSED, to lane 0 with NO_ROUTE, as is a side that no entry
matches. An entry with an action that is not known matches nothing. The entries are the bytes of the route table in order. -/
def Obligations.RouteDecision : Prop :=
  (∀ (p : Profile) (routes : List RouteEntry) (unused : LaneNo → Bool) (r : SheetRecord) (st : Standing) (sd : Side),
    let d := routeSide p routes unused r st sd
    let blank := (r.side sd).blank = some true
    let divider := ∃ k, r.markResult = .divider k
    let searched := ¬(blank ∧ p.blankDrop = true) ∧ ¬(divider ∧ p.dividerDrop = true) ∧ st ≠ .review
    let hit := fun e : RouteEntry =>
      (e.group = 255 ∨ e.group = p.group) ∧
      (e.side = 255 ∨ (sd = .front ∧ e.side = 0) ∨ (sd = .back ∧ e.side = 1)) ∧
      (e.standing = 255 ∨ (st = .clean ∧ e.standing = 0) ∨ (st = .flagged ∧ e.standing = 1) ∨
        (st = .accepted ∧ e.standing = 2)) ∧
      (e.blank = 255 ∨ (¬blank ∧ e.blank = 0) ∨ (blank ∧ e.blank = 1)) ∧
      (e.divider = 255 ∨ (¬divider ∧ e.divider = 0) ∨ (divider ∧ e.divider = 1)) ∧
      ((1 ≤ e.action ∧ e.action ≤ 7) ∨ e.action = 128)
    (blank → p.blankDrop = true → d = .dropped true) ∧
    (¬(blank ∧ p.blankDrop = true) → divider → p.dividerDrop = true → d = .dropped false) ∧
    (¬(blank ∧ p.blankDrop = true) → ¬(divider ∧ p.dividerDrop = true) → st = .review → d = .sent 0 false) ∧
    (searched → (∀ e ∈ routes, ¬hit e) → d = .sent 0 true) ∧
    (searched → ∀ before e after, routes = before ++ e :: after → (∀ q ∈ before, ¬hit q) → hit e →
      (e.action = 128 → d = .dropped false) ∧
      ∀ n : LaneNo, n.val = e.action → d = if unused n then .sent 0 true else .sent n false)) ∧
  ∀ b : List Byte, (parseRoutes b).length = field b 0 1 ∧ ∀ i e, (parseRoutes b)[i]? = some e →
    e.group = field b (64 + 8 * i) 1 ∧ e.side = field b (65 + 8 * i) 1 ∧ e.standing = field b (66 + 8 * i) 1 ∧
    e.blank = field b (67 + 8 * i) 1 ∧ e.divider = field b (68 + 8 * i) 1 ∧ e.action = field b (69 + 8 * i) 1

/-- A settlement (R63, R64, R86, R100 to R102, R124, R128). The head settles exactly when it is DONE, its verdict decided, its
mark result not PENDING, no side WAITING or CAPTURING and fewer than 32 elements in the queue; then the next head is tested, in
every transport, in the order of their numbers (the model's, log 38). The head record leaves the track as one element at the tail
of the queue, with its sheet number and the batch id, of the kind of R100 and of the standing of the first row of 04 Table 4-11
that holds, numbered when its mark result is NONE; every counter of 05 Table 5-8 rises as that table says, and those of no
settlement stay. A COMPLETE side of a sheet that is not OMITTED has its image piece in the lane that its route decision names, and
none when it is dropped; FRONT stands before BACK; a record with no image piece has one placeholder, in the account lane or, for
REVIEW, in lane 0; every piece of a REVIEW element goes to lane 0. The pages of the record are those of its pieces and those
returned, FRONT and then BACK (the model's choice of order, log 39); the returns may be followed by picks of transports that wait.
-/
def Obligations.Settlement : Prop :=
  (∀ (s : State) (t : TransportNo), let x := s.tr t
    let due := fun r : SheetRecord => r.life = .done ∧ r.verdict.decided = true ∧ r.markResult ≠ .pending ∧
      (∀ sd, (r.side sd).capture ≠ .waiting ∧ (r.side sd).capture ≠ .capturing) ∧ x.queue.length < 32
    (x.track = [] → ∀ n, s.settleTransport t n = s) ∧
    ∀ r rest, x.track = r :: rest → (¬due r → ∀ n, s.settleTransport t n = s) ∧
      (due r → ∀ n, s.settleTransport t (n + 1) = (s.settleHead t r).settleTransport t n)) ∧
  (∀ s : State, let all := fun (t : TransportNo) (u : State) => u.settleTransport t (u.tr t).track.length
    s.settleAll = all 3 (all 2 (all 1 (all 0 s)))) ∧
  ∀ (s : State) (t : TransportNo) (r : SheetRecord) (rest : List SheetRecord), (s.tr t).track = r :: rest →
    r.front.settled → r.back.settled → r.front.empty → r.back.empty →
    let x := s.tr t
    let fate := routeSide (x.profileOf r.selector) (x.batch.snapshot.elim [] (·.routes))
      (fun n => (s.lane n).state == .unused) r
    ∃ (y : Transport) (f b : List Nat × Nat) (e : Element),
      s.settleHead t r = ((s.setTr t y).returnPages f.1 f.2).returnPages b.1 b.2 ∧
      y.track = rest ∧ y.queue = x.queue ++ [e] ∧ y.state = x.state ∧ y.motor = x.motor ∧ y.pos = x.pos ∧
      (let c := x.batch.counters
        let d := y.batch.counters
        let up := fun a n : Nat => min (2 ^ 32 - 1) (a + n)
        let yes := fun q : Bool => if q then 1 else 0
        let kind := fun (k : Kind) (a : Nat) => if e.kind = k then up a 1 else a
        let dropped := fun sd => decide ((r.side sd).capture = .complete) && e.kind != .omitted && (r.side sd).blank == some true
          && (x.profileOf r.selector).blankDrop
        d = { c with
          settled := up c.settled 1
          page := kind .page c.page, divider := kind .divider c.divider, omitted := kind .omitted c.omitted
          discarded := kind .discarded c.discarded, overrun := kind .overrun c.overrun
          documents := if r.markResult = .noDivider then up c.documents (yes (!x.batch.begun || x.batch.newDoc)) else c.documents
          folders := if r.markResult = .noDivider then up c.folders (yes (!x.batch.begun || x.batch.newFolder)) else c.folders
          passedFlagged := up c.passedFlagged (yes (e.standing == .flagged))
          blankDropped := up c.blankDropped (yes (dropped .front) + yes (dropped .back))
          clipped := up c.clipped (yes r.front.clipped + yes r.back.clipped)
          damaged := up c.damaged (yes r.front.damaged + yes r.back.damaged)
          repaired := up c.repaired (r.front.repaired + r.back.repaired)
          routeMisses := up c.routeMisses (e.pieces.countP (·.noRoute)) }) ∧
      (r.markResult = .noDivider → y.batch.begun = true ∧ y.batch.newDoc = false ∧ y.batch.newFolder = false ∧
        y.batch.omitNext = false ∧ y.batch.folder = (if x.batch.newFolder then x.batch.folder + 1 else x.batch.folder) ∧
        (x.batch.newDoc = true → x.batch.begun = true →
          y.batch.document = x.batch.document + 1 ∧ y.batch.sheetInDoc = 1) ∧
        (x.batch.newDoc = false ∨ x.batch.begun = false →
          y.batch.document = x.batch.document ∧ y.batch.sheetInDoc = x.batch.sheetInDoc + 1)) ∧
      (r.markResult = .divider .document → y.batch.newDoc = true ∧ y.batch.document = x.batch.document) ∧
      (r.markResult = .divider .folder → y.batch.newFolder = true ∧ y.batch.newDoc = true) ∧
      (r.markResult = .divider .dropNext → y.batch.omitNext = true) ∧
      (e.pages ++ f.1 ++ b.1).Perm r.pages ∧ (e.kind = .omitted → f.2 + b.2 = r.reserve) ∧
      e.folder = y.batch.folder ∧ e.document = y.batch.document ∧ e.sheetInDoc = y.batch.sheetInDoc ∧
      e.verdict = r.verdict ∧ e.markResult = r.markResult ∧ e.sheetFirst = false ∧ e.switchRefused = r.switchRefused ∧
      (∀ n, r.sheet = some n → e.sheet = n) ∧ (∀ k, x.batch.ticket = some k → e.batchId = k.batchId) ∧
      (r.overrun → e.kind = .overrun) ∧ (r.overrun = false → r.discardMark → e.kind = .discarded) ∧
      (r.overrun = false → r.discardMark = false → r.markResult.isDivider → e.kind = .divider) ∧
      (r.overrun = false → r.discardMark = false → r.markResult.isDivider = false →
        e.kind = if x.batch.omitNext then .omitted else .page) ∧
      (r.front.damaged ∨ r.back.damaged ∨ r.overrun ∨ r.ruling = .review → e.standing = .review) ∧
      (r.front.damaged = false → r.back.damaged = false → r.overrun = false →
        (r.ruling = .accepted → e.standing = .accepted) ∧
        (r.ruling = .none → (r.verdict.action = .review ∨ r.verdict.action = .hold → e.standing = .review) ∧
          (r.verdict.action = .pass → e.standing = .flagged) ∧ (r.verdict.action = .none → e.standing = .clean))) ∧
      (e.standing = .accepted → r.ruling = .accepted) ∧
      (e.standing = .flagged → r.ruling = .none ∧ r.verdict.action = .pass) ∧
      (e.standing = .clean → r.ruling = .none ∧ r.verdict.action = .none) ∧
      (e.standing = .review → ∀ p ∈ e.pieces, p.lane = 0) ∧
      (∀ sd, (r.side sd).capture = .complete → e.kind ≠ .omitted →
        (∀ m miss, fate e.standing sd = .sent m miss →
          ∃ p ∈ e.pieces, p.lane = m ∧ p.noRoute = miss ∧ ∃ i, p.image = some i ∧ i.side = sd) ∧
        ∀ k, fate e.standing sd = .dropped k → ∀ p ∈ e.pieces, ∀ i, p.image = some i → i.side ≠ sd) ∧
      (e.kind = .omitted → ∃ p, e.pieces = [p] ∧ p.image = none) ∧
      (∀ p q, e.pieces = [p, q] → (∃ i, p.image = some i ∧ i.side = .front) ∧ ∃ i, q.image = some i ∧ i.side = .back) ∧
      e.pieces ≠ [] ∧ (∀ p ∈ e.pieces, p.image = none → e.pieces = [p] ∧ p.noRoute = false ∧
        (p.lane = if e.standing = .review then 0 else x.batch.ticket.elim 0 (·.accountLane)) ∧
        (p.blankDropped = true ↔ e.kind ≠ .omitted ∧ ∃ sd, (r.side sd).capture = .complete ∧ fate e.standing sd = .dropped true)) ∧
      ∀ p ∈ e.pieces, ∀ i, p.image = some i → (r.side i.side).capture = .complete ∧ i.pages = (r.side i.side).pages ∧
        i.bytes = (r.side i.side).image ∧ i.lines = (r.side i.side).lines ∧ i.repaired = (r.side i.side).repaired ∧
        i.damaged = (r.side i.side).damaged ∧ i.clipped = (r.side i.side).clipped ∧ i.width = x.cfg.width ∧
        i.format = (x.profileOf r.selector).format i.side ∧ (i.blank = true ↔ (r.side i.side).blank = some true)
end

