-- ==== Sys2Proof/Laws/State.lean ====
section
/-! SUPPORT. One lemma for each field and each update of State, and reading back a transport or a lane after an update. -/

namespace Sys2Proof.Machine

variable (s : State)

/-! ### setTr -/

@[simp] theorem State.setTr_hold (t : TransportNo) (x : Transport) : (s.setTr t x).hold = s.hold := rfl
@[simp] theorem State.setTr_lanes (t : TransportNo) (x : Transport) : (s.setTr t x).lanes = s.lanes := rfl
@[simp] theorem State.setTr_writer (t : TransportNo) (x : Transport) : (s.setTr t x).writer = s.writer := rfl
@[simp] theorem State.setTr_room (t : TransportNo) (x : Transport) : (s.setTr t x).room = s.room := rfl
@[simp] theorem State.setTr_hostMem (t : TransportNo) (x : Transport) : (s.setTr t x).hostMem = s.hostMem := rfl
@[simp] theorem State.setTr_pending (t : TransportNo) (x : Transport) : (s.setTr t x).pending = s.pending := rfl
@[simp] theorem State.setTr_freeIndex (t : TransportNo) (x : Transport) : (s.setTr t x).freeIndex = s.freeIndex := rfl

/-! ### setLane -/

@[simp] theorem State.setLane_transports (n : LaneNo) (x : Lane) : (s.setLane n x).transports = s.transports := rfl
@[simp] theorem State.setLane_hold (n : LaneNo) (x : Lane) : (s.setLane n x).hold = s.hold := rfl
@[simp] theorem State.setLane_writer (n : LaneNo) (x : Lane) : (s.setLane n x).writer = s.writer := rfl
@[simp] theorem State.setLane_room (n : LaneNo) (x : Lane) : (s.setLane n x).room = s.room := rfl
@[simp] theorem State.setLane_hostMem (n : LaneNo) (x : Lane) : (s.setLane n x).hostMem = s.hostMem := rfl
@[simp] theorem State.setLane_pending (n : LaneNo) (x : Lane) : (s.setLane n x).pending = s.pending := rfl
@[simp] theorem State.setLane_freeIndex (n : LaneNo) (x : Lane) : (s.setLane n x).freeIndex = s.freeIndex := rfl

/-! ### setRoom -/

@[simp] theorem State.setRoom_transports (r : RoomInterface) : (s.setRoom r).transports = s.transports := rfl
@[simp] theorem State.setRoom_hold (r : RoomInterface) : (s.setRoom r).hold = s.hold := rfl
@[simp] theorem State.setRoom_lanes (r : RoomInterface) : (s.setRoom r).lanes = s.lanes := rfl
@[simp] theorem State.setRoom_writer (r : RoomInterface) : (s.setRoom r).writer = s.writer := rfl
@[simp] theorem State.setRoom_room (r : RoomInterface) : (s.setRoom r).room = r := rfl
@[simp] theorem State.setRoom_hostMem (r : RoomInterface) : (s.setRoom r).hostMem = s.hostMem := rfl
@[simp] theorem State.setRoom_pending (r : RoomInterface) : (s.setRoom r).pending = s.pending := rfl
@[simp] theorem State.setRoom_freeIndex (r : RoomInterface) : (s.setRoom r).freeIndex = s.freeIndex := rfl

/-! ### setHold -/

@[simp] theorem State.setHold_transports (h : HoldStore) : (s.setHold h).transports = s.transports := rfl
@[simp] theorem State.setHold_hold (h : HoldStore) : (s.setHold h).hold = h := rfl
@[simp] theorem State.setHold_lanes (h : HoldStore) : (s.setHold h).lanes = s.lanes := rfl
@[simp] theorem State.setHold_writer (h : HoldStore) : (s.setHold h).writer = s.writer := rfl
@[simp] theorem State.setHold_room (h : HoldStore) : (s.setHold h).room = s.room := rfl
@[simp] theorem State.setHold_hostMem (h : HoldStore) : (s.setHold h).hostMem = s.hostMem := rfl
@[simp] theorem State.setHold_pending (h : HoldStore) : (s.setHold h).pending = s.pending := rfl
@[simp] theorem State.setHold_freeIndex (h : HoldStore) : (s.setHold h).freeIndex = s.freeIndex := rfl

/-! ### setWriter -/

@[simp] theorem State.setWriter_transports (w : Writer) : (s.setWriter w).transports = s.transports := rfl
@[simp] theorem State.setWriter_hold (w : Writer) : (s.setWriter w).hold = s.hold := rfl
@[simp] theorem State.setWriter_lanes (w : Writer) : (s.setWriter w).lanes = s.lanes := rfl
@[simp] theorem State.setWriter_writer (w : Writer) : (s.setWriter w).writer = w := rfl
@[simp] theorem State.setWriter_room (w : Writer) : (s.setWriter w).room = s.room := rfl
@[simp] theorem State.setWriter_hostMem (w : Writer) : (s.setWriter w).hostMem = s.hostMem := rfl
@[simp] theorem State.setWriter_pending (w : Writer) : (s.setWriter w).pending = s.pending := rfl
@[simp] theorem State.setWriter_freeIndex (w : Writer) : (s.setWriter w).freeIndex = s.freeIndex := rfl

/-! ### setHostMem -/

@[simp] theorem State.setHostMem_transports (m : List Host.Cell) : (s.setHostMem m).transports = s.transports := rfl
@[simp] theorem State.setHostMem_hold (m : List Host.Cell) : (s.setHostMem m).hold = s.hold := rfl
@[simp] theorem State.setHostMem_lanes (m : List Host.Cell) : (s.setHostMem m).lanes = s.lanes := rfl
@[simp] theorem State.setHostMem_writer (m : List Host.Cell) : (s.setHostMem m).writer = s.writer := rfl
@[simp] theorem State.setHostMem_room (m : List Host.Cell) : (s.setHostMem m).room = s.room := rfl
@[simp] theorem State.setHostMem_hostMem (m : List Host.Cell) : (s.setHostMem m).hostMem = m := rfl
@[simp] theorem State.setHostMem_pending (m : List Host.Cell) : (s.setHostMem m).pending = s.pending := rfl
@[simp] theorem State.setHostMem_freeIndex (m : List Host.Cell) : (s.setHostMem m).freeIndex = s.freeIndex := rfl

@[simp] theorem State.lane_setTr (t : TransportNo) (x : Transport) (k : LaneNo) : (s.setTr t x).lane k = s.lane k := rfl
@[simp] theorem State.tr_setLane (n : LaneNo) (x : Lane) (i : TransportNo) : (s.setLane n x).tr i = s.tr i := rfl
@[simp] theorem State.tr_setRoom (r : RoomInterface) (i : TransportNo) : (s.setRoom r).tr i = s.tr i := rfl
@[simp] theorem State.lane_setRoom (r : RoomInterface) (k : LaneNo) : (s.setRoom r).lane k = s.lane k := rfl
@[simp] theorem State.tr_setHold (h : HoldStore) (i : TransportNo) : (s.setHold h).tr i = s.tr i := rfl
@[simp] theorem State.lane_setHold (h : HoldStore) (k : LaneNo) : (s.setHold h).lane k = s.lane k := rfl
@[simp] theorem State.tr_setWriter (w : Writer) (i : TransportNo) : (s.setWriter w).tr i = s.tr i := rfl
@[simp] theorem State.lane_setWriter (w : Writer) (k : LaneNo) : (s.setWriter w).lane k = s.lane k := rfl
@[simp] theorem State.tr_setHostMem (m : List Host.Cell) (i : TransportNo) : (s.setHostMem m).tr i = s.tr i := rfl
@[simp] theorem State.lane_setHostMem (m : List Host.Cell) (k : LaneNo) : (s.setHostMem m).lane k = s.lane k := rfl

/-! ### Reading back -/

@[simp] theorem State.tr_setTr_self (t : TransportNo) (x : Transport) : (s.setTr t x).tr t = x := by
  simp [State.tr, State.setTr]

theorem State.tr_setTr_of_ne {t i : TransportNo} (x : Transport) (h : i ≠ t) : (s.setTr t x).tr i = s.tr i := by
  have hv : t.val ≠ i.val := fun e => h (Fin.ext e.symm)
  simp [State.tr, State.setTr, hv]

theorem State.tr_setTr (t i : TransportNo) (x : Transport) : (s.setTr t x).tr i = if i = t then x else s.tr i := by
  by_cases h : i = t
  · subst h; simp
  · simp [h, s.tr_setTr_of_ne x h]

@[simp] theorem State.lane_setLane_self (n : LaneNo) (x : Lane) : (s.setLane n x).lane n = x := by
  simp [State.lane, State.setLane]

theorem State.lane_setLane_of_ne {n k : LaneNo} (x : Lane) (h : k ≠ n) : (s.setLane n x).lane k = s.lane k := by
  have hv : n.val ≠ k.val := fun e => h (Fin.ext e.symm)
  simp [State.lane, State.setLane, hv]

/-! ### The changing forms -/

theorem State.tr_modTr (t i : TransportNo) (f : Transport → Transport) :
    (s.modTr t f).tr i = if i = t then f (s.tr t) else s.tr i := s.tr_setTr t i _

@[simp] theorem State.tr_modTr_self (t : TransportNo) (f : Transport → Transport) : (s.modTr t f).tr t = f (s.tr t) :=
  s.tr_setTr_self t _

@[simp] theorem State.lane_modLane_self (n : LaneNo) (f : Lane → Lane) : (s.modLane n f).lane n = f (s.lane n) :=
  s.lane_setLane_self n _

@[simp] theorem State.tr_modRoom (f : RoomInterface → RoomInterface) (i : TransportNo) : (s.modRoom f).tr i = s.tr i := rfl
@[simp] theorem State.tr_modLane (n : LaneNo) (f : Lane → Lane) (i : TransportNo) : (s.modLane n f).tr i = s.tr i := rfl
@[simp] theorem State.lane_modTr (t : TransportNo) (f : Transport → Transport) (k : LaneNo) :
    (s.modTr t f).lane k = s.lane k := rfl
@[simp] theorem State.lane_modRoom (f : RoomInterface → RoomInterface) (k : LaneNo) : (s.modRoom f).lane k = s.lane k := rfl
@[simp] theorem State.modRoom_room (f : RoomInterface → RoomInterface) : (s.modRoom f).room = f s.room := rfl
@[simp] theorem State.modTr_hold (t : TransportNo) (f : Transport → Transport) : (s.modTr t f).hold = s.hold := rfl
@[simp] theorem State.modTr_lanes (t : TransportNo) (f : Transport → Transport) : (s.modTr t f).lanes = s.lanes := rfl
@[simp] theorem State.modTr_writer (t : TransportNo) (f : Transport → Transport) : (s.modTr t f).writer = s.writer := rfl
@[simp] theorem State.modTr_room (t : TransportNo) (f : Transport → Transport) : (s.modTr t f).room = s.room := rfl
@[simp] theorem State.modTr_hostMem (t : TransportNo) (f : Transport → Transport) : (s.modTr t f).hostMem = s.hostMem := rfl
@[simp] theorem State.modTr_pending (t : TransportNo) (f : Transport → Transport) : (s.modTr t f).pending = s.pending := rfl
@[simp] theorem State.modTr_freeIndex (t : TransportNo) (f : Transport → Transport) : (s.modTr t f).freeIndex = s.freeIndex := rfl
@[simp] theorem State.modLane_transports (n : LaneNo) (f : Lane → Lane) : (s.modLane n f).transports = s.transports := rfl
@[simp] theorem State.modLane_hold (n : LaneNo) (f : Lane → Lane) : (s.modLane n f).hold = s.hold := rfl
@[simp] theorem State.modLane_writer (n : LaneNo) (f : Lane → Lane) : (s.modLane n f).writer = s.writer := rfl
@[simp] theorem State.modLane_room (n : LaneNo) (f : Lane → Lane) : (s.modLane n f).room = s.room := rfl
@[simp] theorem State.modLane_hostMem (n : LaneNo) (f : Lane → Lane) : (s.modLane n f).hostMem = s.hostMem := rfl
@[simp] theorem State.modLane_pending (n : LaneNo) (f : Lane → Lane) : (s.modLane n f).pending = s.pending := rfl
@[simp] theorem State.modLane_freeIndex (n : LaneNo) (f : Lane → Lane) : (s.modLane n f).freeIndex = s.freeIndex := rfl
@[simp] theorem State.modRoom_transports (f : RoomInterface → RoomInterface) : (s.modRoom f).transports = s.transports := rfl
@[simp] theorem State.modRoom_hold (f : RoomInterface → RoomInterface) : (s.modRoom f).hold = s.hold := rfl
@[simp] theorem State.modRoom_lanes (f : RoomInterface → RoomInterface) : (s.modRoom f).lanes = s.lanes := rfl
@[simp] theorem State.modRoom_writer (f : RoomInterface → RoomInterface) : (s.modRoom f).writer = s.writer := rfl
@[simp] theorem State.modRoom_hostMem (f : RoomInterface → RoomInterface) : (s.modRoom f).hostMem = s.hostMem := rfl
@[simp] theorem State.modRoom_pending (f : RoomInterface → RoomInterface) : (s.modRoom f).pending = s.pending := rfl
@[simp] theorem State.modRoom_freeIndex (f : RoomInterface → RoomInterface) : (s.modRoom f).freeIndex = s.freeIndex := rfl

end Sys2Proof.Machine
end

