-- ==== Sys2Proof/Laws/Memory.lean ====
section
/-! SUPPORT. Host memory as the part has written it: a read after a write, the frame of a write, and the canonical form that
every write keeps. -/

namespace Sys2Proof.Machine

theorem readCell_writeCell_self (a : Nat) (x : Byte) (m : List Host.Cell) : readCell a (writeCell a x m) = some x := by
  induction m with
  | nil => simp [writeCell, readCell]
  | cons c rest ih =>
    obtain ⟨b, y⟩ := c
    simp only [writeCell]
    split
    · simp [readCell]
    · split
      · simp [readCell]
      · rename_i h1 h2; simp [readCell, h2, ih]

theorem readCell_writeCell_of_ne {a b : Nat} (x : Byte) (m : List Host.Cell) (h : a ≠ b) :
    readCell a (writeCell b x m) = readCell a m := by
  induction m with
  | nil => simp [writeCell, readCell, h]
  | cons c rest ih =>
    obtain ⟨d, y⟩ := c
    simp only [writeCell]
    split
    · simp [readCell, h]
    · split
      · rename_i h1 h2; subst h2; simp [readCell, h]
      · simp [readCell, ih]

/-- The addresses of a canonical memory lie above a. -/
def Memory.above (a : Nat) (m : List Host.Cell) : Prop := ∀ c ∈ m, a < c.1

theorem Memory.wf_cons {a : Nat} {x : Byte} {m : List Host.Cell} :
    Memory.wf ((a, x) :: m) = true ↔ Memory.above a m ∧ Memory.wf m = true := by
  induction m generalizing a x with
  | nil => simp [Memory.wf, Memory.above]
  | cons c rest ih =>
    obtain ⟨b, y⟩ := c
    simp only [Memory.wf, Bool.and_eq_true, decide_eq_true_eq, ih, Memory.above, List.mem_cons, forall_eq_or_imp]
    constructor
    · rintro ⟨h, hb, hw⟩; exact ⟨⟨h, fun c hc => lt_trans h (hb c hc)⟩, hb, hw⟩
    · rintro ⟨⟨h, -⟩, hb, hw⟩; exact ⟨h, hb, hw⟩

theorem Memory.above_writeCell {a b : Nat} {x : Byte} {m : List Host.Cell} (h : Memory.above a m) (hab : a < b) :
    Memory.above a (writeCell b x m) := by
  induction m with
  | nil => simpa [writeCell, Memory.above] using hab
  | cons c rest ih =>
    obtain ⟨d, y⟩ := c
    have hr : Memory.above a rest := fun c hc => h c (List.mem_cons_of_mem _ hc)
    have hd : a < d := h (d, y) (List.mem_cons_self ..)
    simp only [writeCell]
    split
    · intro c hc; rcases List.mem_cons.mp hc with rfl | hc
      · exact hab
      · exact h c hc
    · split
      · intro c hc; rcases List.mem_cons.mp hc with rfl | hc
        · exact hab
        · exact hr c hc
      · intro c hc; rcases List.mem_cons.mp hc with rfl | hc
        · exact hd
        · exact ih hr c hc

/-- A write keeps the addresses strictly rising. -/
theorem Memory.wf_writeCell (a : Nat) (x : Byte) {m : List Host.Cell} (h : Memory.wf m = true) :
    Memory.wf (writeCell a x m) = true := by
  induction m with
  | nil => simp [writeCell, Memory.wf]
  | cons c rest ih =>
    obtain ⟨b, y⟩ := c
    obtain ⟨hb, hw⟩ := Memory.wf_cons.mp h
    simp only [writeCell]
    split
    · rename_i hlt
      exact Memory.wf_cons.mpr ⟨fun c hc => by
        rcases List.mem_cons.mp hc with rfl | hc
        · exact hlt
        · exact lt_trans hlt (hb c hc), h⟩
    · split
      · rename_i heq; subst heq; exact Memory.wf_cons.mpr ⟨hb, hw⟩
      · rename_i h1 h2
        exact Memory.wf_cons.mpr ⟨Memory.above_writeCell hb (by omega), ih hw⟩

theorem Memory.wf_writeCells (cells : List Host.Cell) {m : List Host.Cell} (h : Memory.wf m = true) :
    Memory.wf (writeCells cells m) = true := by
  unfold writeCells
  induction cells generalizing m with
  | nil => exact h
  | cons c rest ih => exact ih (Memory.wf_writeCell c.1 c.2 h)

/-- An address that no write of a sequence names reads as before. -/
theorem readCell_writeCells_of_unnamed {a : Nat} {cells : List Host.Cell} (m : List Host.Cell) (h : ∀ c ∈ cells, c.1 ≠ a) :
    readCell a (writeCells cells m) = readCell a m := by
  unfold writeCells
  induction cells generalizing m with
  | nil => rfl
  | cons c rest ih =>
    simp only [List.foldl_cons]
    rw [ih _ fun d hd => h d (List.mem_cons_of_mem _ hd),
      readCell_writeCell_of_ne _ _ (fun e => h c (List.mem_cons_self ..) e.symm)]

/-- A cell of a sequence that names each address once stands in memory after it. -/
theorem readCell_writeCells_of_mem {a : Nat} {x : Byte} {cells : List Host.Cell} (m : List Host.Cell)
    (hn : (cells.map (·.1)).Nodup) (h : (a, x) ∈ cells) : readCell a (writeCells cells m) = some x := by
  induction cells generalizing m with
  | nil => cases h
  | cons c rest ih =>
    rw [List.map_cons, List.nodup_cons] at hn
    rcases List.mem_cons.mp h with rfl | h
    · show readCell a (writeCells rest (writeCell a x m)) = some x
      rw [readCell_writeCells_of_unnamed _ fun d hd e => hn.1 (List.mem_map.mpr ⟨d, hd, e⟩), readCell_writeCell_self]
    · exact ih _ hn.2 h

/-- The bytes that a sequence writes from an offset on name the addresses of those offsets, in order. -/
theorem map_fst_cellsAt (base : Addr) (o : Nat) (bytes : List Byte) :
    (cellsAt base o bytes).map (·.1) = (List.range bytes.length).map fun i => byteAddress base (o + i) := by
  induction bytes generalizing o with
  | nil => simp [cellsAt]
  | cons x rest ih =>
    simp [cellsAt, byteAddress, ih, List.range_succ_eq_map, Function.comp_def, Nat.add_right_comm, Nat.add_assoc]

theorem mem_cellsAt (base : Addr) (o i : Nat) {bytes : List Byte} {x : Byte} (h : bytes[i]? = some x) :
    (byteAddress base (o + i), x) ∈ cellsAt base o bytes := by
  induction bytes generalizing o i with
  | nil => simp at h
  | cons y rest ih =>
    cases i with
    | zero => simp at h; subst h; simp [cellsAt, byteAddress]
    | succ i =>
      have := ih (o + 1) i (by simpa using h)
      rw [show o + 1 + i = o + (i + 1) by omega] at this
      exact List.mem_cons_of_mem _ this

theorem nodup_byteAddress (base : Addr) {places : List Nat} (hn : places.Nodup) (hb : ∀ o ∈ places, o < 2 ^ 64) :
    (places.map (byteAddress base)).Nodup := by
  refine List.Nodup.map_on (fun x hx y hy h => ?_) hn
  have e : BitVec.ofNat 64 x = BitVec.ofNat 64 y := by simpa [byteAddress] using BitVec.eq_of_toNat_eq h
  have := congrArg BitVec.toNat e
  have := hb x hx
  have := hb y hy
  simp only [BitVec.toNat_ofNat] at *
  omega

/-- A write sequence over distinct places of a record leaves each field of it in memory. -/
theorem Holds.of_writes {cells : List Host.Cell} {base : Addr} {places : List Nat} {o : Nat} {bytes : List Byte}
    (m : List Host.Cell) (hp : cells.map (·.1) = places.map (byteAddress base)) (hn : places.Nodup)
    (hb : ∀ o ∈ places, o < 2 ^ 64) (h : ∀ c ∈ cellsAt base o bytes, c ∈ cells) : Holds (writeCells cells m) base o bytes :=
  fun i _ hx => readCell_writeCells_of_mem m (hp ▸ nodup_byteAddress base hn hb) (h _ (mem_cellsAt base o i hx))

theorem mem_of_mem_landedCells {r : BusWrite} {cells : List Host.Cell} {c : Host.Cell} (h : c ∈ landedCells r cells) :
    c ∈ cells := by
  cases r with
  | ok => exact h
  | busError n => exact List.mem_of_mem_take h

/-- A write sequence that ends keeps the canonical form. -/
theorem State.wf_hostWrite (s : State) (r : BusWrite) (cells : List Host.Cell) (h : Memory.wf s.hostMem = true) :
    Memory.wf (s.hostWrite r cells).hostMem = true := Memory.wf_writeCells _ h

/-- The frame of a write sequence: every address that it does not name reads as before. -/
theorem State.readCell_hostWrite (s : State) (r : BusWrite) {cells : List Host.Cell} {a : Nat} (h : ∀ c ∈ cells, c.1 ≠ a) :
    readCell a (s.hostWrite r cells).hostMem = readCell a s.hostMem :=
  readCell_writeCells_of_unnamed _ fun c hc => h c (mem_of_mem_landedCells hc)

end Sys2Proof.Machine
end

