-- ==== Sys2Proof/Laws/Frames.lean ====
section
/-! SUPPORT. The frame of the shared operations, one lemma each: none of them touches host memory, the queue, the position
counters and sensors, the loaded setups, or the Room Interface beyond EVT, the status writes, the poll timer and the pending
flag. -/

namespace Sys2Proof.Machine

theorem Transport.KeepsPath.refl (x : Transport) : x.KeepsPath x := ⟨rfl, rfl⟩

theorem Transport.KeepsPath.trans {x y z : Transport} (h : x.KeepsPath y) (g : y.KeepsPath z) : x.KeepsPath z :=
  ⟨g.1.trans h.1, g.2.trans h.2⟩

theorem Transport.KeepsPath.of_eq {x y : Transport} (hp : y.pos = x.pos) (hs : y.setup = x.setup) : x.KeepsPath y :=
  ⟨by rw [hp], hs⟩

namespace State

variable {s u v : State} {t : TransportNo}

theorem Quiet.refl (s : State) : s.Quiet s := ⟨rfl, rfl, rfl, rfl, fun _ => .refl _⟩

theorem Quiet.trans (h : s.Quiet u) (g : u.Quiet v) : s.Quiet v :=
  ⟨g.hostMem.trans h.hostMem, g.pending.trans h.pending, g.freeIndex.trans h.freeIndex, g.room.trans h.room,
    fun i => (h.path i).trans (g.path i)⟩

theorem Quiet.modTr {f : Transport → Transport} (h : ∀ x : Transport, x.KeepsPath (f x)) : s.Quiet (s.modTr t f) :=
  ⟨rfl, rfl, rfl, rfl, fun i => by
    rw [State.tr_modTr]; split
    · rename_i e; subst e; exact h _
    · exact .refl _⟩

theorem Quiet.setTr {x : Transport} (h : (s.tr t).KeepsPath x) : s.Quiet (s.setTr t x) :=
  ⟨rfl, rfl, rfl, rfl, fun i => by
    rw [State.tr_setTr]; split
    · rename_i e; subst e; exact h
    · exact .refl _⟩

theorem Quiet.modLane {n : LaneNo} {f : Lane → Lane} : s.Quiet (s.modLane n f) := ⟨rfl, rfl, rfl, rfl, fun _ => .refl _⟩

theorem Quiet.setHold {h : HoldStore} : s.Quiet (s.setHold h) := ⟨rfl, rfl, rfl, rfl, fun _ => .refl _⟩

theorem Quiet.setWriter {w : Writer} : s.Quiet (s.setWriter w) := ⟨rfl, rfl, rfl, rfl, fun _ => .refl _⟩

theorem Quiet.modRoom {f : RoomInterface → RoomInterface} (h : (f s.room).core = s.room.core) : s.Quiet (s.modRoom f) :=
  ⟨rfl, rfl, rfl, h, fun _ => .refl _⟩

theorem Quiet.setEvent {e : Event} : s.Quiet (s.setEvent e) := .modRoom rfl

theorem Quiet.foldl {α : Type} {f : State → α → State} (h : ∀ (s : State) (a : α), s.Quiet (f s a)) (l : List α) :
    s.Quiet (l.foldl f s) := by
  induction l generalizing s with
  | nil => exact .refl _
  | cons a rest ih => exact (h s a).trans ih

theorem Quiet.ite {p : Prop} [Decidable p] (h : s.Quiet u) (g : s.Quiet v) : s.Quiet (if p then u else v) := by
  split
  · exact h
  · exact g

end State

/-! ### Transport operations -/

namespace Transport

variable (x : Transport)

theorem keeps_modRecord (id : Nat) (f : SheetRecord → SheetRecord) : x.KeepsPath (x.modRecord id f) := .of_eq rfl rfl

theorem keeps_setUnit (sd : Side) (u : CaptureUnit) : x.KeepsPath (x.setUnit sd u) := by cases sd <;> exact .of_eq rfl rfl

theorem keeps_endCaptures (id : Nat) : x.KeepsPath (x.endCaptures id) := .of_eq rfl rfl

theorem keeps_abandonRunIn : x.KeepsPath x.abandonRunIn := by
  unfold abandonRunIn; split
  · exact .of_eq rfl rfl
  · exact .refl _

theorem keeps_motorOff : x.KeepsPath x.motorOff := by
  unfold motorOff abandonRunIn; split <;> exact ⟨rfl, rfl⟩

theorem keeps_finishRunIn : x.KeepsPath x.finishRunIn := .of_eq rfl rfl

theorem keeps_startRunIn : x.KeepsPath x.startRunIn := by
  unfold startRunIn; split <;> exact ⟨rfl, rfl⟩

theorem keeps_startMotor : x.KeepsPath x.startMotor := by
  unfold startMotor; split
  · split
    · exact .of_eq rfl rfl
    · exact x.keeps_startRunIn
  · exact .of_eq rfl rfl
  · exact .refl _
  · exact .refl _

theorem keeps_beginRunOff : x.KeepsPath x.beginRunOff := by
  unfold beginRunOff; split
  · dsimp only; split
    · exact x.keeps_abandonRunIn.trans (keeps_motorOff _)
    · exact x.keeps_abandonRunIn.trans (.of_eq rfl rfl)
  · exact .refl _

theorem keeps_freshEntry : x.KeepsPath x.freshEntry := .of_eq rfl rfl

theorem keeps_enterRunning : x.KeepsPath x.enterRunning :=
  (KeepsPath.of_eq rfl rfl : x.KeepsPath ({ x with state := .running, purpose := .none } : Transport).freshEntry).trans
    (keeps_startMotor _)

theorem keeps_leaveDraining : x.KeepsPath x.leaveDraining := by
  unfold leaveDraining; dsimp only; split
  · exact (KeepsPath.of_eq rfl rfl).trans (keeps_motorOff _)
  · exact (KeepsPath.of_eq rfl rfl).trans (keeps_beginRunOff _)

theorem keeps_endCondition : x.KeepsPath x.endCondition := by
  unfold endCondition; split
  · exact .of_eq rfl rfl
  · split
    · exact .of_eq rfl rfl
    · exact .refl _

theorem keeps_endTests : x.KeepsPath x.endTests := by
  unfold endTests; split
  · exact x.keeps_endCondition
  · exact .refl _

theorem keeps_switchDecision (id : Nat) : x.KeepsPath (x.switchDecision id) := by
  unfold switchDecision; split <;> exact .of_eq rfl rfl

theorem keeps_decisionEffects (id : Nat) (r : MarkResult) : x.KeepsPath (x.decisionEffects id r) := by
  unfold decisionEffects
  split
  · exact x.keeps_switchDecision id
  · exact (KeepsPath.of_eq rfl rfl).trans (keeps_endCondition _)
  all_goals exact .refl _

theorem keeps_decideMark (r : SheetRecord) (close : Pos) : x.KeepsPath (x.decideMark r close) :=
  (KeepsPath.of_eq rfl rfl).trans (keeps_decisionEffects _ _ _)

theorem keeps_markWindowExpired : x.KeepsPath x.markWindowExpired := by
  unfold markWindowExpired; split
  · split
    · exact x.keeps_decideMark _ _
    · exact .of_eq rfl rfl
  · exact .refl _
  · exact .refl _

theorem keeps_markLead (r : SheetRecord) (latch : Pos) : x.KeepsPath (x.markLead r latch) := by
  unfold markLead; split
  · dsimp only; split
    · exact (KeepsPath.of_eq rfl rfl).trans (keeps_markWindowExpired _)
    · exact .of_eq rfl rfl
  · exact .of_eq rfl rfl

theorem keeps_markTrail (r : SheetRecord) (trail : Pos) : x.KeepsPath (x.markTrail r trail) := by
  unfold markTrail; split
  · exact x.keeps_decideMark _ _
  · exact .refl _

theorem keeps_dfLead (id : Nat) : x.KeepsPath (x.dfLead id) := by
  unfold dfLead; dsimp only; split <;> exact .of_eq rfl rfl

theorem keeps_dfTrail (id : Nat) (trail : Pos) : x.KeepsPath (x.dfTrail id trail) := by
  unfold dfTrail; dsimp only; split
  · split <;> exact .of_eq rfl rfl
  · exact .of_eq rfl rfl

theorem keeps_foldl {α : Type} {f : Transport → α → Transport} (h : ∀ (x : Transport) (a : α), x.KeepsPath (f x a)) (l : List α) :
    x.KeepsPath (l.foldl f x) := by
  induction l generalizing x with
  | nil => exact .refl _
  | cons a rest ih => exact (h x a).trans (ih _)

theorem keeps_stopped (reason : StopReason) : x.KeepsPath (x.stopped reason) :=
  (x.keeps_motorOff.trans (keeps_foldl _ (fun y (r : SheetRecord) => y.keeps_endCaptures r.id) _)).trans (.of_eq rfl rfl)

theorem keeps_laneClosed (n : LaneNo) : x.KeepsPath (x.laneClosed n) := by
  unfold laneClosed; split
  · exact .of_eq rfl rfl
  all_goals exact .refl _

theorem keeps_touch (n : LaneNo) : x.KeepsPath (x.touch n) := by
  unfold touch; split
  · exact .refl _
  · exact .of_eq rfl rfl

theorem keeps_modHeadPiece (f : Piece → Piece) : x.KeepsPath (x.modHeadPiece f) := by
  unfold modHeadPiece; split
  · exact .refl _
  · exact .of_eq rfl rfl

theorem keeps_pauseDone : x.KeepsPath x.pauseDone := by
  unfold pauseDone; split
  · exact (KeepsPath.of_eq rfl rfl).trans (keeps_beginRunOff _)
  · exact .refl _

theorem keeps_dropProvisional : x.KeepsPath x.dropProvisional := by
  unfold dropProvisional; split
  · exact .of_eq rfl rfl
  · exact .refl _

end Transport

/-! ### Hold store and capture -/

namespace State

variable (s : State) (t : TransportNo) (sd : Side)

theorem quiet_refreshMark : s.Quiet s.refreshMark := by
  unfold refreshMark; dsimp only; exact Quiet.ite (Quiet.setHold.trans Quiet.setEvent) Quiet.setHold

theorem quiet_takeBack (pages : List Nat) (n : Nat) : s.Quiet (s.takeBack pages n) :=
  Quiet.setHold.trans (quiet_refreshMark _)

theorem quiet_reserve (n : Nat) : s.Quiet (s.reserve n) := Quiet.setHold.trans (quiet_refreshMark _)

theorem quiet_grant (need : Nat) : s.Quiet (s.grant t need) :=
  (quiet_reserve _ _).trans (Quiet.modTr fun _ => by exact ⟨rfl, rfl⟩)

theorem quiet_serveWaiting (l : List Request) : s.Quiet (s.serveWaiting l) := by
  induction l generalizing s with
  | nil => exact Quiet.setHold
  | cons r rest ih =>
    unfold serveWaiting
    exact Quiet.ite (Quiet.ite ((quiet_grant _ _ _).trans (ih _)) Quiet.setHold) (ih _)

theorem quiet_serveList : s.Quiet s.serveList := quiet_serveWaiting _ _

theorem quiet_returnPages (pages : List Nat) (n : Nat) : s.Quiet (s.returnPages pages n) :=
  ((quiet_serveList _).trans (quiet_takeBack _ _ _)).trans (quiet_serveList _)

theorem quiet_returnSides (r : SheetRecord) : s.Quiet (s.returnSides r) :=
  (quiet_returnPages _ _ _).trans (quiet_returnPages _ _ _)

theorem quiet_storeLine (x : SideRecord) (line : List Byte) : s.Quiet (s.storeLine x line).1 := by
  unfold storeLine
  split
  · exact .refl _
  · split
    · exact .refl _
    · split
      · exact .refl _
      · split
        · exact Quiet.setHold
        · split
          · exact Quiet.setHold.trans (quiet_refreshMark _)
          · exact .refl _

theorem quiet_takeLine (pixels : List Pixel) (isRepair : Bool) : s.Quiet (s.takeLine t sd pixels isRepair) := by
  unfold takeLine
  split
  · exact .refl _
  · dsimp only
    exact (quiet_storeLine _ _ _).trans (Quiet.modTr fun x => (x.keeps_modRecord _ _).trans (Transport.keeps_setUnit _ _ _))

theorem quiet_repairLine : s.Quiet (s.repairLine t sd) := quiet_takeLine _ _ _ _ _

theorem quiet_repairLines (n : Nat) : s.Quiet (s.repairLines t sd n) := by
  induction n generalizing s with
  | zero => exact .refl _
  | succ n ih => exact (s.quiet_repairLine t sd).trans (ih _)

theorem quiet_triggerLine : s.Quiet (s.triggerLine t sd) := by
  unfold triggerLine; dsimp only
  exact (Quiet.ite (quiet_repairLine _ _ _) (.refl _)).trans (Quiet.modTr fun x => x.keeps_setUnit _ _)

theorem quiet_completeSide : s.Quiet (s.completeSide t sd) := by
  unfold completeSide; dsimp only
  split
  · exact Quiet.modTr fun x => x.keeps_setUnit _ _
  · exact (Quiet.modTr fun x => (x.keeps_modRecord _ _).trans (Transport.keeps_setUnit _ _ _)).trans (quiet_returnPages _ _ _)

theorem quiet_repairAndComplete : s.Quiet (s.repairAndComplete t sd) :=
  (quiet_repairLines _ _ _ _).trans (quiet_completeSide _ _ _)

theorem quiet_beginCapture (id : Nat) : s.Quiet (s.beginCapture t sd id) :=
  (Quiet.modTr fun x => (x.keeps_modRecord _ _).trans (Transport.keeps_setUnit _ _ _)).trans (quiet_triggerLine _ _ _)

theorem quiet_captureStart (id : Nat) : s.Quiet (s.captureStart t sd id) := by
  unfold captureStart; split
  · exact quiet_beginCapture _ _ _ _
  · exact Quiet.ite ((quiet_repairAndComplete _ _ _).trans (quiet_beginCapture _ _ _ _)) (.refl _)

theorem quiet_captureEnd (id : Nat) : s.Quiet (s.captureEnd t sd id) := by
  unfold captureEnd; dsimp only
  have h : s.Quiet (s.modTr t fun x =>
      (x.modRecord id fun r => r.setSide sd { r.side sd with windowEnd := .idle }).setUnit sd
        { x.unit sd with activity := .capturing id true, packetWait := true }) :=
    Quiet.modTr fun x => (x.keeps_modRecord _ _).trans (Transport.keeps_setUnit _ _ _)
  exact Quiet.ite (h.trans (quiet_completeSide _ _ _)) h

theorem quiet_captureCount (forward : Bool) : s.Quiet (s.captureCount t sd forward) := by
  unfold captureCount; dsimp only
  split
  · refine Quiet.ite (.refl _) (Quiet.ite (Quiet.modTr fun x => x.keeps_setUnit _ _)
      (Quiet.ite (Quiet.modTr fun x => x.keeps_setUnit _ _) (Quiet.ite ?_ (Quiet.modTr fun x => x.keeps_setUnit _ _))))
    exact (Quiet.modTr fun x => x.keeps_setUnit _ _).trans (quiet_triggerLine _ _ _)
  · exact .refl _

theorem quiet_takePacketLine (bytes : List Byte) : s.Quiet (s.takePacketLine t sd bytes) := by
  unfold takePacketLine; dsimp only; exact Quiet.ite (quiet_takeLine _ _ _ _ _) (quiet_repairLine _ _ _)

theorem quiet_judgePacket (bytes : List Byte) : s.Quiet (s.judgePacket t sd bytes) := by
  unfold judgePacket; dsimp only
  exact Quiet.ite (Quiet.ite (quiet_repairLine _ _ _) (.refl _))
    (Quiet.ite ((quiet_repairLines _ _ _ _).trans (quiet_takePacketLine _ _ _ _)) (.refl _))

theorem quiet_completeIfDrained : s.Quiet (s.completeIfDrained t sd) := by
  unfold completeIfDrained; split
  · exact Quiet.ite (quiet_completeSide _ _ _) (.refl _)
  · exact .refl _
  · exact .refl _

theorem quiet_packet (bytes : List Byte) : s.Quiet (s.packet t sd bytes) := by
  unfold packet; split
  · exact .refl _
  · exact (quiet_judgePacket _ _ _ _).trans (quiet_completeIfDrained _ _ _)

/-! ### Settlement, picks -/

theorem quiet_settleHead (r : SheetRecord) : s.Quiet (s.settleHead t r) := by
  unfold settleHead; dsimp only
  refine Quiet.trans (Quiet.trans (Quiet.setTr ?_) (quiet_returnPages _ _ _)) (quiet_returnPages _ _ _)
  exact ⟨rfl, rfl⟩

theorem quiet_settleTransport (n : Nat) : s.Quiet (s.settleTransport t n) := by
  induction n generalizing s with
  | zero => exact .refl _
  | succ n ih =>
    unfold settleTransport; split
    · exact .refl _
    · exact Quiet.ite ((quiet_settleHead _ _ _).trans (ih _)) (.refl _)

theorem quiet_settleAll : s.Quiet s.settleAll := Quiet.foldl (fun s t => s.quiet_settleTransport t _) _

theorem quiet_askAdmission : s.Quiet (s.askAdmission t) := by
  unfold askAdmission
  exact Quiet.ite (Quiet.ite (quiet_grant _ _ _) Quiet.setHold) (.refl _)

theorem quiet_updateWaits : s.Quiet s.updateWaits := Quiet.foldl (fun _ _ => Quiet.modTr fun _ => by exact ⟨rfl, rfl⟩) _

theorem quiet_pickStage : s.Quiet s.pickStage :=
  ((quiet_serveList _).trans (Quiet.foldl (fun s t => s.quiet_askAdmission t) _)).trans (quiet_updateWaits _)

/-! ### The lane writer -/

theorem quiet_meetRequests (n : LaneNo) : s.Quiet (s.meetRequests n) :=
  Quiet.modLane.trans (Quiet.foldl (fun _ _ => Quiet.modTr fun x => x.keeps_laneClosed n) _)

theorem quiet_requestClosure (n : LaneNo) : s.Quiet (s.requestClosure t n) := by
  unfold requestClosure; dsimp only
  exact Quiet.ite (Quiet.ite Quiet.modLane (Quiet.modLane.trans Quiet.modLane)) (Quiet.modTr fun x => x.keeps_laneClosed n)

theorem quiet_askClosures : s.Quiet (s.askClosures t) := by
  refine Quiet.trans (Quiet.modTr (t := t) ?_) (Quiet.foldl (fun s n => s.quiet_requestClosure t n) _)
  exact fun _ => ⟨rfl, rfl⟩

theorem quiet_goOnClosing : s.Quiet (s.goOnClosing t) := by
  unfold goOnClosing; split
  · split
    · exact Quiet.modTr fun _ => ⟨rfl, rfl⟩
    · exact Quiet.modTr fun x =>
        Transport.KeepsPath.trans (y := { x with batch := { x.batch with closure := .notAsked } }) ⟨rfl, rfl⟩
          (Transport.keeps_leaveDraining _)
    all_goals exact .refl _
  · exact .refl _

theorem quiet_endBatch : s.Quiet (s.endBatch t) :=
  (Quiet.ite (quiet_askClosures _ _) (.refl _)).trans (quiet_goOnClosing _ _)

theorem quiet_continueTurn : s.Quiet (s.continueTurn t) := by
  unfold continueTurn; split
  · exact Quiet.setWriter
  · split
    · exact Quiet.setWriter
    · refine Quiet.ite ((Quiet.modLane.trans (Quiet.modTr fun x => ?_)).trans Quiet.setWriter)
        (Quiet.modLane.trans Quiet.setWriter)
      split
      · exact .refl _
      · exact x.keeps_touch _

theorem quiet_beginTurn : s.Quiet (s.beginTurn t) := by
  unfold beginTurn; split
  · exact .refl _
  · dsimp only
    exact Quiet.ite ((Quiet.setWriter.trans Quiet.modLane).trans Quiet.setWriter)
      (Quiet.setWriter.trans (quiet_continueTurn _ _))

theorem quiet_lookForWork : s.Quiet s.lookForWork := by
  unfold lookForWork; split
  · exact .refl _
  · split
    · exact .refl _
    · exact quiet_beginTurn _ _

theorem quiet_breakTurn : s.Quiet (s.breakTurn t) := (Quiet.modTr fun x => x.keeps_modHeadPiece _).trans Quiet.setWriter

theorem quiet_entryWritten (e : Element) (p : Piece) (b : Bin) : s.Quiet (s.entryWritten t e p b) := by
  unfold entryWritten
  extract_lets room d b1 whole s1 v s2
  have h1 : s.Quiet s1 := Quiet.trans (Quiet.modTr (t := t) fun x => by exact ⟨rfl, rfl⟩) Quiet.modLane
  have h : s.Quiet s2 := h1.trans Quiet.setWriter
  exact Quiet.ite (h.trans (quiet_returnPages _ _ _)) h

theorem quiet_entryFault (p : Piece) (b : Bin) : s.Quiet (s.entryFault t p b) := by
  unfold entryFault; dsimp only
  have h := ((Quiet.modTr (s := s) (t := t) fun x =>
    x.keeps_modHeadPiece fun q => { q with interrupted := true }).trans
      (Quiet.setWriter (w := { s.writer with turn := none }))).trans (Quiet.setEvent (e := .memfault))
  exact Quiet.ite (h.trans Quiet.modLane) ((h.trans Quiet.modLane).trans (quiet_meetRequests _ _))

theorem quiet_afterHandBack (n : LaneNo) : s.Quiet (s.afterHandBack n) := by
  unfold afterHandBack; split
  · exact Quiet.ite (Quiet.ite (Quiet.modLane.trans Quiet.setWriter) (quiet_breakTurn _ _)) (.refl _)
  all_goals exact .refl _

theorem quiet_afterBinTake (n : LaneNo) : s.Quiet (s.afterBinTake n) := by
  unfold afterBinTake; split
  · exact Quiet.ite (Quiet.ite (quiet_continueTurn _ _) Quiet.setWriter) (.refl _)
  all_goals exact .refl _

theorem quiet_binTakeEnded (n : LaneNo) (link bin : MemRead) : s.Quiet (s.binTakeEnded n link bin) := by
  unfold binTakeEnded; dsimp only
  exact Quiet.ite ((Quiet.ite (Quiet.modLane.trans Quiet.setEvent) Quiet.modLane).trans (quiet_afterBinTake _ _)) (.refl _)

/-! ### Stops and attribution -/

theorem quiet_returnGivenUp (r : SheetRecord) : s.Quiet (s.returnGivenUp r) :=
  Quiet.ite (quiet_returnPages _ _ _) (quiet_returnSides _ _)

theorem quiet_endWindowAtStop : s.Quiet (s.endWindowAtStop t sd) := by
  unfold endWindowAtStop; split
  · exact Quiet.ite (.refl _) (quiet_captureEnd _ _ _ _)
  · exact .refl _
  · exact .refl _

theorem quiet_takeStop (reason : StopReason) : s.Quiet (s.takeStop t reason) := by
  unfold takeStop
  exact Quiet.ite ((((Quiet.modTr fun x => x.keeps_stopped reason).trans
    (Quiet.foldl (fun s r => s.quiet_returnGivenUp r) _)).trans (quiet_endWindowAtStop _ _ _)).trans
      (quiet_endWindowAtStop _ _ _)) (.refl _)

theorem quiet_pickMissed (r : SheetRecord) : s.Quiet (s.pickMissed t r) := by
  unfold pickMissed; dsimp only
  have h := fun n : Nat => (Quiet.setTr (s := s) (t := t) (x := { s.tr t with
    track := (s.tr t).track.filter fun q => q.id != r.id, clutch := false, retries := n }) ⟨rfl, rfl⟩).trans
      (quiet_returnPages _ r.pages r.reserve)
  exact Quiet.ite ((h _).trans (quiet_takeStop _ _ _)) (h _)

theorem quiet_armWindowStart (id : Nat) (p : Pos) : s.Quiet (s.armWindowStart t id sd p) := by
  unfold armWindowStart; split
  · exact .refl _
  · exact Quiet.ite (Quiet.ite ((Quiet.modTr fun x => x.keeps_modRecord _ _).trans (quiet_captureStart _ _ _ _))
      (Quiet.modTr fun x => x.keeps_modRecord _ _)) (.refl _)

theorem quiet_armWindowEnd (id : Nat) (p : Pos) : s.Quiet (s.armWindowEnd t id sd p) := by
  unfold armWindowEnd; split
  · exact .refl _
  · dsimp only
    exact Quiet.ite (Quiet.ite
      (Quiet.ite ((Quiet.modTr fun x => x.keeps_modRecord _ _).trans (quiet_captureEnd _ _ _ _))
        (Quiet.modTr fun x => x.keeps_modRecord _ _))
      (Quiet.modTr fun x => x.keeps_modRecord _ _)) (.refl _)

theorem quiet_dfLeadSeen (r : SheetRecord) (latch : Pos) : s.Quiet (s.dfLeadSeen t r latch) :=
  ((Quiet.modTr fun x => (x.keeps_modRecord _ _).trans (Transport.keeps_dfLead _ _)).trans
    (quiet_armWindowStart _ _ _ _ _)).trans (quiet_armWindowStart _ _ _ _ _)

theorem quiet_dfTrailSeen (r : SheetRecord) (latch : Pos) : s.Quiet (s.dfTrailSeen t r latch) :=
  ((Quiet.modTr fun x => (x.keeps_modRecord _ _).trans (Transport.keeps_dfTrail _ _ _)).trans
    (quiet_armWindowEnd _ _ _ _ _)).trans (quiet_armWindowEnd _ _ _ _ _)

theorem quiet_leadSeen (r : SheetRecord) (st : Station) (latch : Pos) : s.Quiet (s.leadSeen t r st latch) := by
  cases st with
  | entry => exact Quiet.modTr (f := fun x => x.entryLead r latch) fun x => ⟨rfl, rfl⟩
  | df => exact quiet_dfLeadSeen _ _ _ _
  | mark => exact Quiet.modTr fun x => (x.keeps_modRecord _ _).trans (Transport.keeps_markLead _ _ _)
  | exit => exact Quiet.modTr fun x => x.keeps_modRecord _ _

theorem quiet_leadEdge (st : Station) (latch : Pos) : s.Quiet (s.leadEdge t st latch) := by
  unfold leadEdge; split
  · exact quiet_takeStop _ _ _
  · exact Quiet.ite (quiet_leadSeen _ _ _ _ _) (quiet_takeStop _ _ _)

theorem quiet_exitTrail (r : SheetRecord) (latch : Pos) : s.Quiet (s.exitTrail t r latch) := by
  unfold exitTrail; dsimp only
  have h : s.Quiet (s.modTr t fun x => x.fillTrail r .exit latch) := Quiet.modTr fun x => x.keeps_modRecord _ _
  exact Quiet.ite ((h.trans (Quiet.modTr fun x => x.keeps_modRecord _ _)).trans (quiet_takeStop _ _ _))
    (h.trans (Quiet.modTr fun x => x.keeps_modRecord _ _))

theorem quiet_trailSeen (r : SheetRecord) (st : Station) (latch : Pos) : s.Quiet (s.trailSeen t r st latch) := by
  cases st with
  | entry => exact Quiet.modTr fun x => (x.keeps_modRecord _ _).trans (Transport.keeps_modRecord _ _ _)
  | df => exact quiet_dfTrailSeen _ _ _ _
  | mark => exact Quiet.modTr fun x => (x.keeps_modRecord _ _).trans (Transport.keeps_markTrail _ _ _)
  | exit => exact quiet_exitTrail _ _ _ _

theorem quiet_trailEdge (st : Station) (latch : Pos) : s.Quiet (s.trailEdge t st latch) := by
  unfold trailEdge; split
  · exact quiet_takeStop _ _ _
  · exact Quiet.ite (quiet_takeStop _ _ _) (quiet_trailSeen _ _ _ _ _)

theorem quiet_stationChange (st : Station) (paper : Bool) (latch : Pos) : s.Quiet (s.stationChange t st paper latch) := by
  unfold stationChange
  exact Quiet.ite (Quiet.ite (quiet_leadEdge _ _ _ _) (quiet_trailEdge _ _ _ _))
    (Quiet.ite (Quiet.modTr fun x => x.keeps_dropProvisional) (.refl _))

theorem quiet_coverChange (isOpen : Bool) : s.Quiet (s.coverChange t isOpen) := by
  unfold coverChange; dsimp only
  exact Quiet.ite (Quiet.ite (quiet_takeStop _ _ _) (Quiet.ite (Quiet.modTr fun x => x.keeps_motorOff) (.refl _)))
    (Quiet.ite (Quiet.modTr fun x => x.keeps_startMotor) (.refl _))

theorem quiet_deliver (sn : Sensor) (level : Bool) (latch : Pos) : s.Quiet (s.deliver t sn level latch) := by
  cases sn with
  | station st => exact quiet_stationChange _ _ _ _ _
  | trayEmpty => exact .refl _
  | coverOpen => exact quiet_coverChange _ _ _

theorem quiet_takeLeadExpiry (st : Station) : s.Quiet (s.takeLeadExpiry t st) := by
  unfold takeLeadExpiry; split
  · exact .refl _
  · exact Quiet.ite (quiet_pickMissed _ _ _) (quiet_takeStop _ _ _)

theorem quiet_takeTrailExpiry (st : Station) : s.Quiet (s.takeTrailExpiry t st) := by
  unfold takeTrailExpiry; split
  · exact .refl _
  · exact quiet_takeStop _ _ _

theorem quiet_takeMarkExpiry : s.Quiet (s.takeMarkExpiry t) := by
  unfold takeMarkExpiry; exact Quiet.ite (Quiet.modTr fun x => x.keeps_markWindowExpired) (.refl _)

/-! ### Consequences -/

theorem quiet_eachTransport {f : Transport → Transport} (h : ∀ x : Transport, x.KeepsPath (f x)) : s.Quiet (s.eachTransport f) :=
  Quiet.foldl (fun _ _ => Quiet.modTr h) _

theorem quiet_haltQuiet : s.Quiet s.haltQuiet := by
  unfold haltQuiet; exact Quiet.ite (Quiet.modRoom rfl) (.refl _)

theorem quiet_settleStage : s.Quiet s.settleStage :=
  (quiet_settleAll _).trans (quiet_eachTransport _ fun x => x.keeps_endTests)

theorem quiet_drainStage : s.Quiet s.drainStage :=
  (quiet_pickStage _).trans (quiet_eachTransport _ fun x => x.keeps_pauseDone)

theorem quiet_closeStage : s.Quiet s.closeStage :=
  ((Quiet.foldl (fun s t => s.quiet_endBatch t) _).trans (quiet_lookForWork _)).trans (quiet_haltQuiet _)

/-- What follows from an event leaves host memory, the queue, positions, sensors and setups alone. -/
theorem quiet_consequences : s.Quiet s.consequences :=
  ((quiet_settleStage _).trans (quiet_drainStage _)).trans (quiet_closeStage _)

theorem quiet_requestStatus : s.Quiet (s.requestStatus t) := by
  unfold requestStatus; refine Quiet.modRoom ?_; split <;> rfl

theorem quiet_requestStatuses (n : Nat) : s.Quiet (s.requestStatuses t n) := by
  induction n generalizing s with
  | zero => exact .refl _
  | succ n ih => exact (s.quiet_requestStatus t).trans (ih _)

theorem quiet_requestReports (before : State) (path : List State) (forced : List TransportNo) :
    s.Quiet (s.requestReports before path forced) :=
  Quiet.foldl (fun s t => s.quiet_requestStatuses t _) _

/-- The end of a step leaves host memory, the queue, positions, sensors and setups alone. -/
theorem quiet_finishVia (before : State) (path : List State) (forced : List TransportNo) :
    s.Quiet (s.finishVia before path forced) :=
  (quiet_consequences _).trans (quiet_requestReports _ _ _ _)

theorem quiet_finish (before : State) (forced : List TransportNo) : s.Quiet (s.finish before forced) :=
  quiet_finishVia _ _ _ _

/-! ### What returns and grants leave alone outside the transports -/

variable {s t}

theorem EventsKept.trans {u v : State} (h : s.EventsKept u) (g : u.EventsKept v) : s.EventsKept v := by
  rcases h with h | h <;> rcases g with g | g <;> simp only [EventsKept, h, g, BitVec.or_assoc, BitVec.or_self, true_or, or_true]

theorem OutsideKept.refl (s : State) : s.OutsideKept s := ⟨rfl, rfl, rfl, .inl rfl, rfl, rfl, rfl⟩

theorem OutsideKept.trans {u v : State} (h : s.OutsideKept u) (g : u.OutsideKept v) : s.OutsideKept v :=
  ⟨g.lanes.trans h.lanes, g.writer.trans h.writer, g.room.trans h.room, h.events.trans g.events, g.hostMem.trans h.hostMem,
    g.pending.trans h.pending, g.freeIndex.trans h.freeIndex⟩

theorem OutsideKept.setHold {h : HoldStore} : s.OutsideKept (s.setHold h) := ⟨rfl, rfl, rfl, .inl rfl, rfl, rfl, rfl⟩

theorem OutsideKept.modTr {f : Transport → Transport} : s.OutsideKept (s.modTr t f) := ⟨rfl, rfl, rfl, .inl rfl, rfl, rfl, rfl⟩

variable (s)

theorem outside_refreshMark : s.OutsideKept s.refreshMark := by
  unfold refreshMark; dsimp only; split
  · exact ⟨rfl, rfl, rfl, .inr rfl, rfl, rfl, rfl⟩
  · exact .setHold

theorem outside_takeBack (pages : List Nat) (n : Nat) : s.OutsideKept (s.takeBack pages n) :=
  OutsideKept.setHold.trans (outside_refreshMark _)

theorem outside_grant (t : TransportNo) (need : Nat) : s.OutsideKept (s.grant t need) :=
  (OutsideKept.setHold.trans (outside_refreshMark _)).trans .modTr

theorem outside_serveWaiting (l : List Request) : s.OutsideKept (s.serveWaiting l) := by
  induction l generalizing s with
  | nil => exact .setHold
  | cons r rest ih =>
    unfold serveWaiting
    split
    · split
      · exact (outside_grant _ _ _).trans (ih _)
      · exact .setHold
    · exact ih _

/-- A return of pages, with the grants and withdrawals it brings (R123, R124), changes nothing outside the transports, the hold
store and EVT.SPACE. -/
theorem outside_returnPages (pages : List Nat) (n : Nat) : s.OutsideKept (s.returnPages pages n) :=
  ((outside_serveWaiting _ _).trans (outside_takeBack _ _ _)).trans (outside_serveWaiting _ _)

theorem outside_returnSides (r : SheetRecord) : s.OutsideKept (s.returnSides r) :=
  (outside_returnPages _ _ _).trans (outside_returnPages _ _ _)

/-- A grant picks for its own transport and leaves the others alone (R122). -/
theorem tr_grant (t i : TransportNo) (need : Nat) :
    (s.grant t need).tr i = if i = t then (s.tr t).pick s.hold.total else s.tr i := by
  have h : ∀ i, (s.reserve need).tr i = s.tr i := fun i => by
    unfold State.reserve refreshMark; dsimp only; split <;> rfl
  unfold grant; rw [tr_modTr]; simp only [h]

/-- The list served changes a transport by picks alone (R123). -/
theorem picks_serveWaiting (l : List Request) (i : TransportNo) : (s.tr i).OnlyPicked ((s.serveWaiting l).tr i) := by
  induction l generalizing s with
  | nil => exact rfl
  | cons r rest ih =>
    have step : (s.tr i).OnlyPicked ((s.grant r.transport r.need).tr i) := by
      rw [tr_grant]; split
      · rename_i e; subst e; exact rfl
      · exact rfl
    unfold serveWaiting
    split
    · split
      · have h := ih (s.grant r.transport r.need)
        unfold Transport.OnlyPicked at h step ⊢
        rw [← step, ← h]
      · exact rfl
    · exact ih _

end State

end Sys2Proof.Machine
end

