-- ==== Sys2Proof/WellFormed.lean ====
section
/-! DEFINITION. The form of a command: a read gives as many bytes as the record it reads has (10), a lead window end is
one of DF, MARK or EXIT (R12; the ENTRY window is PICK_MISS), a packet is as long as Table 6-5 says, a command block holds
the command of its row (10 Tables 10-7 and 10-8), and a sweep reads each lane once (R166). -/

namespace Sys2Proof

/-- A read that ended well gave n bytes. -/
def MemRead.hasLength (n : Nat) : MemRead → Bool
  | .busError => true
  | .data bytes => bytes.length == n

/-- The length of a line packet follows from its pixel count (Table 6-5). -/
def packetFormed (bytes : List Byte) : Bool :=
  bytes.length == 6 + 3 * ((bytes.getD 2 0).toNat + 256 * (bytes.getD 3 0).toNat)

/-- The reads of a sweep in a command block, if they ended well, gave its first n bytes, with the turn at PART and a command
byte of a set (R160, R168, R170; 10 Tables 10-7 and 10-8). -/
def MemRead.commands (n : Nat) (codes : Nat → Bool) : MemRead → Bool
  | .busError => true
  | .data bytes => bytes.length == n && bytes.getD 0 0 == 1 && codes (bytes.getD 1 0).toNat

/-- The reads gave a RULE with an argument (10 Table 10-7). -/
def MemRead.rules (argument : Nat) : MemRead → Bool
  | .busError => true
  | .data bytes => bytes.length == 8 && bytes.getD 0 0 == 1 && bytes.getD 1 0 == 6 && (bytes.getD 2 0).toNat == argument

/-- The reads gave a control block's command that is not known, or a RULE whose argument is not known (R22). -/
def MemRead.commandsUnknown : MemRead → Bool
  | .busError => true
  | .data bytes =>
    bytes.length == 8 && bytes.getD 0 0 == 1
      && ((bytes.getD 1 0).toNat == 0 || decide (6 < (bytes.getD 1 0).toNat)
        || (bytes.getD 1 0 == 6 && ((bytes.getD 2 0).toNat == 0 || decide (5 < (bytes.getD 2 0).toNat))))

/-- A lane is read once in a sweep (R166). -/
def lanesDistinct (reads : List LaneRead) : Bool :=
  decide (reads.map (·.lane)).Nodup

/-- The command is of the form its row gives it. -/
def Instr.wf : Instr → Bool
  | .leadWindowEndPassed _ st => st != .entry
  | .linePacket _ _ bytes => packetFormed bytes
  | .startHeaderReadDone header => header.hasLength 296
  | .sweepEnd links turns =>
    lanesDistinct links && links.all (·.read.hasLength 8) && lanesDistinct turns && turns.all (·.read.hasLength 1)
  | .setupReadDone _ setup => setup.hasLength 64
  | .laneRestartReadDone _ record => record.hasLength 16
  | .owedAnswerWrite _ turn => turn.hasLength 1
  | .ticketTake _ link turn => link.hasLength 8 && turn.hasLength 1
  | .ticketTakeDone _ ticket main alt route =>
    ticket.hasLength 64 && main.hasLength 64 && alt.hasLength 64 && route.hasLength 320
  | .binTakeDone _ link bin => link.hasLength 8 && bin.hasLength 16
  | .powerOn _ _ _ _ => true
  | .encoderCount _ _ _ => true
  | .encoderSkip _ => true
  | .sensorRawEdge _ _ => true
  | .debounceHoldExpiry _ _ => true
  | .reflectiveTransition _ => true
  | .pickMiss _ => true
  | .trailDeadlinePassed _ _ => true
  | .runInDone _ => true
  | .gapMet _ => true
  | .captureWindowStart _ _ => true
  | .captureWindowEnd _ _ => true
  | .markWindowEnd _ => true
  | .stallTimerExpiry _ => true
  | .runOffTimerExpiry _ => true
  | .packetWaitExpiry _ _ => true
  | .flushTimerExpiry _ => true
  | .pollTimerExpiry => true
  | .rbaseWrite _ _ => true
  | .start _ => true
  | .halt _ => true
  | .softReset _ => true
  | .pollPeriodWrite _ => true
  | .sweepWrite _ => true
  | .evtclrWrite _ => true
  | .evtenWrite _ => true
  | .registerWrite reg v => reg != .runctlReadOnly || v.toNat % 8 == 0 || decide (3 < v.toNat % 8)
  | .enable _ b => b.commands 8 (· == 1)
  | .disable _ b => b.commands 8 (· == 2)
  | .pause _ b => b.commands 8 (· == 3)
  | .resume _ b => b.commands 8 (· == 4)
  | .abort _ b => b.commands 8 (· == 5)
  | .ruleAccept _ b => b.rules 1
  | .ruleReview _ b => b.rules 2
  | .ruleRefeed _ b => b.rules 3
  | .ruleDiscard _ b => b.rules 4
  | .ruleClear _ b => b.rules 5
  | .unknownCommand _ b => b.commandsUnknown
  | .laneRestart b => b.commands 4 (· == 1)
  | .laneClose b => b.commands 4 (· == 2)
  | .roomUnknownCommand => true
  | .answerWriteDone _ => true
  | .entryWriteDone _ => true
  | .handBackDone _ _ => true
  | .statusBlockWriteDone _ _ => true
  | .partHalted => true
  | .uncountedEncoderEdge _ _ => true
  | .outcomeWriteDone _ _ => true

end Sys2Proof
end

