-- ==== Sys2Proof/Tests/Slice0.lean ====
section
/-! SUPPORT. Tests. The form checks refuse an ill-formed command each; the spec's worked examples; and for every statement with
hypotheses a state and operands that meet them. Expected values come from the examples and rules of spec/ that the comments
name. -/

namespace Sys2Proof.Tests
open Sys2Proof Sys2Proof.Machine

/-! ### Ill-formed commands are refused -/

theorem test_wf_header : (Instr.startHeaderReadDone (.data (zeroBytes 295))).wf = false := by decide +kernel
theorem test_wf_header_whole : (Instr.startHeaderReadDone (.data (zeroBytes 296))).wf = true := by decide +kernel
theorem test_wf_setup : (Instr.setupReadDone 0 (.data (zeroBytes 65))).wf = false := by decide
theorem test_wf_restart : (Instr.laneRestartReadDone 0 (.data [])).wf = false := by decide
theorem test_wf_owed_turn : (Instr.owedAnswerWrite .room (.data [1, 1])).wf = false := by decide
theorem test_wf_ticket_link : (Instr.ticketTake 0 (.data [0]) .busError).wf = false := by decide
theorem test_wf_ticket_turn : (Instr.ticketTake 0 .busError (.data [])).wf = false := by decide
theorem test_wf_take_ticket : (Instr.ticketTakeDone 0 (.data [0]) .busError .busError .busError).wf = false := by decide
theorem test_wf_take_profile : (Instr.ticketTakeDone 0 .busError (.data [0]) .busError .busError).wf = false := by decide
theorem test_wf_take_alt : (Instr.ticketTakeDone 0 .busError .busError (.data [0]) .busError).wf = false := by decide
theorem test_wf_take_route : (Instr.ticketTakeDone 0 .busError .busError .busError (.data [0])).wf = false := by decide
theorem test_wf_bin_link : (Instr.binTakeDone 0 (.data [0]) .busError).wf = false := by decide
theorem test_wf_bin_header : (Instr.binTakeDone 0 .busError (.data [0])).wf = false := by decide
theorem test_wf_lead_entry : (Instr.leadWindowEndPassed 0 .entry).wf = false := by decide
theorem test_wf_packet : (Instr.linePacket 0 .front [0, 0, 1, 0, 9, 9, 9, 0]).wf = false := by decide
theorem test_wf_read_only_command : (Instr.registerWrite .runctlReadOnly 3).wf = false := by decide
theorem test_wf_sweep_twice : (Instr.sweepEnd [] [⟨3, .busError⟩, ⟨3, .busError⟩]).wf = false := by decide
theorem test_wf_sweep_links : (Instr.sweepEnd [⟨3, .busError⟩, ⟨3, .busError⟩] []).wf = false := by decide
theorem test_wf_sweep_link : (Instr.sweepEnd [⟨3, .data [1]⟩] []).wf = false := by decide
theorem test_wf_sweep_turn : (Instr.sweepEnd [] [⟨3, .data []⟩]).wf = false := by decide

/-- The bytes of a control block: its turn, command, argument, the byte at 3 and the answer number (10 Table 10-7). -/
def block (turn code argument : Byte) (number : Nat) : List Byte := [turn, code, argument, 0] ++ leBytes number 4

/-- A row holds the command of its own code, posted, in a block of its length (10 Tables 10-7 and 10-8). -/
theorem test_wf_commands :
    [Instr.enable 0 (.data (block 1 2 0 0)), .enable 0 (.data (block 2 1 0 0)), .disable 0 (.data (block 1 1 0 0)),
     .pause 0 (.data (block 1 4 0 0)), .resume 0 (.data (block 1 3 0 0)), .abort 0 (.data (block 1 6 0 0)),
     .abort 0 (.data [1, 5]), .ruleAccept 0 (.data (block 1 6 2 0)), .ruleReview 0 (.data (block 1 5 2 0)),
     .ruleRefeed 0 (.data (block 1 6 1 0)), .ruleDiscard 0 (.data (block 1 6 5 0)), .ruleClear 0 (.data (block 0 6 5 0)),
     .unknownCommand 0 (.data (block 1 5 0 0)), .unknownCommand 0 (.data (block 1 6 5 0)), .laneRestart (.data [1, 2, 0, 0]),
     .laneClose (.data [1, 2])].all (fun c => !c.wf) = true ∧
    [Instr.enable 0 (.data (block 1 1 0 9)), .abort 0 (.data (block 1 5 0 9)), .ruleDiscard 0 (.data (block 1 6 4 9)),
     .unknownCommand 0 (.data (block 1 7 0 9)), .unknownCommand 0 (.data (block 1 6 6 9)), .laneClose (.data [1, 2, 7, 0]),
     .enable 0 .busError].all Instr.wf = true := by decide

/-- 10 Tables 10-7 and 10-8: every code of a command and of a RULE's argument, the codes next to them, and the number. -/
theorem test_command_codes :
    (List.range 8).map (fun c => controlCommand (block 1 (BitVec.ofNat 8 c) 1 0)) =
      [.unknown, .enable, .disable, .pause, .resume, .abort, .rule .accept, .unknown] ∧
    (List.range 7).map (fun a => controlCommand (block 1 6 (BitVec.ofNat 8 a) 0)) =
      [.unknown, .rule .accept, .rule .review, .rule .refeed, .rule .discard, .rule .clear, .unknown] ∧
    (List.range 4).map (fun c => roomRow [1, BitVec.ofNat 8 c, 5, 0]) =
      [.roomUnknownCommand, .laneRestart (.data [1, 1, 5, 0]), .laneClose (.data [1, 2, 5, 0]), .roomUnknownCommand] ∧
    controlRow 2 (block 1 6 4 7) = .ruleDiscard 2 (.data (block 1 6 4 7)) ∧
    controlRow 2 (block 1 6 9 7) = .unknownCommand 2 (.data (block 1 6 9 7)) ∧
    answerNumber [1, 1, 0, 0, 4, 3, 2, 1] = 0x01020304 ∧ laneNumber [1, 1, 5, 0] = 5 := by decide

/-! ### The numbers of the spec's examples -/

/-- A transport with the scale and stations of 01 section 1.7 and 11. -/
def pathSetup : Setup :=
  { scaleMode := 0, scale := 27744, dDF := 1200, dMK := 2400, dCF := 3000, dCB := 3600, dEX := 4800, tolerance := 150,
    pickWindow := 2000, gapDistance := 400, runInDistance := 600, stallTime := 10, runOffTime := 30, pickRetries := 1,
    sampleDistance := 40, backCamera := true, amplitudeFloor := 100, width := 2480, kr := 77, kg := 150, kb := 29 }

/-- 04 Table 4-9, 05 Table 5-5 and 01: lengths and counts in mode 0 with S = 27744. -/
theorem test_lengths : [7016, 7500, 6800, 440, 1200, 95, 98].map (lengthOf 0 27744) = [2970, 3175, 2879, 186, 508, 40, 41] := by
  decide
theorem test_counts : [3000, 3500, 400, 0].map (countsOf 0 27744) = [7087, 8268, 945, 0] := by decide

/-- 04 Tables 4-5 and 4-6. -/
theorem test_reference : [(44800, 712), (44896, 699), (44890, 701), (44871, 701)].map (fun p => stepReference p.1 p.2) =
    [44896, 44876, 44887, 44871] := by decide

/-- 04, the thresholds of the example, and those of R = 64. -/
theorem test_thresholds : [44800, 6420, 64].map (thresholdsOf · 128 160) = [(350, 437), (50, 62), (0, 1)] := by decide

/-- 04 Table 4-8: the label's run is exempt, the second sheet's is not, and a longer label is not. -/
theorem test_runs :
    let x : Transport := { setup := some pathSetup }
    let p : Profile := { overlapMin := 150, zones := [(400, 700)] }
    judgeRun x p 100000 101200 101640 = some { offset := 508, length := 186, exempt := true } ∧
    judgeRun x p 100000 104400 105120 = some { offset := 1863, length := 305, exempt := false } ∧
    judgeRun x p 100000 101200 101720 = some { offset := 508, length := 220, exempt := false } ∧
    judgeRun x p 100000 101640 101200 = none := by decide

/-- 04 Table 4-9: N = 2970, T_l = 30, T_s = 40. -/
theorem test_length_check : [2970, 3175, 2879].map (lengthFlags { nominal := 2970, longTol := 30, shortTol := 40 }) =
    [(false, false), (true, false), (false, true)] := by decide

/-- R114 and R116: the grey value and the run forms of the text. -/
theorem test_grey : greyOf pathSetup { red := 200, green := 100, blue := 50 } = 124 := by decide
theorem test_run_form : runLine [200, 200, 200, 200, 0, 0, 90] = [200, 0, 3, 1, 1, 90] := by decide
theorem test_run_form_long : runLine (List.replicate 300 180) = [180, 0, 255, 0, 44] := by decide +kernel

/-- R118: the blank back of the example, and the same side with a note. -/
theorem test_blank :
    let p : Profile := { sideMargin := 40, topMargin := 60, bottomMargin := 60, blankLimit := 64 }
    blankResult p 2480 { lines := 3508, ink := 3100 } = true ∧ blankResult p 2480 { lines := 3508, ink := 9000 } = false := by
  decide

/-- R121 with 11 section 11.1: 3600 reserve lines in GREY_RUN need 137 pages a side, in COLOUR 409; 06 section 6.7: 818. -/
theorem test_page_need :
    sheetNeed { sides := .duplex, formatFront := .greyRun, formatBack := .greyRun, reserveLines := 3600 } pathSetup 4096 = 274 ∧
    sheetNeed { sides := .duplex, reserveLines := 3600 } pathSetup 4096 = 818 := by decide

/-- 05 Table 5-5: three bars of 40, 40 and 41 tenths are a FOLDER divider; a pulse still dark makes it NONE. -/
theorem test_folder :
    let m : MarkUnit := { measurement := .opened 0, lead := some 53228,
                          pulses := [⟨53300, some 53395⟩, ⟨53450, some 53545⟩, ⟨53600, some 53698⟩] }
    let p : Profile := { barMin := 20, barMax := 60 }
    judgeMark { setup := some pathSetup, marks := m } p 54173 = .divider .folder ∧
    judgeMark { setup := some pathSetup, marks := { m with pulses := m.pulses ++ [⟨54150, none⟩] } } p 54173 = .noDivider ∧
    judgeMark { setup := some pathSetup, marks := { m with pulses := m.pulses ++ [⟨54180, none⟩] } } p 54173 =
      .divider .folder := by decide

/-- 05 Table 5-10. -/
theorem test_outcomes : outcomeOf .endBatch 120 122 0 = .over ∧ outcomeOf .endBatch 120 117 3 = .short ∧
    outcomeOf .endBatch 120 120 0 = .complete ∧ outcomeOf .halt 120 122 0 = .interrupted := by decide

/-- 05 Table 5-7: the numbers of ten settlements. -/
theorem test_numbering :
    let r := fun m : MarkResult => ({ id := 0, pickPos := 0, selector := .main, markResult := m } : SheetRecord)
    let marks := [.noDivider, .noDivider, .divider .document, .noDivider, .divider .folder, .divider .document, .noDivider,
      .divider .dropNext, .noDivider, .noDivider]
    let b := marks.foldl (fun b m => b.settle (r m)) ({ document := 500 } : BatchContext)
    (b.folder, b.document, b.sheetInDoc) = (2, 502, 3) ∧
    (b.counters.page, b.counters.divider, b.counters.omitted, b.counters.documents, b.counters.folders) = (5, 4, 1, 3, 2) := by
  decide

/-- 07 section 7.1: the four records of the routing example. -/
theorem test_routes :
    let t := [⟨255, 1, 255, 1, 255, 128⟩, ⟨255, 255, 255, 255, 1, 4⟩, ⟨3, 255, 0, 255, 0, 2⟩, ⟨3, 255, 1, 255, 0, 5⟩]
    let go := searchRoutes t (fun _ => false) 3
    go .front .clean false false = .sent 2 false ∧ go .back .clean true false = .dropped false ∧
    go .back .flagged false false = .sent 5 false ∧ go .front .clean false true = .sent 4 false ∧
    go .front .accepted false false = .sent 0 true := by decide

/-- 11 note a of the first sequence: entries of 2610000, 2480000 and 1100000 bytes and a placeholder. -/
theorem test_entry_lengths : [2610064, 2480064, 1100064, 64].map roundUp64 = [2610112, 2480064, 1100096, 64] := by decide

/-! ### States that meet the hypotheses of the statements -/

/-- The reset state with transport 0 as given. -/
def on (x : Transport) : State := State.reset.setTr 0 x

theorem on_all (P : Transport → Prop) (x : Transport) (h : P x) (g : P {}) (t : TransportNo) : P ((on x).tr t) := by
  revert t
  intro t
  match t with
  | 0 => exact h
  | 1 => exact g
  | 2 => exact g
  | 3 => exact g

/-- A transport in RUNNING, driving, with an empty track. -/
def running : Transport :=
  { setup := some pathSetup, state := .running, motor := .driving, pos := { counter := 200, stallTimer := some 10 } }

/-- A record picked at 100 whose ENTRY window ends at 2100. -/
def picked : SheetRecord := { id := 0, pickPos := 100, selector := .main, entry := { leadEnd := .at 2100 } }

/-- A record in the path whose ENTRY and DF leads are seen. -/
def inPath : SheetRecord :=
  { id := 0, pickPos := 100, selector := .main, sheet := some 1, life := .inPath, entry := { lead := some 150 },
    df := { lead := some 1350, trailEnd := .at 9000 } }

/-- The running transport with one record in its track, counted where its lead is seen. -/
def carrying (r : SheetRecord) : Transport :=
  { running with track := [r], nextId := 1, batch := { counters := { picked := if r.life == .picked then 0 else 1 } } }

theorem pageLaw_one (x : Transport) (r : SheetRecord) (ht : x.track = [r]) (hi : r.id < x.nextId)
    (he : r.front.empty ∧ r.back.empty ∧ (r.life = .withdrawn → r.front.imageless ∧ r.back.imageless))
    (hf : x.captureLinked .front) (hb : x.captureLinked .back) : x.PageLaw := by
  refine ⟨?_, ?_, ?_, hf, hb⟩ 
  · simp [ht]
  · simp [ht, hi]
  · rw [ht]; simpa using he

theorem linked_idle (x : Transport) (sd : Side) (h : (x.unit sd).activity = .idle) : x.captureLinked sd := by
  intro id e g
  rw [h] at g
  cases g

theorem pageLaw_idle : ({} : Transport).PageLaw :=
  ⟨by decide, by decide, by unfold SideRecord.empty SideRecord.imageless; decide, linked_idle _ _ rfl, linked_idle _ _ rfl⟩

theorem pageLaw_picked : (carrying picked).PageLaw :=
  pageLaw_one _ picked rfl (by decide) (by unfold SideRecord.empty SideRecord.imageless; decide) (linked_idle _ _ rfl) (linked_idle _ _ rfl)

theorem countLaw_idle : ({} : Transport).CountLaw :=
  ⟨by decide, by decide, by decide, by decide, ⟨by decide, fun ⟨_, h, _⟩ => nomatch h⟩, by decide⟩

/-- A queue with a command in it, and an empty one. -/
theorem witness_StepTakesFront :
    (∃ (c : Instr) (rest : List Instr), c :: rest = [.evtclrWrite 1]) ∧ State.reset.pending = [] := ⟨⟨_, _, rfl⟩, rfl⟩

theorem witness_ResetState : (Register.evt ≠ .runctl) ∧ Register.rbaseL ≠ .runctl := by decide

theorem witness_MemoryStaysCanonical :
    let s := { State.reset with hostMem := [(4, 7), (9, 1)], pending := [.evtclrWrite 1] }
    Memory.wf s.hostMem ∧ ∃ u, step s = .next u := ⟨by decide, _, rfl⟩

theorem witness_ControlLawKept :
    let s := { on running with pending := [.stallTimerExpiry 0] }
    s.ControlLaw ∧ ∃ u, step s = .next u :=
  ⟨⟨on_all _ running (by unfold Transport.ControlLaw; decide) (by unfold Transport.ControlLaw; decide),
    fun _ _ h => nomatch h⟩, _, rfl⟩

theorem witness_BoundsKept :
    let s := { on (carrying picked) with pending := [.encoderSkip 0] }
    s.Bounded ∧ ∃ u, step s = .next u :=
  ⟨on_all _ (carrying picked) (by unfold Transport.Bounded; decide) (by unfold Transport.Bounded; decide), _, rfl⟩

/-- A record that holds page 0 and is promised one page more. -/
def holdingPage : SheetRecord := { inPath with front := { capture := .complete, pages := [0] } }

theorem pageLaw_state (x : Transport) (h : HoldStore) (c : List Instr) (hx : x.PageLaw)
    (hp : (h.free ++ x.holding).Perm (List.range h.total)) (hr : h.reserved ≤ h.free.length) :
    ({ on x with hold := h, pending := c } : State).PageLaw := by
  refine ⟨?_, hr, on_all Transport.PageLaw x hx pageLaw_idle⟩
  show (h.free ++ (x.holding ++ [])).Perm (List.range h.total)
  simpa using hp

theorem witness_PageLawKept :
    let s := { on (carrying holdingPage) with
      hold := { free := (List.range 4095).map Nat.succ, reserved := 4095 }, pending := [.encoderSkip 0] }
    s.PageLaw ∧ ∃ u, step s = .next u := by
  refine ⟨pageLaw_state _ _ _ (pageLaw_one _ holdingPage rfl (by decide)
    (by unfold SideRecord.empty SideRecord.imageless; decide) (linked_idle _ _ rfl) (linked_idle _ _ rfl)) ?_ ?_, _, rfl⟩
  · have e2 : (carrying holdingPage).holding = [0] := by decide
    rw [e2]
    refine List.Perm.trans (List.perm_append_singleton _ _) ?_
    rw [← List.range_succ_eq_map]
    exact .refl _
  · simp

theorem witness_CountLawKept :
    let s := { on (carrying picked) with pending := [.pickMiss 0] }
    s.ControlLaw ∧ s.CountLaw ∧ (∀ t, (s.tr t).PageLaw) ∧ ∃ u, step s = .next u :=
  ⟨⟨on_all _ _ (by unfold Transport.ControlLaw; decide) (by unfold Transport.ControlLaw; decide), fun _ _ h => nomatch h⟩,
    on_all _ _ ⟨by decide, by decide, by decide, by decide, ⟨by decide, fun ⟨_, h, _⟩ => nomatch h⟩, by decide⟩ countLaw_idle,
    on_all _ _ pageLaw_picked pageLaw_idle, _, rfl⟩

theorem witness_MemoryFrame :
    (∃ u, exec (.entryWriteDone .ok) State.reset = .next u) ∧ ∀ x ∈ writtenCells (.entryWriteDone .ok) State.reset, x.1 ≠ 0 :=
  ⟨⟨_, rfl⟩, by decide⟩

theorem witness_ConsequencesFrame :
    (State.reset.tr 0).state ≠ .running ∧ (State.reset.tr 0).state ≠ .draining ∧
    (let s := State.reset.setRoom { part := .halting, pollTimer := some 3, sweepPending := true }
     (s.room.part = .halting ∧ ∀ t, (s.tr t).state = .off) ∧ s.haltQuiet.room.pollTimer = none ∧
     s.haltQuiet.room.sweepPending = false) ∧ State.reset.room.part ≠ .halting ∧
    (let r : SheetRecord := { life := .done, verdict := { decided := true }, markResult := .noDivider, id := 0, pickPos := 1,
                              selector := .main }
     let s := State.reset.setTr 0 { track := [r, { r with markResult := .pending }] }
     ((s.settleTransport 0 2).tr 0).track = [{ r with markResult := .pending }] ∧
     (s.tr 0).track = r :: [{ r with markResult := .pending }]) := by decide +kernel

/-- A path without a change, one with a changed wait, one with one change of state, with two, and one in a step that requests
a write of its own. -/
theorem witness_ReportsRequested :
    let changed := fun p : State × State =>
      (p.1.tr 0).state ≠ (p.2.tr 0).state ∨ (p.1.tr 0).stopReason ≠ (p.2.tr 0).stopReason ∨
        (p.1.tr 0).purpose ≠ (p.2.tr 0).purpose
    let a := on { running with state := .ready }
    let b := on running
    let c := on { running with state := .draining, purpose := .endBatch }
    let w := on { running with pickWait := .tray }
    State.reset.room.status[(0 : TransportNo)] = .idle ∧
    ((∀ p ∈ [b].zip ([] : List State), ¬changed p) ∧ ((b.tr 0).pickWait = (b.tr 0).pickWait)) ∧
    ((∀ p ∈ [(b, w)], ¬changed p) ∧ ¬(w.tr 0).pickWait = (b.tr 0).pickWait) ∧
    ((a :: [b]).zip [b] = [] ++ (a, b) :: [] ∧ changed (a, b)) ∧
    ((a :: [b, c]).zip [b, c] = [] ++ (a, b) :: ([] ++ (b, c) :: []) ∧ changed (b, c)) ∧
    ((0 : TransportNo) ∈ [(0 : TransportNo)] ∧ ∃ p ∈ [(a, b)], changed p) ∧ (0 : TransportNo) ∉ ([] : List TransportNo) :=
  ⟨by decide, ⟨fun _ h => (nomatch h), rfl⟩, ⟨by decide, by decide⟩, ⟨rfl, by decide⟩, ⟨rfl, by decide⟩,
    ⟨by decide, by decide⟩, by decide⟩

/-! ### Encoder and sensors -/

/-- The transport with a position unit as given. -/
def at' (x : Transport) (p : PositionUnit) : Transport := { x with pos := p }

/-- Mode 1x counts a rising edge of A alone (01 Table 1-2): a counted edge, and the uncounted falling one. -/
theorem witness_EncoderEdges :
    let up := ({ multiplier := .x1, levelA := false } : PositionUnit)
    let down := ({ multiplier := .x1, levelA := true } : PositionUnit)
    up.levelA = false ∧ ¬(down.levelA = false) ∧ ((false, false), (true, false)) ∈ forwardSteps ∧
    ((false, true), (false, false)) ∈ forwardSteps := by decide

/-- A reverse count from 0 goes to 2^32 - 1, and the forward count from there to 0 (R1). -/
theorem test_encoder_wraps :
    (∃ u, exec (.encoderCount 0 .b 0) State.reset = .next u ∧ (u.tr 0).pos.counter = 0xFFFFFFFF#32) ∧
    ∃ u, exec (.encoderCount 0 .a 0) (on { pos := { counter := 0xFFFFFFFF } }) = .next u ∧ (u.tr 0).pos.counter = 0 :=
  ⟨⟨_, rfl, by decide⟩, ⟨_, rfl, by decide⟩⟩

theorem witness_EncoderCountFrame :
    (∃ u, exec (.encoderCount 0 .a 700) (on (carrying inPath)) = .next u) ∧ (1 : TransportNo) ≠ 0 ∧
    ((on (carrying inPath)).tr 0).pos.counts .a = true := ⟨⟨_, rfl⟩, by decide, by decide⟩

/-- The count that passes the ENTRY window's end, and the same count reversed. -/
theorem witness_PassingRaisesExpiries :
    let x := at' (carrying { picked with gap := .at 2100 }) { counter := 2100 }
    x.PageLaw ∧ x.pos.counts .a = true ∧ x.pos.goesForward .a = true ∧ x.pos.goesForward .b = false ∧ x.pos.counts .b = true :=
  ⟨pageLaw_one _ { picked with gap := .at 2100 } rfl (by decide) (by unfold SideRecord.empty SideRecord.imageless; decide)
    (linked_idle _ _ rfl) (linked_idle _ _ rfl), by decide⟩

/-- A record at DF, judged with the thresholds of 04's example. -/
def atDF : SheetRecord := { inPath with verdict := { thresholds := some (350, 437) } }

/-- Both sides of the D-th count (D = 40), and one transport for each place a sample goes. -/
theorem witness_SampleStep :
    let x := fun n : Nat => { running with dfu := { step := n } }
    let here := fun r : RunState => at' { carrying atDF with dfu := { step := 39, run := r } } { df := { level := true } }
    let find := fun y : Transport => y.track.find? fun r => r.life != .withdrawn && r.df.lead.isSome && r.df.trail.isNone
    (∃ u, exec (.encoderCount 0 .a 438) (on (here (.inside 3))) = .next u) ∧
    (x 38).setup = some pathSetup ∧ (x 38).pos.counts .a = true ∧ (x 38).pos.goesForward .a = true ∧
    38 + 1 < pathSetup.sampleDistance ∧ pathSetup.sampleDistance ≤ 39 + 1 ∧ (x 38).pos.goesForward .b = false ∧
    ((x 39).state = .running ∧ (x 39).motor = .driving ∧ (x 39).pos.df.level = false) ∧
    (¬(({ x 39 with state := .paused } : Transport).state = .running ∨ ({ x 39 with state := .paused } : Transport).state = .draining)) ∧
    ({ x 39 with motor := .runIn } : Transport).motor = .runIn ∧ find (here .outside) = some atDF ∧
    (here (.inside 3)).pos.df.level = true ∧ (here (.inside 3)).dfu.run = .inside 3 ∧ (here .none).dfu.run = .none ∧
    atDF.verdict.ampUnavailable = false ∧ atDF.verdict.thresholds = some (350, 437) ∧
    find (at' (x 39) { df := { level := true } }) = none ∧ (437 : BitVec 10).toNat ≤ 437 ∧ 437 < (438 : BitVec 10).toNat :=
  ⟨⟨_, rfl⟩, by decide⟩

/-- A sample of 349, one below E_in, opens a run at the position after the count; one of 350 opens none (R76). -/
theorem test_run_opens :
    let here := at' { carrying atDF with dfu := { step := 39, run := .outside } } { counter := 1500, df := { level := true } }
    (∃ u, exec (.encoderCount 0 .a 349) (on here) = .next u ∧ (u.tr 0).dfu.run = .inside 1501) ∧
    ∃ u, exec (.encoderCount 0 .a 350) (on here) = .next u ∧ (u.tr 0).dfu.run = .outside :=
  ⟨⟨_, rfl, by decide⟩, ⟨_, rfl, by decide⟩⟩

/-- One sensor state for each clause. -/
theorem witness_RawEdgePends :
    let pend := ({ raw := true, pending := some { latch := 5, hold := 15 } } : SensorState)
    let back := ({ raw := true } : SensorState)
    let fresh := ({} : SensorState)
    running.pos.debounce ≠ 0 ∧ pend.pending = some { latch := 5, hold := 15 } ∧
    (back.pending = none ∧ (!back.raw) = back.level) ∧ (fresh.pending = none ∧ (!fresh.raw) ≠ fresh.level) ∧
    fresh.raw = false ∧ running.isActive = true ∧ running.marks.measurement = .none ∧ Sensor.coverOpen ≠ .station .mark := by
  decide

/-- A station's change whose expiries are free, accepted inside the window and as a stop; a glitch; a cover that opens and one
that closes with a start waiting; a debounce time of 0. -/
theorem witness_HoldTimerAccepts :
    let pend : SensorState := { raw := true, pending := some { latch := 500, hold := 15 } }
    let glitch : SensorState := { raw := false, pending := some { latch := 500, hold := 15 } }
    let closing : SensorState := { level := true, raw := false, pending := some { latch := 5, hold := 15 } }
    let quiet := fun a : State => (a.tr 0).marks.windowEnd ≠ .raised ∧
      ∀ r ∈ (a.tr 0).track, (r.at .entry).leadEnd ≠ .raised ∧ (r.at .entry).trailEnd ≠ .raised
    (((on (at' running { entry := pend })).tr 0).pos.sensor (.station .entry)).pending.isSome = true ∧
    ((on (at' running { debounce := 0 })).tr 0).pos.debounce = 0 ∧ pend.raw ≠ pend.level ∧ glitch.raw = glitch.level ∧
    quiet ((on (at' (carrying picked) { entry := { raw := true, level := true } })).stationChange 0 .entry true 500) ∧
    ¬(((on running).stationChange 0 .entry true 500).tr 0).isActive ∧
    quiet (on running) ∧ (at' running { mark := glitch }).marks.measurement ≠ .provisional ∧
    ({ running with marks := { measurement := .provisional } } : Transport).marks.measurement = .provisional ∧
    running.isActive = true ∧ ({ running with state := .ready } : Transport).state = .ready ∧ State.reset.room.part = .halted ∧
    (State.reset.tr 0).state = .off ∧ closing.raw = false ∧ closing.raw ≠ closing.level ∧
    (let w := ({ running with motor := .standing, coverWait := true } : Transport)
     w.isActive = true ∧ w.coverWait = true ∧ w.motor = .standing ∧ w.cfg.runInDistance ≠ 0) ∧ running.coverWait = false ∧
    ({ running with setup := none } : Transport).cfg.runInDistance = 0 := by decide

theorem witness_ReflectivePulses :
    let p : Pulse := { start := 5, stop := none }
    let q : Pulse := { start := 5, stop := some 9 }
    let m := fun ps : List Pulse => ({ measurement := .provisional, pulses := ps } : MarkUnit)
    (m []).measurement ≠ .none ∧ (m (List.replicate 7 q)).pulses.length < 8 ∧ 8 ≤ (m (List.replicate 8 q)).pulses.length ∧
    (m [q, p]).pulses = [q] ++ [p] ∧ p.stop = none ∧ (m [q, q]).pulses = [q] ++ [q] ∧ q.stop ≠ none ∧ (m []).pulses = [] ∧
    running.marks.measurement = .none := by decide

/-- The ENTRY window of a record picked at 100 with a window of 2000 ends at 2100: the last position inside, the first
outside, and a track without a PICKED record. -/
theorem witness_EntryLeadEdge :
    let x := (on (carrying picked)).tr 0
    x.isActive = true ∧ x.track.find? (fun r => r.life == .picked) = some picked ∧
    fwd picked.pickPos 2100 ≤ fwd picked.pickPos (picked.pickPos + BitVec.ofNat 32 x.cfg.pickWindow) ∧
    fwd picked.pickPos (picked.pickPos + BitVec.ofNat 32 x.cfg.pickWindow) < fwd picked.pickPos 2101 ∧
    ((on running).tr 0).track.find? (fun r => r.life == .picked) = none := by decide

/-- Where the records are found whose edge is expected at a station (R14). -/
def leadFound (x : Transport) (st before : Station) : Option SheetRecord :=
  x.track.find? fun r => r.life != .withdrawn && (r.at before).lead.isSome && (r.at st).lead.isNone

def trailFound (x : Transport) (st before : Station) : Option SheetRecord :=
  x.track.find? fun r => r.life != .withdrawn && (r.at st).lead.isSome && (r.at st).trail.isNone &&
    (st == .entry || (r.at before).trail.isSome)

/-- A record whose ENTRY lead is seen and whose FRONT side waits. -/
def entered : SheetRecord :=
  { id := 0, pickPos := 100, selector := .main, sheet := some 1, life := .inPath, entry := { lead := some 150 },
    front := { capture := .waiting } }

/-- A record at DF whose ENTRY trail is seen; its deadline is passed in the second. -/
def leaving (passed : Bool) : SheetRecord :=
  { entered with entry := { lead := some 150, trail := some 900 },
                 df := { lead := some 1350, trailEnd := if passed then .raised else .at 9000 } }

theorem pageLaw_carrying (r : SheetRecord) (hi : r.id = 0) (hf : r.front.pages = []) (hb : r.back.pages = [])
    (hl : r.life ≠ .withdrawn) : (carrying r).PageLaw :=
  pageLaw_one _ r rfl (by rw [hi]; show (0 : Nat) < 1; decide) ⟨fun _ => hf, fun _ => hb, fun h => absurd h hl⟩
    (linked_idle _ _ rfl) (linked_idle _ _ rfl)

/-- The DF window of a lead at 150 with DDF = 1200 and a tolerance of 150 goes from 1200 to 1500; a trail after a passed
deadline; the trail of ENTRY with a gap distance of 400 at counters that are not past it and past it by one. -/
theorem witness_StationEdges :
    let x := carrying entered
    let y := fun b => carrying (leaving b)
    let inside := fun q : Pos => fwd 1200 q ≤ fwd 1200 1500
    let beyond := fun p c : Pos => 1 ≤ fwd p c ∧ fwd p c < 2 ^ 31
    (x.PageLaw ∧ (y false).PageLaw) ∧ x.isActive = true ∧ leadFound running .df .entry = none ∧
    trailFound running .entry .entry = none ∧ leadFound x .df .entry = some entered ∧
    (150 + BitVec.ofNat 32 x.cfg.dDF : Pos) = 1350 ∧ inside 1200 ∧ inside 1500 ∧ ¬inside 1501 ∧ ¬inside 1199 ∧
    trailFound (y true) .df .entry = some (leaving true) ∧ (x.copyOf .main).cLMax < fwd 1350 9001 ∧
    (leaving true).df.trailEnd = .raised ∧ trailFound (y false) .df .entry = some (leaving false) ∧
    (leaving false).df.trailEnd ≠ .raised ∧ trailFound x .entry .entry = some entered ∧ entered.entry.trailEnd ≠ .raised ∧
    x.cfg.gapDistance ≠ 0 ∧ ¬beyond 1300 1300 ∧ beyond 1300 1301 ∧ ({} : Transport).cfg.gapDistance = 0 ∧
    entered.front.capture = .waiting ∧ ¬beyond (1350 + BitVec.ofNat 32 (x.cfg.cameraDistance .front)) x.pos.counter ∧
    beyond (1350 + BitVec.ofNat 32 (x.cfg.cameraDistance .front)) 4000 ∧ (x.unit .front).activity = .idle :=
  ⟨⟨pageLaw_carrying _ rfl rfl rfl (by decide), pageLaw_carrying _ rfl rfl rfl (by decide)⟩, by decide⟩

/-- A record with its leads seen up to MARK, and up to EXIT. -/
def toMark : SheetRecord :=
  { entered with entry := { lead := some 150, trail := some 900 }, df := { lead := some 1350, trail := some 2100 },
                 front := { capture := .complete } }

def atMark : SheetRecord := { toMark with mark := { lead := some 2550, trailEnd := .at 9000 } }
def toExit : SheetRecord := { toMark with mark := { lead := some 2550, trail := some 3300 } }
def atExit : SheetRecord := { toExit with exit := { lead := some 4950, trailEnd := .at 9000 } }

/-- One record for each clause; the MARK window goes from 2400 to 2700, that of EXIT from 4800 to 5100. -/
theorem witness_MarkAndExitEdges :
    (∀ r ∈ [toMark, atMark, toExit, atExit], (carrying r).PageLaw) ∧ (carrying toMark).isActive = true ∧ leadFound (carrying toMark) .mark .df = some toMark ∧ fwd 2400 2700 ≤ fwd 2400 2700 ∧
    ((carrying toMark).copyOf .main).profile.markCheck = false ∧
    ({ carrying toMark with batch := { snapshot := some { main := { profile := { markCheck := true } }, alt := none, routes := [] } } } :
      Transport).profileOf .main = { markCheck := true } ∧
    ¬(1 ≤ fwd (2550 : Pos) (2550 : Pos)) ∧ 1 ≤ fwd (2550 : Pos) (2551 : Pos) ∧
    trailFound (carrying atMark) .mark .df = some atMark ∧ atMark.mark.trailEnd ≠ .raised ∧
    (carrying atMark).marks.measurement ≠ .opened 0 ∧
    ({ carrying atMark with marks := { measurement := .opened 0 } } : Transport).marks.measurement = .opened atMark.id ∧
    leadFound (carrying toExit) .exit .mark = some toExit ∧ fwd 4800 5100 ≤ fwd 4800 5100 ∧
    trailFound (carrying atExit) .exit .mark = some atExit ∧ atExit.exit.trailEnd ≠ .raised ∧
    (carrying atExit).runOn ≠ some atExit.id ∧ ({ carrying atExit with runOn := some 0 } : Transport).runOn = some atExit.id :=
  ⟨fun r h => by
    simp only [List.mem_cons, List.not_mem_nil, or_false] at h
    rcases h with rfl | rfl | rfl | rfl <;> exact pageLaw_carrying _ rfl rfl rfl (by decide), by decide⟩

/-! ### Expiries, timers, the Double-Feed Unit, capture and marks -/

/-- A record whose FRONT side is captured, its window end passed or not. -/
def capturing (windowEnd : Armed) : SheetRecord :=
  { inPath with front := { capture := .capturing, windowEnd, repaired := 2, lines := 9 } }

/-- A transport whose FRONT unit captures for such a record, with the line numbers from expected up to trigger outstanding. -/
def capturerOf (r : SheetRecord) (ended : Bool) (expected trigger : BitVec 16) (wait : Bool) : Transport :=
  { carrying r with front := { activity := .capturing 0 ended, trigger, expected, packetWait := wait } }

def capturer (windowEnd : Armed) (ended : Bool) (expected trigger : BitVec 16) (wait : Bool) : Transport :=
  capturerOf (capturing windowEnd) ended expected trigger wait

theorem linked_one (x : Transport) (sd : Side) (i : Nat) (e : Bool) (h : (x.unit sd).activity = .capturing i e)
    (hi : i < x.nextId) (hr : ∀ r ∈ x.track, r.id = i → (r.side sd).capture = .capturing) : x.captureLinked sd := by
  intro j f g
  rw [h] at g
  cases g
  exact ⟨hi, hr⟩

theorem pageLaw_capturerOf (r : SheetRecord) (e : Bool) (a b : BitVec 16) (p : Bool) (hi : r.id = 0)
    (hf : r.front.capture = .capturing) (hb : r.back.pages = []) (hl : r.life ≠ .withdrawn) : (capturerOf r e a b p).PageLaw :=
  pageLaw_one _ r rfl (by rw [hi]; show (0 : Nat) < 1; decide)
    ⟨fun h => (by rw [hf] at h; exact absurd h (by decide)), fun _ => hb, fun h => absurd h hl⟩
    (linked_one _ _ 0 e rfl (by show (0 : Nat) < 1; decide)
      (by intro q h _; rw [List.mem_singleton.mp h]; exact hf)) (linked_idle _ _ rfl)

theorem pageLaw_capturer (w : Armed) (e : Bool) (a b : BitVec 16) (p : Bool) : (capturer w e a b p).PageLaw :=
  pageLaw_capturerOf _ e a b p rfl rfl rfl (by show Lifecycle.inPath ≠ .withdrawn; decide)

/-- The expiries of a late record, those held back by pending changes, and a DONE record whose FRONT side is captured, with a line
outstanding and with none, before its window end and past it. -/
theorem witness_ExpiryStops :
    let late := { inPath with mark := { leadEnd := .raised }, df := { inPath.df with trailEnd := .raised } }
    let x := carrying late
    let p : PositionUnit := { mark := { level := true, pending := some { latch := 1, hold := 15 } } }
    let done := fun w : Armed => { capturing w with life := .done }
    let y := fun w => capturerOf (done w) false 3
    (x.isActive = true ∧ late ∈ x.track ∧ late.life ≠ .withdrawn ∧ (late.at .mark).leadEnd = .raised ∧
      (late.at .df).trailEnd = .raised ∧ (x.pos.sensor (.station .mark)).pending = none ∧
      (x.pos.sensor (.station .df)).pending = none ∧ x.pos.stallTimer.isSome = true) ∧
    ((p.sensor (.station .mark)).pending.isSome = true ∧ p.mark.level = true ∧
      (({ entry := { raw := true, pending := some { latch := 1, hold := 15 } } } : PositionUnit).sensor
        (.station .entry)).pending.isSome = true) ∧
    (y .idle 5 false).PageLaw ∧ (y .idle 5 false).isActive = true ∧ done .idle ∈ (y .idle 5 false).track ∧
    ((y .idle 5 false).unit .front).activity = .capturing (done .idle).id false ∧
    ((y .idle 5 false).unit .front).trigger ≠ ((y .idle 5 false).unit .front).expected ∧
    ((y .idle 3 false).unit .front).trigger = ((y .idle 3 false).unit .front).expected ∧
    ((done .idle).side .front).windowEnd ≠ .raised ∧ ((done .raised).side .front).windowEnd = .raised :=
  ⟨by decide, by decide, pageLaw_capturerOf _ _ _ _ _ rfl rfl rfl (by show Lifecycle.done ≠ .withdrawn; decide),
    by decide⟩

/-- The last retry, the first miss beyond it (pick retries 1), and a miss in DRAINING. -/
theorem witness_PickMiss :
    let r := { picked with entry := { leadEnd := .raised } }
    let x := carrying r
    x.track.find? (fun r => r.life == .picked && r.entry.leadEnd == .raised) = some r ∧ x.isActive = true ∧
    x.pos.entry.pending = none ∧ x.state = .running ∧ x.runOn = none ∧ 0 < x.cfg.pickRetries ∧ x.cfg.pickRetries ≤ 1 ∧
    ({ x with state := .draining } : Transport).isActive = true := by decide

theorem witness_RunInAndGap :
    let x := { running with state := .paused, motor := .runOff, runOffTimer := some 30 }
    ({ running with motor := .runIn, runInEnd := .raised } : Transport).runInEnd = .raised ∧
    (carrying { inPath with gap := .raised }).track.find? (fun r => r.gap == .raised) = some { inPath with gap := .raised } ∧
    (x.state = .ready ∨ x.state = .paused) ∧ x.track = [] ∧ x.motor ≠ .runIn ∧ x.motor = .runOff ∧ x.runOffTimer.isSome = true ∧
    x.pos.stallTimer.isSome = true := by decide

/-- Gaps of 3 and 4 samples, below, at and above R; the greatest R; the narrowest ratios. -/
theorem witness_ReferenceAndThresholds :
    let d := fun r : Nat => ({ reference := r, gap := { sum := 4000, count := 4 } } : DoubleFeedUnit)
    (d 0).gap.count = 4 ∧ ({ gap := { sum := 9, count := 3 } } : DoubleFeedUnit).gap.count < 4 ∧
    (d 63992).reference + 8 ≤ 64 * ((d 0).gap.sum / (d 0).gap.count) ∧
    64 * ((d 0).gap.sum / (d 0).gap.count) + 8 ≤ (d 64008).reference ∧ (d 65472).reference ≤ 65472 ∧
    0 < 254 ∧ 254 < 255 ∧ 64 * 128 / 16384 = 0 ∧ ¬(64 * 128 / 16384 < 64 * 160 / 16384) ∧
    44800 * 128 / 16384 < 44800 * 160 / 16384 := by decide

/-- A run one tenth too short and one just long enough; 3 and 4 stored segments; a record that has run into a run, one that is
LENGTH_UNVERIFIED, and profiles with and without a nominal length. -/
theorem witness_RunsAndVerdict :
    let x : Transport := { setup := some pathSetup, dfu := { run := .inside 1500 } }
    let g : Segment := { offset := 1, length := 2, exempt := false }
    (∀ start, ({} : Transport).dfu.run ≠ .inside start) ∧ (x.tenths 352 < 150 ∧ 150 ≤ x.tenths 354) ∧
    (({ segments := [g, g, g] } : Verdict).segments.length < 4 ∧ 4 ≤ ({ segments := [g, g, g, g] } : Verdict).segments.length) ∧
    x.dfu.run = .inside 1500 ∧ inPath.verdict.lengthUnverified = false ∧ (x.profileOf inPath.selector).nominal = 0 ∧
    ({ lengthUnverified := true } : Verdict).lengthUnverified = true ∧ ({ nominal := 2970 } : Profile).nominal ≠ 0 :=
  ⟨fun _ h => (nomatch h), by decide⟩

theorem witness_Conversions :
    2 ≤ 2 ∧ 0 < 1 ∧ 65535 < 65536 ∧ countsOf 2 65535 65535 < 16777215 ∧ countsOf 0 1 65535 = 16777215 ∧
    lengthOf 2 1 1 < 65535 ∧ lengthOf 2 65535 16777215 = 65535 ∧ 4 < countsOf 2 65535 65535 := by decide

/-- A record whose FRONT side waits with its window start passed. -/
def waiting : SheetRecord := { inPath with front := { capture := .waiting, windowStart := .raised, reserve := 2 } }

/-- An older record whose FRONT side is still captured, its window ended or its window end passed and not yet taken, and a
younger one that waits. -/
def twoRecords (ended : Bool) : Transport :=
  { running with
    track := [{ inPath with front := { capture := .capturing, windowEnd := if ended then .idle else .raised } },
              { waiting with id := 1 }]
    nextId := 2
    front := { activity := .capturing 0 ended, trigger := 0, expected := 0xFFFF } }

theorem pageLaw_two (e : Bool) : (twoRecords e).PageLaw := by
  refine ⟨by show [0, 1].Nodup; decide, ?_, ?_, linked_one _ _ 0 e rfl (by show (0 : Nat) < 2; decide) ?_, linked_idle _ _ rfl⟩
  all_goals intro r h; rcases List.mem_cons.mp h with rfl | h
  · show (0 : Nat) < 2; decide
  · rw [List.mem_singleton.mp h]; show (1 : Nat) < 2; decide
  · exact ⟨fun _ => rfl, fun _ => rfl, fun h => nomatch h⟩
  · rw [List.mem_singleton.mp h]; exact ⟨fun _ => rfl, fun _ => rfl, fun h => nomatch h⟩
  · exact fun _ => rfl
  · rw [List.mem_singleton.mp h]; exact fun g => absurd g (by show (1 : Nat) ≠ 0; decide)

/-- A start of an IDLE unit; a start over an older side, its end taken and not; an end with a line outstanding across the wrap of
its number and with none; a packet wait. -/
theorem witness_CaptureWindows :
    let start := fun x : Transport =>
      x.track.find? (fun r => (r.side .front).capture == .waiting && (r.side .front).windowStart == .raised)
    let ending := fun x : Transport =>
      x.track.find? (fun r => (r.side .front).capture == .capturing && (r.side .front).windowEnd == .raised)
    ((carrying waiting).PageLaw ∧ start (carrying waiting) = some waiting ∧
      ((carrying waiting).unit .front).activity = .idle ∧
      ((carrying waiting).unit .front).trigger = ((carrying waiting).unit .front).expected) ∧
    (∀ e, (twoRecords e).PageLaw ∧ start (twoRecords e) = some { waiting with id := 1 } ∧
      ((twoRecords e).unit .front).activity = .capturing 0 e ∧ ∃ q ∈ (twoRecords e).track, q.id = 0 ∧
        (e = true ∨ (q.side .front).windowEnd = .raised)) ∧
    (capturer .raised false 0xFFFF 0 false).PageLaw ∧ ending (capturer .raised false 0xFFFF 0 false) = some (capturing .raised) ∧
    ((capturer .raised false 0xFFFF 0 false).unit .front).trigger ≠ ((capturer .raised false 0xFFFF 0 false).unit .front).expected ∧
    ((capturer .raised false 3 3 false).unit .front).trigger = ((capturer .raised false 3 3 false).unit .front).expected ∧
    (capturer .idle true 0xFFFF 0 true).front.packetWait = true ∧ capturing .idle ∈ (capturer .idle true 0xFFFF 0 true).track :=
  ⟨⟨pageLaw_carrying _ rfl rfl rfl (by decide), by decide, rfl, rfl⟩,
    fun e => ⟨pageLaw_two e, by cases e <;> decide, rfl, _, List.mem_cons_self, rfl, by cases e <;> decide⟩,
    pageLaw_capturer .., by decide, by decide, by decide, rfl, List.mem_singleton.mpr rfl⟩

/-- A packet of W = 1 pixel for line 0xFFFF with its CRC, and one with another CRC. -/
theorem witness_LinePackets :
    let x := { capturer .idle false 0xFFFF 0 false with setup := some { pathSetup with width := 1 } }
    let body : List Byte := [0xFF, 0xFF, 1, 0, 9, 9, 9]
    let good := body ++ leBytes (crcOver 0xFFFF#16 body).toNat 2
    packetChecks good = true ∧ packetChecks (body ++ [0, 0]) = false ∧ BitVec.ofNat 16 (field good 0 2) = x.front.expected ∧
    x.front.trigger ≠ x.front.expected ∧ field good 2 2 = x.cfg.width ∧ field good 2 2 ≠ pathSetup.width ∧
    (x.front.trigger - x.front.expected).toNat ≤ ((0 : BitVec 16) - x.front.expected).toNat ∧ running.front.activity = .idle := by
  decide +kernel

/-- A unit inside its side's window, below the pitch and at it (65536 is the least pitch), with a rewind, with 32767 lines
outstanding; a side that has ended; a line that fits its page and one that does not, with a reserve, with a free page, and with
neither. -/
theorem witness_LineTriggerAndPages :
    let x := fun (p rewind acc : Nat) (trigger : BitVec 16) =>
      { capturer .idle false 0 trigger false with
        batch := { counters := { picked := 1 }, snapshot := some { main := { profile := { pitch := p } }, alt := none, routes := [] } }
        front := { (capturer .idle false 0 trigger false).front with rewind, accumulator := acc } }
    let u := fun (p rewind acc : Nat) (trigger : BitVec 16) => (x p rewind acc trigger).unit .front
    let side := fun (n reserve : Nat) => ({ image := zeroBytes n, reserve } : SideRecord)
    (∀ id, running.front.activity ≠ .capturing id false) ∧ (carrying inPath).pos.counts .a = true ∧
    (x 65536 0 0 5).record 0 = some (capturing .idle) ∧
    (u 65536 0 0 5).activity = .capturing (capturing .idle).id false ∧ ((capturing .idle).side .front).windowEnd ≠ .raised ∧
    ((capturing .raised).side .front).windowEnd = .raised ∧
    ((x 131072 0 0 5).profileOf .main).pitch = 131072 ∧ (u 131072 0 65535 5).accumulator + 65536 < 131072 ∧
    131072 ≤ (u 131072 0 65536 5).accumulator + 65536 ∧ 0 < (u 65536 1 0 5).rewind ∧ (u 65536 1 0 5).rewind < 2 ^ 32 - 1 ∧
    (u 65536 0 0 5).outstanding + 1 ≠ 32768 ∧ (u 65536 0 0 32767).outstanding + 1 = 32768 ∧
    ¬(65536 * 0 < 0 + 0) ∧ 65536 * 0 < 0 + 1 ∧ (side 0 1).clipped = false ∧ 0 < (side 0 1).reserve ∧ (side 0 0).reserve = 0 ∧
    0 < ({ free := [4], reserved := 0 } : HoldStore).freePages ∧ ({ free := [4], reserved := 1 } : HoldStore).freePages = 0 ∧
    ({ side 0 0 with clipped := true } : SideRecord).clipped = true :=
  ⟨fun _ h => (nomatch h), by decide⟩

/-- Grey values, a line of the width of the setup, a side without lines, and counted areas of 0 and above. -/
theorem witness_LineFormsAndBlank :
    (∀ g ∈ [0, 1, 255], g ≤ 255) ∧
    (List.replicate pathSetup.width ({ red := 1, green := 2, blue := 3 } : Pixel)).length = pathSetup.width ∧
    ({} : SideRecord).lines = 0 ∧ ({} : SideRecord).ink = 0 ∧ [3, 4].sum < 2 ^ 32 ∧
    ((80 : Int) - 2 * 40) * (9 - 0 - 0) ≤ 0 ∧ (0 : Int) < (81 - 2 * 40) * (1 - 0 - 0) ∧
    ((on (capturer .idle false 0 5 false)).tr 0).capturedRecord .front = some (capturing .idle) ∧
    (∀ h ∈ 1 :: ([0, 1] ++ [90]), h ≤ 255) ∧ (∀ h ∈ [0, 1], max 1 h = max 1 1) ∧ max 1 90 ≠ max 1 1 ∧
    3 ≤ (List.replicate 299 180).length % 255 ∧ ¬3 ≤ [0, 1].length % 255 :=
  ⟨by decide, List.length_replicate, by decide +kernel⟩

/-- An OPEN measurement of record 0 with n bars of 40 tenths inside its window. -/
def measuring (n : Nat) : Transport :=
  { carrying inPath with
    marks := { measurement := .opened 0, lead := some 1000, windowEnd := .raised,
               pulses := (List.range n).map fun i => { start := 1050 + BitVec.ofNat 32 (150 * i),
                                                       stop := some (1145 + BitVec.ofNat 32 (150 * i)) } }
    batch := { snapshot := some { main := { profile := { barMin := 20, barMax := 60, markCheck := true }, cMarkWindow := 945 },
                                  alt := some { profile := {} }, routes := [] } } }

/-- Each code of 05 Table 5-6, one bar, a seventh beyond the window and within it, a bar that is too wide and one still dark, an
overflow; a snapshot that allows a SWITCH and one without an alt profile, and the states of an END. -/
theorem witness_MarkWindowEnd :
    let res := fun x : Transport => judgeMark x ((measuring 2).profileOf .main) 1945
    let more := fun b : Pulse => { measuring 2 with marks := { (measuring 2).marks with pulses := (measuring 2).marks.pulses ++ [b] } }
    (∃ sn, (measuring 4).batch.snapshot = some sn ∧ ∃ alt, sn.alt = some alt ∧ alt.profile.pitch = sn.main.profile.pitch ∧
      alt.profile.sides = sn.main.profile.sides) ∧
    ([1, 2, 3, 4, 5, 6, 7].map fun n => res (measuring n)) = [.noDivider, .divider .document, .divider .folder, .divider .switch,
      .divider .endBatch, .divider .dropNext, .divider .dropNext] ∧
    judgeMark (measuring 7) ((measuring 2).profileOf .main) 2100 = .noDivider ∧
    ([⟨1500, some 1900⟩, ⟨1900, none⟩, ⟨1900, some 2000⟩].map fun b => res (more b)) = [.noDivider, .noDivider, .noDivider] ∧
    res (more ⟨1945, none⟩) = .divider .document ∧
    res { measuring 2 with marks := { (measuring 2).marks with overflow := true } } = .noDivider ∧
    (measuring 5).state = .running ∧ (measuring 4).batch.snapshot.any Snapshot.allowsSwitch = true ∧
    (measuring 2).marks.windowEnd = .raised ∧ (measuring 2).pos.mark.pending = none ∧ inPath ∈ (measuring 2).track ∧
    (measuring 2).marks.measurement = .opened inPath.id ∧ (measuring 5).track = [] ++ inPath :: [] ∧
    running.batch.snapshot = none ∧
    (let y : Transport := { measuring 5 with state := .draining, purpose := .pause }; y.state = .draining ∧ y.purpose = .pause) ∧
    (let y : Transport := { measuring 5 with state := .draining, purpose := .abort }
     y.state ≠ .running ∧ ¬(y.state = .draining ∧ y.purpose = .pause)) :=
  ⟨⟨_, rfl, _, rfl, rfl, rfl⟩, by decide⟩

/-! ### Registers, START, HALT, sweeps -/

/-- The reset state with a Room Interface as given. -/
def room (r : RoomInterface) : State := State.reset.setRoom r

/-- The Room Interface of a HALTED part, of an ACTIVE one, and of one whose sweep has not begun its command reads. -/
def active : RoomInterface := { part := .active }
def sweeping : RoomInterface := { part := .active, sweep := .inFlight 0 }


/-- A HALTED part with RBASE 0, misaligned by one, aligned; a part that is ACTIVE; a START in flight; a HALTING part with a
transport that is not OFF, and with none; the greatest place of a sweep; a period of 0 and of 255. -/
theorem witness_RegistersAndPolling :
    let base := fun r : RoomInterface => (r.rbaseH ++ r.rbaseL : Addr)
    let s := (on running).setRoom { part := .halting, pollTimer := some 10, sweep := .inFlight 16, pollPeriod := 255 }
    State.reset.room.part = .halted ∧ State.reset.room.startInFlight = none ∧ base {} = 0 ∧
    (base { rbaseL := 1 } ≠ 0 ∧ (base { rbaseL := 1 }).toNat % 4096 ≠ 0) ∧
    (base { rbaseH := 1 } ≠ 0 ∧ (base { rbaseH := 1 }).toNat % 4096 = 0) ∧ active.part ≠ .halted ∧
    ({ startInFlight := some 4096 } : RoomInterface).startInFlight ≠ none ∧
    s.room.pollTimer.isSome = true ∧ s.room.part = .halting ∧ (s.tr 0).state ≠ .off ∧ s.room.sweep = .inFlight 16 ∧
    s.room.answer = none ∧ s.room.setupRead = none ∧ (255 : Byte).toNat = s.room.pollPeriod ∧ (0 : Byte).toNat ≠ s.room.pollPeriod ∧
    (room { active with pollTimer := some 1 }).room.sweep = .idle ∧
    (∀ t, (State.reset.tr t).state = .off) ∧ State.reset.room.part ≠ .active ∧
    [0x0A000001#32, 2, 3, 0xFFFFFFF8, 4].map (·.toNat % 8) = [1, 2, 3, 0, 4] := by decide

/-- 09 Tables 9-2 and 9-3: words written to RUNCTL, with the read-only bits set in one; the registers at their offsets. -/
theorem test_register_rows :
    [0x0A000001#32, 0x05000002, 0xFF033303, 0x14000000, 0x00000004, 0xFFFFFFFF].map (registerRow .runctl) =
      [.start 10, .halt 5, .softReset 255, .pollPeriodWrite 20, .pollPeriodWrite 0, .pollPeriodWrite 255] ∧
    (List.range 9).map (fun n => registerAt (4 * n)) = [some .rbaseL, some .rbaseH, some .runctl, some .sweep, some .evt,
      some .evten, some .evtact, some .evtclr, none] ∧ registerAt 2 = none := by decide

/-- A header that passes, with the low mark of the whole store, and lanes 0 and 7 used (10 Table 10-1). -/
def headerBytes : List Byte :=
  leBytes 1 4 ++ [32, 8, 0, 0] ++ leBytes 4096 4 ++ zeroBytes 4
    ++ ((List.range 15).flatMap fun i => leBytes (65536 + 64 * i) 8) ++ zeroBytes 32
    ++ (leBytes 4096 8 ++ leBytes 5 2 ++ zeroBytes 6) ++ zeroBytes 96 ++ (leBytes 8192 8 ++ zeroBytes 8)

theorem witness_StartHeader :
    let s := room { startInFlight := some 4096 }
    ({ free := [4] } : HoldStore).freePages < (parseHeader headerBytes).lowMark ∧
    ¬State.reset.hold.freePages < (parseHeader headerBytes).lowMark ∧
    s.room.startInFlight = some 4096 ∧ s.room.sweep = .idle ∧ (parseHeader headerBytes).judge 4096 = .ok ∧
    (parseHeader (zeroBytes 296)).judge 4096 = .version ∧ (parseHeader headerBytes).laneHead[(1 : LaneNo)] = 0 ∧
    (parseHeader headerBytes).laneHead[(7 : LaneNo)] = 8192 := by decide +kernel

/-- START with one page free and a low mark of 4096 sets EVT.SPACE, also where the condition was yes before (R125). -/
theorem test_start_space :
    let s := (room { startInFlight := some 4096 }).setHold { free := [4], below := true, lowMark := 9 }
    ((s.loadHeader 4096 (parseHeader headerBytes)).room.evt, (s.loadHeader 4096 (parseHeader headerBytes)).hold.below) = (0x2000, true) := by
  decide

/-- A part that is ACTIVE and one that is not; a transport for each row of 02 Table 2-6. -/
theorem witness_HaltTaken :
    (room active).room.part = .active ∧ State.reset.room.part ≠ .active ∧ State.reset.tr 0 = {} ∧
    ({ running with state := .ready } : Transport).state = .ready ∧ running.state = .running ∧
    (let x : Transport := { running with state := .draining, purpose := .pause }; x.state = .draining ∧ x.purpose = .pause) ∧
    (let x : Transport := { running with state := .held, purpose := .abort }; x.state = .held ∧ x.purpose = .abort) ∧
    (let x : Transport := { running with state := .held, purpose := .halt }; x.state = .held ∧ x.purpose = .halt) ∧
    ({ running with state := .paused } : Transport).state = .paused ∧
    (let x : Transport := { running with state := .held }; x.state = .held ∧ x.purpose = .none) := by decide

/-- A HALTING part with a transport that is not OFF, and with none; the greatest place of a sweep; a period of 0 and of 255. -/
theorem witness_EventRegisters :
    (∃ u, exec (.evtenWrite 0x10) State.reset = .next u) ∧ (∃ u, exec (.softReset 0) State.reset = .next u) ∧
    (∀ l, ∃ u, exec (.powerOn l l l l) State.reset = .next u) ∧
    (0x10#16 &&& (0x10 : Word).setWidth 16 ≠ 0) ∧ (0x10#16 &&& (0xFFEF : Word).setWidth 16 = 0) :=
  ⟨⟨_, rfl⟩, ⟨_, rfl⟩, fun _ => ⟨_, rfl⟩, by decide, by decide⟩

/-- Setting the enable of a set event asserts the line; clearing the event through EVTCLR deasserts it (R172, R173). -/
theorem test_interrupt_line :
    (∃ u, exec (.evtenWrite 0x8000) (room { evt := 0xC000 }) = .next u ∧ u.interrupt = true ∧ u.readRegister .evtact = 0x8000) ∧
    ∃ u, exec (.evtclrWrite 0x8000) (room { evt := 0xC000, evten := 0x8000 }) = .next u ∧ u.interrupt = false ∧
      u.readRegister .evt = 0x4000 := ⟨⟨_, rfl, by decide⟩, ⟨_, rfl, by decide⟩⟩

/-- A sweep at its last place, with lanes 0 and 1 STARVED, the one AT an address and the other AFTER a bin, and lane 3 STARVED with a
restart in flight. -/
def starving : State :=
  (((room { sweeping with sweep := .inFlight 16 }).setLane 0 { state := .starved, cursor := .at 4096 }).setLane 1
    { state := .starved, cursor := .after 4096 }).setLane 3 { state := .starved, cursor := .at 4096, restart := true }

/-- The reads of each clause. -/
theorem witness_SweepExaminesLanes :
    let s := starving
    let links : List LaneRead := [⟨1, .data (leBytes 8192 8)⟩]
    let turns : List LaneRead := [⟨0, .data [1]⟩, ⟨1, .busError⟩, ⟨3, .data [1]⟩]
    s.room.sweep = .inFlight 16 ∧ s.room.answer = none ∧ s.room.setupRead = none ∧ (links.map (·.lane)).Nodup ∧
    (turns.map (·.lane)).Nodup ∧ ⟨0, .data [1]⟩ ∈ turns ∧ ⟨1, .busError⟩ ∈ turns ∧ ⟨1, .data (leBytes 8192 8)⟩ ∈ links ∧
    (s.lane 0).state = .starved ∧ (s.lane 0).cursor = .at 4096 ∧ (s.lane 3).state = .starved ∧ (s.lane 3).restart = true ∧
    (s.lane 1).state = .starved ∧ (s.lane 1).cursor = .after 4096 ∧ turnPosted [1] = true ∧ turnPosted [2] = false ∧
    addrField (leBytes 8192 8) 0 ≠ 0 ∧ addrField (zeroBytes 8) 0 = 0 ∧ (s.lane 2).state ≠ .starved := by decide

/-- Lane 0's bin is found posted and its take begins; the turn read of lane 1's linked bin fails (R135, R167). -/
theorem test_sweep_lanes :
    ∃ u, exec (.sweepEnd [⟨1, .data (leBytes 8192 8)⟩] [⟨0, .data [1]⟩, ⟨1, .busError⟩]) starving = .next u ∧
      (u.lane 0).binTake = true ∧ (u.lane 1).binTake = false ∧ u.room.evt = 0x4000 := ⟨_, rfl, by decide⟩

/-- A STARVED lane is read with an operation in flight too (R135, R166): a read that fails sets MEMFAULT beside a restart and
beside a bin take. -/
theorem test_sweep_reads_busy_lanes :
    (∃ u, exec (.sweepEnd [] [⟨3, .busError⟩]) starving = .next u ∧ u.room.evt = 0x4000 ∧ u.lane 3 = starving.lane 3) ∧
    ∃ u, exec (.sweepEnd [] [⟨0, .busError⟩]) (starving.modLane 0 fun l => { l with binTake := true }) = .next u ∧
      u.room.evt = 0x4000 ∧ (u.lane 0).binTake = true := ⟨⟨_, rfl, by decide⟩, _, rfl, by decide⟩

/-! ### Commands of a control block -/

/-- A sweep finds a command posted for transport 0 with the state of the transport as given. -/
def posted (x : Transport) : State := (on x).setRoom sweeping

/-- A setup block of 01, 02, 04 and 06: mode 4x, scale mode 0, S = 27744, and the distances of the examples. -/
def setupBytes : List Byte :=
  [4, 0] ++ leBytes 27744 2 ++ leBytes 1200 2 ++ leBytes 2400 2 ++ leBytes 3000 2 ++ leBytes 3600 2 ++ leBytes 4800 2
    ++ leBytes 150 2 ++ leBytes 2000 2 ++ leBytes 400 2 ++ leBytes 600 2 ++ [15, 10, 30, 1, 40, 1] ++ leBytes 100 2
    ++ leBytes 2480 2 ++ [77, 150, 29] ++ zeroBytes 29

/-- The setup of the examples is read from its block (10 Table 10-2). -/
theorem test_setup : (parseSetup setupBytes).map (·.fields) = some pathSetup := by decide

/-- A profile that is good: ratios 1 and 2, lengths and widths of 1 (04 Table 4-3). -/
def profileBytes : List Byte :=
  [1, 2] ++ leBytes 1 2 ++ leBytes 3500 2 ++ zeroBytes 6 ++ [0, 0, 0, 0] ++ zeroBytes 25 ++ [0, 1, 1] ++ leBytes 131072 4
    ++ leBytes 100 2 ++ zeroBytes 14

/-- A setup block and a profile that load, with a zone for its field. -/
theorem witness_RecordRanges :
    (∃ c, parseSetup setupBytes = some c) ∧ (∃ p, parseProfile profileBytes = some p) ∧
    parseSetup (zeroBytes 64) = none ∧ parseProfile (zeroBytes 64) = none ∧
    [((1, 2) : Nat × Nat)][0]? = some (1, 2) := by
  have a : (parseSetup setupBytes).isSome = true := by decide
  have b : (parseProfile profileBytes).isSome = true := by decide
  exact ⟨Option.isSome_iff_exists.mp a, Option.isSome_iff_exists.mp b, by decide, by decide, rfl⟩

theorem witness_EnableAndDisable :
    let x := ({ running with state := .ready, motor := .runOff, runOffTimer := some 30 } : Transport)
    ((posted {}).takesCommand (.control 0) = true ∧ Posted (block 1 1 0 7) 1 ∧ sweeping.part ≠ .halting ∧
      ((posted {}).tr 0).state = .off ∧ ((on {}).setRoom { sweeping with part := .halting }).takesCommand (.control 0) = true ∧
      (room { sweeping with setupRead := some (0, 7) }).room.setupRead = some (0, 7) ∧
      parseSetup (zeroBytes 64) = none ∧ (parseSetup setupBytes).isSome = true ∧ (State.reset.tr 0).state = .off ∧
      (State.reset.tr 0).motor = .standing ∧ (State.reset.tr 0).track = []) ∧
    (posted x).takesCommand (.control 0) = true ∧ Posted (block 1 2 0 7) 2 ∧ ((posted x).tr 0).state = .ready ∧
    (posted x).CountLaw :=
  ⟨by unfold Posted; decide, by decide, by unfold Posted; decide, rfl, on_all Transport.CountLaw _
    ⟨by decide, by decide, by decide, by decide, ⟨by decide, fun ⟨_, h, _⟩ => nomatch h⟩, by decide⟩ countLaw_idle⟩

/-- Paper at ENTRY, an open cover, and a clear path; every posted command, and the codes that are not known. -/
theorem witness_AnswersWithoutEffect :
    let held := ({ running with state := .held, stopReason := .suspect } : Transport)
    (posted held).takesCommand (.control 0) = true ∧ held.state = .held ∧ held.stopReason = .suspect ∧
    ({ held with stopReason := .jamLate } : Transport).stopReason ≠ .suspect ∧ running.state ≠ .held ∧ running.state ≠ .off ∧
    running.state ≠ .ready ∧ running.state ≠ .paused ∧ held.state ≠ .running ∧ sweeping.part ≠ .halting ∧
    ¬((at' held { entry := { level := true } }).pos.sensor (.station .entry)).level = false ∧
    ¬(at' held { coverOpen := { level := true } }).pos.coverOpen.level = false ∧ ({} : Transport).state = .off ∧
    (∀ k ∈ [1, 2, 3, 4, 5], Posted (block 1 (BitVec.ofNat 8 k) 0 7) k ∧ PostedRule (block 1 6 (BitVec.ofNat 8 k) 7) k) ∧
    (∀ k ∈ [block 1 0 0 7, block 1 7 0 7, block 1 6 0 7, block 1 6 6 7], field k 0 1 = 1 ∧
      (field k 1 1 = 0 ∨ 6 < field k 1 1 ∨ (field k 1 1 = 6 ∧ (field k 2 1 = 0 ∨ 5 < field k 2 1)))) := by
  unfold PostedRule Posted; decide

/-- A read of a control block that fails sets MEMFAULT before the next read of the sweep, so that EVTCLR may clear it (R167). -/
theorem test_failed_block_read :
    ∃ u, exec (.pause 0 .busError) (posted running) = .next u ∧ u.room.evt = 0x4000 ∧ u.room.sweep = .inFlight 2 ∧
      ∃ v, exec (.evtclrWrite 0x4000) u = .next v ∧ v.room.evt = 0 := ⟨_, rfl, by decide, by decide, _, rfl, by decide⟩

/-- A block whose bytes name another command is not this row's event; with its own bytes the PAUSE is taken (log 3). -/
theorem test_command_bytes :
    exec (.pause 0 (.data (block 1 4 0 7))) (posted running) = .next (posted running) ∧
    ∃ u, exec (.pause 0 (.data (block 1 3 0 7))) (posted running) = .next u ∧ (u.tr 0).state = .paused ∧
      u.room.answer = some { block := .control 0, code := .done, number := 8 } :=
  ⟨rfl, _, rfl, by decide, by decide⟩

/-- RUNNING with a track and without; a motor that stands or drives; a run-off time and a run-in distance of 0 and above. -/
theorem witness_PauseAndResume :
    let p := ({ running with state := .paused, motor := .standing } : Transport)
    (posted running).takesCommand (.control 0) = true ∧ Posted (block 1 3 0 7) 3 ∧ Posted (block 1 4 0 7) 4 ∧
    running.state = .running ∧ running.track = [] ∧
    (carrying picked).track ≠ [] ∧ running.motor ≠ .standing ∧ running.cfg.runOffTime ≠ 0 ∧
    ({ running with setup := none } : Transport).cfg.runOffTime = 0 ∧ p.state = .paused ∧ p.motor = .standing ∧
    p.pos.coverOpen.level = false ∧ (at' p { coverOpen := { level := true } }).pos.coverOpen.level = true ∧
    p.cfg.runInDistance ≠ 0 ∧ ({ p with setup := none } : Transport).cfg.runInDistance = 0 ∧
    ({ p with motor := .runOff } : Transport).motor = .runOff := by unfold Posted; decide

/-- A transport HELD for a reason with one record of a life in its track. -/
def held (reason : StopReason) (life : Lifecycle) : Transport :=
  { carrying { inPath with life } with state := .held, stopReason := reason, motor := .standing, pos := {} }

theorem pageLaw_held (reason : StopReason) (life : Lifecycle) : (held reason life).PageLaw :=
  pageLaw_one _ { inPath with life } rfl (by show (0 : Nat) < 1; decide)
    ⟨fun _ => rfl, fun _ => rfl, fun _ => ⟨Or.inl rfl, Or.inl rfl⟩⟩ (linked_idle _ _ rfl) (linked_idle _ _ rfl)

theorem clear_path (reason : StopReason) (life : Lifecycle) :
    ∀ st, ((held reason life).pos.sensor (.station st)).level = false := by intro st; cases st <;> rfl

/-- With an offender, and with none; from RUNNING and PAUSED. -/
theorem witness_AbortTaken :
    let x := held .suspect .parked
    let y := held .jamLate .withdrawn
    (x.PageLaw ∧ y.PageLaw ∧ Posted (block 1 5 0 7) 5 ∧ ∀ st, (x.pos.sensor (.station st)).level = false) ∧
    (posted x).takesCommand (.control 0) = true ∧ x.state = .held ∧ x.pos.coverOpen.level = false ∧
    (∀ r ∈ x.track, ∀ q ∈ x.track, r.life = .parked → q.life = .parked → r = q) ∧
    x.track.filter (fun r => r.life == .parked) ≠ [] ∧ y.track.filter (fun r => r.life == .parked) = [] ∧
    (∀ r ∈ y.track, ∀ q ∈ y.track, r.life = .parked → q.life = .parked → r = q) ∧ running.state = .running ∧
    ({ running with state := .paused } : Transport).state = .paused ∧
    (let z := held .jamLate .done
     z.track.filter (fun r => r.life != .withdrawn && r.life != .parked) ≠ [] ∧ z.motor = .standing ∧ z.state = .held ∧
     z.pos.coverOpen.level = false ∧ z.cfg.runInDistance ≠ 0 ∧ ({ z with setup := none } : Transport).cfg.runInDistance = 0) :=
  ⟨⟨pageLaw_held .., pageLaw_held .., by unfold Posted; decide, clear_path _ _⟩, by decide⟩

theorem witness_RuleAcceptReview :
    let r : SheetRecord := { inPath with life := .parked }
    let x := held .suspect .parked
    (posted x).takesCommand (.control 0) = true ∧ PostedRule (block 1 6 1 7) 1 ∧ PostedRule (block 1 6 2 7) 2 ∧
    x.state = .held ∧ x.stopReason = .suspect ∧ x.PageLaw ∧ (∀ st, (x.pos.sensor (.station st)).level = false) ∧
    x.pos.coverOpen.level = false ∧ r ∈ x.track ∧ r.life = .parked ∧ ∀ q ∈ x.track, q.life = .parked → q = r :=
  ⟨by decide, by unfold PostedRule Posted; decide, by unfold PostedRule Posted; decide, rfl, rfl, pageLaw_held ..,
    clear_path _ _, rfl, by decide, rfl, by decide⟩

/-- A jam for CLEAR, and a suspect with its offender for REFEED and DISCARD. -/
theorem witness_RuleRefeedDiscardClear :
    let r : SheetRecord := { inPath with life := .parked }
    let x := held .suspect .parked
    let y := held .jamLate .withdrawn
    ((posted y).takesCommand (.control 0) = true ∧ PostedRule (block 1 6 5 7) 5 ∧ y.stopReason ≠ .suspect ∧ y.state = .held ∧
      y.PageLaw ∧ (∀ st, (y.pos.sensor (.station st)).level = false) ∧ y.pos.coverOpen.level = false) ∧
    (posted x).takesCommand (.control 0) = true ∧ PostedRule (block 1 6 3 7) 3 ∧ PostedRule (block 1 6 4 7) 4 ∧
    x.state = .held ∧ x.stopReason = .suspect ∧ x.PageLaw ∧ (∀ st, (x.pos.sensor (.station st)).level = false) ∧
    x.pos.coverOpen.level = false ∧ r ∈ x.track ∧ r.life = .parked ∧ (∀ q ∈ x.track, q.life = .parked → q = r) ∧
    ({ r with front := { capture := .capturing } } : SheetRecord).front.capture ≠ .notTaken :=
  ⟨⟨by decide, by unfold PostedRule Posted; decide, by decide, rfl, pageLaw_held .., clear_path _ _, rfl⟩, by decide,
    by unfold PostedRule Posted; decide, by unfold PostedRule Posted; decide, rfl, rfl, pageLaw_held .., clear_path _ _, rfl,
    by decide, rfl, by decide, by decide⟩

/-! ### Answers, status blocks, tickets -/

/-- A room table of 2 profiles and 1 route table. -/
def tables : RoomTable :=
  { base := 4096, profileCount := 2, routeCount := 1, profiles := 64, routes := 64, room := 64, setup := .replicate 4 64,
    control := .replicate 4 64, status := .replicate 4 64 }

/-- An answer in flight for a transport and for the room, and one owed; a status write in flight and none; a HALTING part. -/
theorem witness_AnswersAndStatusWrites :
    let w : AnswerWrite := { block := .control 3, code := .done, number := 1 }
    let r : RoomInterface := { part := .halting, status := #v[.idle, .idle, .idle, .inFlight true] }
    ((room { active with answer := some w, table := some tables }).room.answer = some w ∧
      (room { r with table := some tables }).room.table = some tables ∧
      (room (sweeping.setOwed (.control 3) (some w))).sweepReaches (blockPlace (.control 3)) = true ∧
      (room (sweeping.setOwed (.control 3) (some w))).room.owedOf (.control 3) = some w ∧
      (room (sweeping.setOwed .room (some { w with block := .room }))).sweepReaches (blockPlace .room) = true ∧
      turnPosted [1] = true ∧ turnPosted [0] = false ∧ turnPosted [2] = false) ∧
    r.status[(3 : TransportNo)] = .inFlight true ∧ r.status[(0 : TransportNo)] = .idle ∧
    (room { part := .halting }).room.part = .halting ∧ (∀ t, ((room { part := .halting }).tr t).state = .off) ∧
    (∀ n, ((room { part := .halting }).lane n).binTake = false ∧ ((room { part := .halting }).lane n).restart = false ∧
      ((room { part := .halting }).lane n).handBack = none) ∧ ¬r.status[(3 : TransportNo)] = .idle := by decide

/-- The bytes of a status block of a DRAINING transport that has no batch and two records, by 10 Table 10-9. -/
theorem test_status_block :
    let x : Transport := { state := .draining, purpose := .halt, track := [inPath, inPath], pos := { skipCount := 3 },
                           batch := { counters := { picked := 7, settled := 5 } }, dfu := { reference := 0x1122 } }
    (statusCells 64 0x01020304 x).map (·.2) =
    [4, 3, 2, 1, 3, 0, 0, 4, 0, 0, 0, 0, 2, 0, 3, 0, 7, 0, 0, 0, 5, 0, 0, 0, 0x22, 0x11] ++ zeroBytes 34 ++ [4, 3, 2, 1] := by
  decide

/-- A READY transport with the candidate as given. -/
def ready (c : Candidate) : Transport := { setup := some pathSetup, state := .ready, batch := { candidate := c } }

/-- The candidate AT a ticket, at the HEAD, and AFTER one; links of 0, 1 and 64; an open cover; turns posted and not. -/
theorem witness_TicketFound :
    (posted (ready .head)).sweepReaches (5 + 0) = true ∧ sweeping.part = .active ∧ (ready .head).state = .ready ∧
    (ready (.at 64)).batch.candidate = .at 64 ∧ (ready .head).batch.take = none ∧ (ready .head).batch.outcome = none ∧
    (ready .head).pos.coverOpen.level = false ∧ addrField (zeroBytes 8) 0 = 0 ∧ (addrField (leBytes 1 8) 0).toNat % 64 ≠ 0 ∧
    addrField (leBytes 64 8) 0 ≠ 0 ∧ (addrField (leBytes 64 8) 0).toNat % 64 = 0 ∧
    turnPosted [1] = true ∧ turnPosted [0] = false ∧
    ¬(at' (ready .head) { coverOpen := { level := true } }).pos.coverOpen.level = false := by decide

/-- A link followed with the cover open leaves the candidate AT the ticket and begins no take (R88, R89); one whose turn cannot be
read leaves it there too, with MEMFAULT (R167). -/
theorem test_candidate_followed :
    let covered := at' (ready .head) { coverOpen := { level := true } }
    (∃ u, exec (.ticketTake 0 (.data (leBytes 64 8)) (.data [1])) (posted covered) = .next u ∧
      (u.tr 0).batch.candidate = .at 64 ∧ (u.tr 0).batch.take = none) ∧
    ∃ u, exec (.ticketTake 0 (.data (leBytes 64 8)) .busError) (posted (ready .head)) = .next u ∧
      (u.tr 0).batch.candidate = .at 64 ∧ u.room.evt = 0x4000 := ⟨⟨_, rfl, by decide⟩, _, rfl, by decide⟩

theorem not_at (a : Addr) : (ready .head).batch.candidate ≠ .at a ∧ (ready (.after 64)).batch.candidate ≠ .at a :=
  ⟨fun h => (nomatch h), fun h => (nomatch h)⟩

/-- A ticket of a main profile, an alt profile, a route table and an account lane. -/
def ticketBytes (main alt route account : Byte) : List Byte := [1, 3, main, alt, route, account] ++ zeroBytes 58

/-- A ticket's fields at their places (10 Table 10-5). -/
theorem test_ticket :
    let k := parseTicket ([1, 2, 30, 255, 7, 6, 9, 9] ++ zeroBytes 8 ++ leBytes 0xABCDEF01 4 ++ leBytes 120 4 ++ leBytes 500 4)
    (k.endOnEmpty, k.stopAtCount, k.main, k.alt, k.route, k.account) = (false, true, 30, 255, 7, 6) ∧
    k.batchId = 0xABCDEF01 ∧ k.expected = 120 ∧ k.firstDocument = 500 := by decide

/-- The first number out of range and the last in range, for each check of 05 Table 5-2. -/
theorem witness_TakeEnds :
    let k := fun m a r n => parseTicket (ticketBytes m a r n)
    tables.profileCount ≤ (k 2 255 0 0).main ∧ ¬tables.profileCount ≤ (k 1 255 0 0).main ∧
    ((k 1 1 0 0).alt ≠ 255 ∧ ¬tables.profileCount ≤ (k 1 1 0 0).alt) ∧
    ((k 1 2 0 0).alt ≠ 255 ∧ tables.profileCount ≤ (k 1 2 0 0).alt) ∧ (k 1 255 0 0).alt = 255 ∧
    tables.routeCount ≤ (k 1 255 1 0).route ∧ (k 1 255 0 0).route < tables.routeCount ∧ 32 < field [33] 0 1 ∧
    field [32] 0 1 ≤ 32 ∧ 8 ≤ (k 1 255 0 8).account ∧ (7 : LaneNo).val = (k 1 255 0 7).account ∧
    (State.reset.lane 7).state ≠ .unused ∧ ((State.reset.setLane 7 { state := .unused }).lane 7).state = .unused ∧
    (parseProfile profileBytes).isSome = true ∧ parseProfile (zeroBytes 64) = none ∧
    (let s := (on { ready .head with batch := { take := some 64 } }).setRoom { active with table := some tables }
     (s.tr 0).state = .ready ∧ (s.tr 0).batch.take = some 64 ∧ s.room.table = some tables) := by decide

/-- A refusal in READY and an outcome in DRAINING. -/
theorem witness_OutcomeWriteEnds :
    let w : OutcomeWrite := { ticket := 64, code := .refused, reason := .laneRange, counters := {} }
    let s := on { ready .head with batch := { outcome := some w } }
    (s.tr 0).batch.outcome = some w ∧ w.code = .refused ∧ (s.tr 0).state = .ready ∧ s.CountLaw :=
  ⟨rfl, rfl, rfl, on_all Transport.CountLaw _ ⟨by decide, by decide, by decide, by decide,
    ⟨by decide, fun ⟨w, h, g⟩ => by injection h with h; subst h; exact absurd rfl g⟩, by decide⟩ countLaw_idle⟩

theorem witness_OutcomeWriteEnds_outcome :
    let w : OutcomeWrite := { ticket := 64, code := .complete, reason := .none, counters := {} }
    let s := on { ready .head with state := .draining, purpose := .endBatch, batch := { outcome := some w, closure := .writing } }
    (s.tr 0).batch.outcome = some w ∧ w.code ≠ .refused ∧ (s.tr 0).state = .draining ∧ (s.tr 0).purpose ≠ .halt ∧
    (s.tr 0).haltRequest = false ∧ s.CountLaw :=
  ⟨rfl, by decide, rfl, by decide, rfl, on_all Transport.CountLaw _ ⟨by decide, by decide, by decide, by decide,
    ⟨fun _ => ⟨_, rfl, by decide⟩, fun _ => rfl⟩, by decide⟩ countLaw_idle⟩

/-- A batch at its end for each test: an empty tray and a count that is reached; a pause with an empty track; a drained batch
without lanes, with a lane that holds an entry, and with the closure asked of no lane any more. -/
theorem witness_BatchEnds :
    let k := fun b : Bool => ({ batchId := 1, expected := 9, firstDocument := 0, accountLane := 0, endOnEmpty := b,
                                stopAtCount := !b } : TicketCopy)
    let d := { running with state := .draining, purpose := .endBatch }
    let e := { d with batch := { lanesTouched := [0, 5, 7] } }
    let bin : Bin := { addr := 4096, capacity := 4096, filled := 128, count := 1 }
    let s := ((on e).setLane 0 { state := .opened, bin := some bin }).setLane 5
      { state := .opened, bin := some bin, handBack := some { isPartial := true, batchEnd := false } }
    let holds := fun n => (s.lane n).handBack ≠ none ∨ ((s.lane n).state = .opened ∧
      (s.entryInProgress n = true ∨ ∃ b, (s.lane n).bin = some b ∧ 0 < b.count))
    (running.state = .running ∧ (∀ r ∈ running.track, r.life ≠ .picked)) ∧
    (∀ b, ∃ c, ({ running with batch := { ticket := some (k b) } } : Transport).batch.ticket = some c ∧ c = k b) ∧
    (let p := { running with state := .draining, purpose := .pause }; p.state = .draining ∧ p.purpose = .pause ∧ p.track = []) ∧
    (d.state = .draining ∧ d.purpose = .endBatch ∧ d.track = [] ∧ d.queue = [] ∧ d.batch.closure = .notAsked) ∧
    (0 ∈ e.batch.lanesTouched ∧ holds 0 ∧ (s.lane 0).handBack = none ∧ s.entryInProgress 0 = false) ∧
    (5 ∈ e.batch.lanesTouched ∧ holds 5 ∧ (s.lane 5).handBack ≠ none) ∧ (7 ∈ e.batch.lanesTouched ∧ ¬holds 7) ∧
    (({ d with batch := { closure := .asked [] } } : Transport).batch.closure = .asked []) ∧
    ({ d with batch := { closure := .writing } } : Transport).batch.closure ≠ .written ∧
    ((Purpose.endBatch ≠ .abort ∧ Purpose.endBatch ≠ .halt) ∧ 0 < 9 ∧ 8 - 0 < 9 ∧ 9 < 11 - 1) :=
  ⟨by decide, fun _ => ⟨_, rfl, rfl⟩, by decide, by decide, ⟨by decide, .inr ⟨rfl, .inr ⟨_, rfl, by decide⟩⟩, by decide⟩,
    ⟨by decide, .inl (by decide), by decide⟩, ⟨by decide, fun h => h.elim (absurd rfl) fun g => absurd g.1 (by decide)⟩, by decide⟩

/-- The closure of three lanes (R104, R140): the one with an entry goes back with BATCH_END, the one whose hand-back is in flight
holds the request, the one without a bin is closed at once. -/
theorem test_closure_of_three :
    let bin : Bin := { addr := 4096, capacity := 4096, filled := 128, count := 1 }
    let x := { running with state := .draining, purpose := .endBatch, batch := { lanesTouched := [0, 5, 7] } }
    let s := ((on x).setLane 0 { state := .opened, bin := some bin }).setLane 5
      { state := .opened, bin := some bin, handBack := some { isPartial := true, batchEnd := false } }
    let u := s.endBatch 0
    (u.tr 0).batch.closure = .asked [0, 5] ∧ (u.lane 0).handBack = some { isPartial := false, batchEnd := true } ∧
    (u.lane 5).handBack = some { isPartial := true, batchEnd := false } ∧
    [0, 5, 7].map (fun n => (u.lane n).requests) = [[0], [0], []] := by decide

/-- A closure waits for the entry being written, the bin's first one too (R131; the close of 07 section 7.7), and is met at once
at a lane whose bin holds no entry and has none being written (R104, R140). -/
theorem test_closure_at_first_entry :
    let e : Element := { batchId := 2, sheet := 1, folder := 1, document := 1, sheetInDoc := 1, standing := .clean, kind := .page,
                         markResult := .noDivider, switchRefused := false, sheetFirst := false, verdict := {},
                         pieces := [{ lane := 0, image := none }] }
    let x := { running with state := .draining, purpose := .endBatch, batch := { lanesTouched := [0] } }
    let u := fun count turn => (((((on x).modTr 1 fun y => { y with queue := [e] }).setWriter { turn }).setLane 0
      { state := .opened, bin := some { addr := 4096, capacity := 4096, filled := 64 + 64 * count, count } }).endBatch 0)
    let first := u 0 (some (1, .entry))
    let second := u 1 (some (1, .entry))
    (first.tr 0).batch.closure = .asked [0] ∧ (first.lane 0).requests = [0] ∧ (first.lane 0).handBack = none ∧
    (second.tr 0).batch.closure = .asked [0] ∧ (second.lane 0).requests = [0] ∧ (second.lane 0).handBack = none ∧
    ((u 0 none).tr 0).batch.closure = .writing ∧ ((u 0 none).lane 0).requests = [] := by
  decide

/-- The end tests: the tray becomes empty under END_ON_EMPTY, or the 9th sheet is in the track under STOP_AT_COUNT (R29, R30). -/
theorem test_end_tests :
    let c := fun (onEmpty atCount : Bool) => ({ batchId := 1, expected := 9, firstDocument := 0, accountLane := 0,
                                                        endOnEmpty := onEmpty, stopAtCount := atCount } : TicketCopy)
    let x := fun (k : TicketCopy) (empty : Bool) (settled : Nat) =>
      { carrying inPath with pos := { trayEmpty := { level := empty } },
                             batch := { ticket := some k, counters := { picked := settled + 1, settled } } }
    (x (c true false) true 0).endTests.state = .draining ∧ (x (c true false) false 0).endTests.state = .running ∧
    (x (c false true) false 8).endTests.purpose = .endBatch ∧ (x (c false true) false 7).endTests.state = .running := by
  decide

/-! ### Lanes, picks, settlement -/

/-- A sweep finds a command posted in the room control block, with lane 7 as given. -/
def lane7 (l : Lane) : State := (room sweeping).setLane 7 l

/-- A lane with a bin of the least capacity. -/
def openLane (filled count : Nat) : Lane :=
  { state := .opened, cursor := .at 4096, bin := some { addr := 4096, capacity := 4096, filled, count },
    flushTimer := some 5, flushTime := 5 }

/-- An element with one image piece of n bytes for lane 7, and a piece of it. -/
def piece (n : Nat) : Piece :=
  { lane := 7, image := some { side := .front, format := .grey, pages := [3], bytes := zeroBytes n, width := 1, lines := 1,
                               repaired := 0, damaged := false, clipped := false, blank := false } }

def element (n : Nat) : Element :=
  { batchId := 1, sheet := 1, folder := 1, document := 1, sheetInDoc := 1, standing := .clean, kind := .page,
    markResult := .noDivider, verdict := {}, switchRefused := false, sheetFirst := false, pieces := [piece n] }

/-- Lane numbers 7 and 8; a lane of each state; a head piece that is partly written and one that is not. -/
theorem witness_LaneRestarts :
    (lane7 {}).takesCommand .room = true ∧ Posted [1, 1, 7, 0] 1 ∧ 8 ≤ field [1, 1, 8, 0] 2 1 ∧
    (7 : LaneNo).val = field [1, 1, 7, 0] 2 1 ∧
    ((lane7 { state := .unused }).lane 7).state = .unused ∧ ((lane7 (openLane 64 0)).lane 7).state = .opened ∧
    ((lane7 {}).lane 7).state ≠ .unused ∧ ((lane7 {}).lane 7).state ≠ .opened ∧ ((lane7 {}).lane 7).restart = false ∧
    ((lane7 {}).lane 7).binTake = false ∧ ((lane7 {}).lane 7).handBack = none ∧
    ((lane7 { restart := true }).lane 7).restart = true ∧ addrField (zeroBytes 16) 0 = 0 ∧
    addrField (leBytes 4096 8 ++ zeroBytes 8) 0 ≠ 0 ∧
    ({ running with queue := [element 64] } : Transport).headPiece = some (element 64, piece 64) ∧ (piece 64).lane = 7 ∧
    (piece 64).firstWritten = false ∧ (piece 64).interrupted = false ∧ ({ piece 64 with interrupted := true } : Piece).interrupted = true := by
  unfold Posted; decide

/-- No bin, an empty bin, a bin with an entry, and a lane whose entry is in progress. -/
theorem witness_LaneClosesAndFlush :
    let s := ((on { running with queue := [element 64] }).setLane 7 (openLane 64 0)).setWriter { turn := some (0, .entry) }
    (lane7 {}).takesCommand .room = true ∧ Posted [1, 2, 7, 0] 2 ∧ 8 ≤ field [1, 2, 8, 0] 2 1 ∧
    (7 : LaneNo).val = field [1, 2, 7, 0] 2 1 ∧ (field [1, 3, 0, 0] 1 1 ≠ 1 ∧ field [1, 3, 0, 0] 1 1 ≠ 2) ∧
    ((lane7 {}).lane 7).bin = none ∧ ((lane7 { state := .faulted }).lane 7).state = .faulted ∧
    (lane7 (openLane 64 0)).entryInProgress 7 = false ∧ (lane7 (openLane 128 1)).entryInProgress 7 = false ∧
    s.entryInProgress 7 = true ∧
    (openLane 128 1).flushTimer.isSome = true ∧ (openLane 128 1).handBack = none ∧ (openLane 128 1).state = .opened := by
  unfold Posted; decide

/-- The capacities 4096 and 16777216, and those next to the range; a bin at an address that is no multiple of 4096. -/
theorem witness_BinTaken :
    let c := fun n : Nat => field ([1, 0, 0, 0] ++ leBytes n 4 ++ zeroBytes 8) 4 4
    let inRange := fun n : Nat => n % 4096 = 0 ∧ 4096 ≤ n ∧ n ≤ 16777216
    ((lane7 { binTake := true }).lane 7).binTake = true ∧ inRange (c 4096) ∧ inRange (c 16777216) ∧ ¬inRange (c 0) ∧
    ¬inRange (c 16781312) ∧ ¬inRange (c 4097) ∧ turnPosted [1] = true ∧ turnPosted [0] = false ∧
    (4097 : Addr).toNat % 4096 ≠ 0 ∧ (4096 : Addr).toNat % 4096 = 0 ∧ addrField (zeroBytes 8) 0 = 0 := by decide

/-- Room for the entry of 64 + 64 bytes, room for none, and a lane that is IDLE; a freshly taken bin of the least capacity, and a
piece that it cannot hold whole. -/
theorem witness_WriterAndEntries :
    let s := fun l : Lane => (on { running with queue := [element 64] }).setLane 7 l
    let need := entryHeaderLength (element 64) (piece 64) + min 64 ((piece 64).total - (piece 64).progress)
    (s {}).writer.turn = none ∧ ((s {}).tr 0).headPiece = some (element 64, piece 64) ∧ ((s {}).tr 1).headPiece = none ∧
    ((s {}).lane 7).state = .idle ∧ ((s {}).lane 7).handBack = none ∧ [(0 : TransportNo), 1, 2, 3] = [] ++ 0 :: [1, 2, 3] ∧
    need ≤ 4096 - 3968 ∧ 4096 - 4032 < need ∧ (piece 64).firstWritten = false ∧
    (element 192).verdict.segments.length ≤ 4 ∧ 64 ∣ 128 ∧ entryFits (element 192) (piece 192) 128 = true ∧
    entryDataLength (element 192) (piece 192) 128 < (piece 192).total - (piece 192).progress ∧
    ({ piece 64 with image := none } : Piece).image = none ∧ ({ piece 64 with firstWritten := true } : Piece).entryKind = .continuation ∧
    ({ segments := [⟨1, 2, true⟩] } : Verdict).segments[0]? = some ⟨1, 2, true⟩ ∧ ({ length := some 2970 } : Verdict).length = some 2970 :=
  by decide +kernel

/-- 10 Table 10-11: side and format at 2 and 3, verdict bits at 7, the length at 28, lines at 32, the counts of segments at 44 and
45, the second segment's slot at 64. -/
theorem test_entry_header :
    let v : Verdict := { overlap := true, short := true, length := some 2970, further := 7, segments := [⟨1, 2, false⟩, ⟨508, 186, true⟩] }
    let h := entryHeader 2 { element 64 with verdict := v } { piece 64 with image := (piece 64).image.map ({ · with side := .back, lines := 3508 }) } 4032
    h.length = 128 ∧ (h.take 8).drop 1 = [2, 2, 2, 1, 0, 0, 5] ∧ (h.drop 28).take 8 = leBytes 2970 2 ++ leBytes 1 2 ++ leBytes 3508 4 ∧
    (h.drop 44).take 4 = [2, 7, 0, 0] ∧ (h.drop 64).take 16 = leBytes 508 2 ++ leBytes 186 2 ++ [1] ++ zeroBytes 11 := by decide +kernel

/-- The writer looks from the transport after its pointer: with head pieces in transports 0 and 2 and the pointer at 0, it serves
2 (R130). -/
theorem test_writer_choice :
    let q := [{ element 64 with pieces := [{ piece 64 with lane := 6 }] }]
    let s := (((on { running with queue := [element 64] }).setTr 2 { running with queue := q }).setLane 7
      (openLane 64 0)).setLane 6 {}
    (s.setWriter { pointer := some 0 }).lookForWork.writer = { pointer := some 2, turn := some (2, .binTake) } ∧
    (s.setWriter {}).lookForWork.writer = { pointer := some 0, turn := some (0, .entry) } := by decide

/-- An entry of 64 + 64 bytes that fits its bin, one that fills it, and one that must be cut. -/
theorem witness_EntryWritten :
    let s := fun (n filled count : Nat) =>
      ((on { running with queue := [element n] }).setLane 7 (openLane filled count)).setWriter { turn := some (0, .entry) }
    let data := fun (n filled : Nat) => entryDataLength (element n) (piece n) (4096 - filled)
    (s 64 64 0).writer.turn = some (0, .entry) ∧ ((s 64 64 0).tr 0).headPiece = some (element 64, piece 64) ∧
    ((s 64 64 0).lane 7).bin = some { addr := 4096, capacity := 4096, filled := 64, count := 0 } ∧
    (64 + roundUp64 (entryHeaderLength (element 64) (piece 64) + data 64 64) < 4096 ∧ (piece 64).total ≤ data 64 64) ∧
    4096 ≤ 3968 + roundUp64 (entryHeaderLength (element 64) (piece 64) + data 64 3968) ∧
    data 192 3968 < (piece 192).total ∧
    (let l := { openLane 64 0 with closeAsked := true, requests := [2] }
     l.closeAsked = true ∧ l.requests ≠ [] ∧
     ((((s 64 64 0).setLane 7 l).entryDone .ok).lane 7).handBack = some { isPartial := true, batchEnd := true }) ∧ (openLane 64 0).closeAsked = false ∧ (openLane 64 0).requests = [] ∧
    (openLane 64 0).flushTime ≠ 0 := by decide +kernel

/-- A hand-back with and without a request of transport 2, whose closure is asked of lanes 3 and 7, on which transport 1's turn
waits; on a lane that is OPEN and on a FAULTED one. -/
theorem witness_HandBackEnds :
    let l := { openLane 128 1 with handBack := some { isPartial := true, batchEnd := false }, requests := [2] }
    let s := (((lane7 l).setTr 2 { batch := { closure := .asked [3, 7] } }).setTr 1 { queue := [element 64] }).setWriter
      { turn := some (1, .handBack) }
    (s.lane 7).handBack = some { isPartial := true, batchEnd := false } ∧
    (s.lane 7).bin = some { addr := 4096, capacity := 4096, filled := 128, count := 1 } ∧
    (2 ∈ (s.lane 7).requests ∧ (s.tr 2).batch.closure = .asked [3, 7] ∧ 1 ∉ (s.lane 7).requests ∧
      (s.tr 1).batch.closure = .notAsked) ∧
    (s.writer.turn = some (1, .handBack) ∧ (s.tr 1).headPiece = some (element 64, piece 64) ∧ (piece 64).lane = 7) ∧
    (s.lane 7).state ≠ .faulted ∧ ({ l with state := .faulted } : Lane).state = .faulted ∧
    ((lane7 l).writer.turn = none ∧ openLane 128 1 ≠ l) ∧
    (((s.handBackEnded 7 .ok).tr 2).batch.closure, (s.handBackEnded 7 .ok).writer.turn) =
      (.asked [3], some (1, .binTake)) ∧
    (((s.handBackEnded 7 (.busError 0)).tr 2).batch.closure, (s.handBackEnded 7 (.busError 0)).writer.turn) =
      (.asked [3], none) := by decide

/-- Two placeholders of the queue are written to one bin in turn; the second is a batch's last: the turn of the bin is written
last of the hand-back (R138). -/
theorem test_hand_back_turn :
    let b : Bin := { addr := 4096, capacity := 4096, filled := 128, count := 2 }
    (handBackCells b 7 5 { isPartial := true, batchEnd := true }).getLast? = some (4096, 0) := by decide

/-- A record whose ENTRY trail is seen and whose gap is passed: the next pick follows (R35, R37). -/
def passedOn : SheetRecord := { inPath with entry := { lead := some 150, trail := some 900 }, gap := .raised }

theorem witness_PicksOnlyInRunning :
    let s := { on (carrying passedOn) with hold := {}, pending := [] }
    s.PageLaw ∧ ∃ u, exec (.gapMet 0) s = .next u :=
  ⟨pageLaw_state _ {} [] (pageLaw_one _ passedOn rfl (by decide) (by unfold SideRecord.empty SideRecord.imageless; decide)
    (linked_idle _ _ rfl) (linked_idle _ _ rfl)) (by
      have e : (carrying passedOn).holding = [] := by decide
      simp only [e, List.append_nil]
      exact .refl (List.range 4096)) (Nat.zero_le _), _, rfl⟩

/-- That pick: the second record is PICKED at the counter's value with the clutch engaged (R38). -/
theorem test_pick :
    ∃ u, exec (.gapMet 0) (on (carrying passedOn)) = .next u ∧ ((u.tr 0).track.map fun r => (r.id, r.pickPos)) =
      [(0, 100), (1, 200)] ∧ (u.tr 0).clutch = true := ⟨_, rfl, by decide +kernel, by decide +kernel⟩

/-- A need that the free pages just cover, one page more, a list that is not empty, and a request that stands and one that does
not. -/
theorem witness_AdmissionInOrder :
    let s := on running
    let r : Request := { transport := 0, need := 1, selector := .main }
    (s.tr 0).eligible = true ∧ (∀ r ∈ s.hold.waiting, r.transport ≠ 0) ∧ s.hold.waiting = [] ∧
    s.needOf 0 ≤ ({ free := [0], reserved := 0 } : HoldStore).freePages ∧
    ({ free := [0], reserved := 1 } : HoldStore).freePages < s.needOf 0 ∧ s.stands r = true ∧
    s.stands { r with selector := .alt } = false ∧ r.need ≤ s.hold.freePages ∧
    (∀ q ∈ [{ r with selector := .alt }], s.stands q = false) ∧
    (s.setHold { free := [], waiting := [r] }).serveList.hold.waiting.length = 1 ∧
    (s.tr 1).state ≠ .running ∧ (s.tr 0).state = .running :=
  by decide +kernel

/-- Two transports wait, the first for 12 pages, the second for 1, and 10 are free with a low mark of 10. The first is stopped and
gives back the 5 pages of its record: its request is withdrawn, the second gets its page from the 10, so that the free pages come
below the mark before the 5 return (R123, R125). -/
theorem test_withdrawal_before_return :
    let x := { carrying { inPath with front := { capture := .complete, pages := List.range 5 } } with motor := .driving }
    let h : HoldStore := { free := (List.range 10).map (· + 5), lowMark := 10,
                           waiting := [{ transport := 0, need := 12, selector := .main }, { transport := 1, need := 1, selector := .main }] }
    let u := (((on x).setTr 1 running).setHold h).takeStop 0 .jamLate
    u.room.evt = 0x2000 ∧ u.hold.waiting = [] ∧ u.hold.freePages = 14 ∧ u.hold.below = false ∧ (u.tr 1).clutch = true := by
  decide

/-- 90 pages are free below a mark of 100, and 95 are asked for. Sides of 6 and 10 pages return one after the other: the request is
granted at the first, and the free pages never reach the mark, so EVT.SPACE stays as it was (R124, R125). -/
theorem test_returns_one_by_one :
    let r := { inPath with front := { capture := .complete, pages := List.range 6 },
                           back := { capture := .complete, pages := (List.range 10).map (· + 6) } }
    let h : HoldStore := { free := (List.range 90).map (· + 16), lowMark := 100, below := true,
                           waiting := [{ transport := 1, need := 95, selector := .main }] }
    let u := ((State.reset.setTr 1 running).setHold h).returnSides r
    u.room.evt = 0 ∧ u.hold.waiting = [] ∧ u.hold.freePages = 11 ∧ u.hold.below = true := by decide

/-- A side that is blank, a divider, a REVIEW standing; a table of two entries of which the second matches. -/
theorem witness_RouteDecision :
    let r : SheetRecord := { inPath with markResult := .divider .folder, front := { capture := .complete, blank := some true } }
    let t : List RouteEntry := [⟨3, 255, 255, 255, 255, 1⟩, ⟨255, 255, 255, 255, 255, 128⟩]
    (∃ k, r.markResult = .divider k) ∧ (r.side .front).blank = some true ∧ (r.side .back).blank ≠ some true ∧
    ({ blankDrop := true } : Profile).blankDrop = true ∧ ({ dividerDrop := true } : Profile).dividerDrop = true ∧
    ({} : Profile).blankDrop = false ∧ ({} : Profile).dividerDrop = false ∧
    (t = [⟨3, 255, 255, 255, 255, 1⟩] ++ ⟨255, 255, 255, 255, 255, 128⟩ :: [] ∧ ({} : Profile).group ≠ 3) ∧
    (7 : LaneNo).val = 7 ∧ (parseRoutes ([1] ++ zeroBytes 319))[0]? = some ⟨0, 0, 0, 0, 0, 0⟩ :=
  ⟨⟨_, rfl⟩, by decide⟩

/-- Records of each kind: clean with an image, a divider, overrun, discarded, damaged; and of each ruling and action. -/
theorem witness_Settlement :
    let side : SideRecord := { capture := .complete, pages := [5] }
    let r : SheetRecord := { inPath with life := .done, markResult := .noDivider, front := side }
    (carrying r).track = r :: [] ∧ r.front.settled = true ∧ r.back.settled = true ∧ (r.front.empty ∧ r.back.empty) ∧
    ({ r with overrun := true } : SheetRecord).overrun = true ∧ ({ r with discardMark := true } : SheetRecord).overrun = false ∧
    ({ r with markResult := .divider .folder } : SheetRecord).markResult.isDivider = true ∧
    ({ side with damaged := true } : SideRecord).damaged = true ∧
    (r.front.damaged = false ∧ r.back.damaged = false ∧ r.overrun = false ∧ r.ruling = .none ∧ r.verdict.action = .none) ∧
    ({ r with ruling := .accepted } : SheetRecord).ruling = .accepted ∧
    (let d := { r with verdict := { decided := true } }
     d.life = .done ∧ d.verdict.decided = true ∧ d.markResult ≠ .pending ∧ d.front.capture ≠ .waiting ∧
     d.front.capture ≠ .capturing ∧ d.back.capture ≠ .waiting ∧ d.back.capture ≠ .capturing ∧ (carrying d).queue.length < 32 ∧
     (carrying d).track = d :: [] ∧ r.verdict.decided = false ∧ running.track = [] ∧ r.sheet = some 1) := by
  unfold SideRecord.empty; decide

/-- 04 Table 4-11, a row each: damaged, ruled REVIEW, ruled ACCEPTED, the actions HOLD, REVIEW and PASS, none. -/
theorem test_standings :
    let r := inPath
    let act := fun a : Action => { r with verdict := { action := a } }
    [{ r with ruling := .accepted, front := { damaged := true } }, { r with ruling := .review }, { act .hold with ruling := .accepted },
      act .hold, act .review, act .pass, r].map standingOf =
    [.review, .review, .accepted, .review, .review, .flagged, .clean] := by decide

/-- A settled sheet with one COMPLETE side and no matching entry goes to lane 0, counted as a route miss (R127). -/
theorem test_settle_misses :
    let r : SheetRecord := { inPath with life := .done, markResult := .noDivider, front := { capture := .complete, pages := [5] } }
    let u := (on (carrying r)).settleHead 0 r
    ((u.tr 0).queue.map fun e => e.pieces.map fun p => (p.lane, p.noRoute)) = [[(0, true)]] ∧
    (u.tr 0).batch.counters.routeMisses = 1 := by decide +kernel

/-- Expiries that a pending glitch held back are taken when it is dropped: a trail deadline at DF, whose stop leaves the lead window
end untaken, a lead window end there, and a mark window end (R12, R13, R95). -/
theorem test_held_expiries :
    let glitch : SensorState := { raw := false, pending := some { latch := 500, hold := 15 } }
    let after := fun (lead trail : Armed) => (((on (at' (carrying { inPath with df := { inPath.df with
      leadEnd := lead, trailEnd := trail } }) { df := glitch })).resolve 0 (.station .df)).tr 0).stopReason
    after .raised .raised = .trailLate ∧ after .raised .idle = .jamLate := by decide +kernel

theorem test_held_mark_window :
    let x := { carrying inPath with marks := { measurement := .opened 0, windowEnd := .raised } }
    let p : PositionUnit := { mark := { raw := false, pending := some { latch := 500, hold := 15 } } }
    (((on (at' x p)).resolve 0 (.station .mark)).tr 0).marks.windowEnd = .idle := by decide

/-- 09 Table 9-5, a header of each row: another version (and no room block), a block address and a lane head that are no multiples,
a profile count of 33, a low mark above P_total, one that passes. -/
theorem witness_StartHeader_rows :
    (fun h : Header => [{ h with version := 2, room := 0 }, { h with room := 65537 }, { h with laneHead := h.laneHead.set 1 64 },
      { h with profileCount := 33 }, { h with lowMark := 4097 }, h].map (·.judge 4096)) (parseHeader headerBytes) =
    [.version, .align, .align, .range, .range, .ok] := by decide

end Sys2Proof.Tests
end

