-- ==== Sys2Proof/Proofs/Encoder.lean ====
section
/-! PROOFS. The decoder of the Position Unit (R1, R2): which edges count, in which direction, and what an edge moves. -/

namespace Sys2Proof.Machine

/-! ### The decoder -/

namespace PositionUnit

variable {p : PositionUnit} {line : EncLine}

/-- The level pair (A, B) of the decoder. -/
def levels (p : PositionUnit) : Bool × Bool := (p.levelA, p.levelB)

theorem flip_levels_a (p : PositionUnit) : (p.flip .a).levels = (!p.levelA, p.levelB) := rfl

theorem flip_levels_b (p : PositionUnit) : (p.flip .b).levels = (p.levelA, !p.levelB) := rfl

theorem counts_iff_of_x1 (h : p.multiplier = .x1) : p.counts line ↔ line = .a ∧ p.levelA = false := by
  cases line <;> simp [counts, countedEdge, level, h]

theorem counts_iff_of_x2 (h : p.multiplier = .x2) : p.counts line ↔ line = .a := by
  cases line <;> simp [counts, countedEdge, h]

theorem counts_of_x4 (h : p.multiplier = .x4) : p.counts line := by
  cases line <;> simp [counts, countedEdge, h]

/-- An edge goes forward exactly where the level pair takes a step of the forward sequence. -/
theorem step_mem_forwardSteps_iff : (p.levels, (p.flip line).levels) ∈ forwardSteps ↔ p.goesForward line = true := by
  cases line with
  | a =>
    rw [flip_levels_a]; simp only [levels, goesForward]
    cases p.levelA <;> cases p.levelB <;> decide
  | b =>
    rw [flip_levels_b]; simp only [levels, goesForward]
    cases p.levelA <;> cases p.levelB <;> decide

/-- An edge goes in reverse exactly where the level pair takes a step of the forward sequence back. -/
theorem step_back_mem_forwardSteps_iff :
    ((p.flip line).levels, p.levels) ∈ forwardSteps ↔ p.goesForward line = false := by
  cases line with
  | a =>
    rw [flip_levels_a]; simp only [levels, goesForward]
    cases p.levelA <;> cases p.levelB <;> decide
  | b =>
    rw [flip_levels_b]; simp only [levels, goesForward]
    cases p.levelA <;> cases p.levelB <;> decide

end PositionUnit

/-! ### What a count moves in its transport -/

namespace Transport

variable (x : Transport) {y : Transport} (line : EncLine) (adc : BitVec 10)

theorem KeepsPath.levels {x : Transport} (h : x.KeepsPath y) : y.pos.levels = x.pos.levels :=
  (congrArg PositionUnit.levels h.1 :)

theorem KeepsPath.counter {x : Transport} (h : x.KeepsPath y) : y.pos.counter = x.pos.counter :=
  (congrArg PositionUnit.counter h.1 :)

theorem runSample_pos (r : SheetRecord) (a : Nat) (q : Pos) : (x.runSample r a q).pos = x.pos := by
  unfold runSample
  split
  · split <;> rfl
  · split <;> rfl
  · rfl

theorem gapSample_pos (a : Nat) : (x.gapSample a).pos = x.pos := by
  unfold gapSample
  split
  · rfl
  · split <;> rfl

theorem routeSample_pos (a : Nat) (q : Pos) : (x.routeSample a q).pos = x.pos := by
  unfold routeSample
  split
  · split
    · split <;> rfl
    · split
      · split
        · split
          · rfl
          · exact x.runSample_pos _ a q
        · rfl
      · exact x.gapSample_pos a
    · rfl
    · rfl
  · rfl

theorem sampleCount_pos (a : Nat) : (x.sampleCount a).pos = x.pos := by
  unfold sampleCount
  split
  · rfl
  · split
    · rfl
    · exact routeSample_pos _ a _

/-- The expiries and the sample of a count leave the Position Unit to the counter's own move. -/
theorem count_pos (forward : Bool) : (x.count line adc forward).pos = (x.moveCounter line forward).pos := by
  cases forward with
  | false => rfl
  | true => exact sampleCount_pos _ _

theorem count_levels (forward : Bool) : (x.count line adc forward).pos.levels = (x.pos.flip line).levels := by
  rw [count_pos]; rfl

theorem count_counter (forward : Bool) :
    (x.count line adc forward).pos.counter = if forward then x.pos.counter + 1 else x.pos.counter - 1 := by
  rw [count_pos]; rfl

end Transport

/-! ### The two commands -/

section

variable {s : State} {t : TransportNo} {line : EncLine}

theorem State.quiet_captureCounts (v : State) (t : TransportNo) (forward : Bool) :
    v.Quiet ((v.captureCount t .front forward).captureCount t .back forward) :=
  (v.quiet_captureCount t .front forward).trans (State.quiet_captureCount _ t .back forward)

/-- A counted edge moves its transport by one count, and the line triggers that follow keep the decoder and the counter. -/
theorem exec_encoderCount_of_counts (adc : BitVec 10) (h : (s.tr t).pos.counts line) :
    ∃ u, exec (.encoderCount t line adc) s = .next u ∧
      ((s.tr t).count line adc ((s.tr t).pos.goesForward line)).KeepsPath (u.tr t) := by
  refine ⟨_, if_pos h, ?_⟩
  have hquiet := (s.modTr t (·.count line adc ((s.tr t).pos.goesForward line))).quiet_captureCounts t
    ((s.tr t).pos.goesForward line)
  simpa using hquiet.path t

theorem exec_uncountedEncoderEdge_of_not_counts (h : ¬(s.tr t).pos.counts line) :
    exec (.uncountedEncoderEdge t line) s = .next (s.setTr t { s.tr t with pos := (s.tr t).pos.flip line }) :=
  if_neg h

end

/-! ### The statement -/

/-- Settles O13: the table of counted edges mode by mode, then each command by its own lemma. -/
theorem encoderEdges : Obligations.EncoderEdges := by
  intro s t line adc p old new counted
  have hcounted : counted ↔ p.counts line := by
    dsimp only [counted]
    split
    · next h => exact (PositionUnit.counts_iff_of_x1 h).symm
    · next h => exact (PositionUnit.counts_iff_of_x2 h).symm
    · next h => exact iff_of_true trivial (PositionUnit.counts_of_x4 h)
  have hnew : (p.flip line).levels = new := by
    cases line with
    | a => exact p.flip_levels_a
    | b => exact p.flip_levels_b
  constructor
  · intro hc
    obtain ⟨u, hexec, hkeeps⟩ := exec_encoderCount_of_counts adc (hcounted.mp hc)
    have hlevels : (u.tr t).pos.levels = new := by rw [hkeeps.levels, Transport.count_levels, ← hnew]
    have hcounter := hkeeps.counter.trans (Transport.count_counter _ line adc _)
    refine ⟨u, hexec, hlevels, fun hstep => ?_, fun hstep => ?_⟩
    · rw [← hnew] at hstep
      rw [hcounter, PositionUnit.step_mem_forwardSteps_iff.mp hstep]; rfl
    · rw [← hnew] at hstep
      rw [hcounter, PositionUnit.step_back_mem_forwardSteps_iff.mp hstep]; rfl
  · intro hc
    rw [exec_uncountedEncoderEdge_of_not_counts (mt hcounted.mpr hc)]
    cases line <;> rfl

end Sys2Proof.Machine
end

/-! PROOFS. The reflective sensor's transitions (05 section 5.3, R94): what a transition does to a measurement, and the command that
takes it. -/

section

namespace Sys2Proof.Machine

/-! ### The newest pulse -/

@[simp] theorem endNewest_nil (q : Pos) : endNewest q [] = [] := rfl

theorem endNewest_cons_of_ne_nil (q : Pos) (p : Pulse) {ps : List Pulse} (h : ps ≠ []) :
    endNewest q (p :: ps) = p :: endNewest q ps := by
  cases ps with
  | nil => exact absurd rfl h
  | cons r rest => rfl

/-- Only the newest pulse, the last of the list, can get its end. -/
theorem endNewest_concat (q : Pos) (ps : List Pulse) (p : Pulse) :
    endNewest q (ps ++ [p]) = ps ++ [if p.stop = none then { p with stop := some q } else p] := by
  induction ps with
  | nil => rfl
  | cons r rest ih => rw [List.cons_append, endNewest_cons_of_ne_nil q r (by simp), ih, List.cons_append]

/-! ### A transition at a measurement -/

namespace MarkUnit

variable {m : MarkUnit}

theorem transition_of_none (dark : Bool) (q : Pos) (h : m.measurement = .none) : m.transition dark q = m :=
  if_pos h

theorem transition_dark_of_room (q : Pos) (h : m.measurement ≠ .none) (hroom : m.pulses.length < 8) :
    m.transition true q = { m with pulses := m.pulses ++ [{ start := q, stop := none }] } := by
  simp [transition, h, hroom]

theorem transition_dark_of_full (q : Pos) (h : m.measurement ≠ .none) (hfull : 8 ≤ m.pulses.length) :
    m.transition true q = { m with overflow := true } := by
  simp [transition, h, hfull.not_gt]

theorem transition_light (q : Pos) (h : m.measurement ≠ .none) :
    m.transition false q = { m with pulses := endNewest q m.pulses } := by
  simp [transition, h]

theorem transition_light_of_noEnd {ps : List Pulse} {p : Pulse} (q : Pos) (h : m.measurement ≠ .none)
    (hpulses : m.pulses = ps ++ [p]) (hstop : p.stop = none) :
    m.transition false q = { m with pulses := ps ++ [{ p with stop := some q }] } := by
  rw [transition_light q h, hpulses, endNewest_concat, if_pos hstop]

/-- A light transition that leaves the pulse list as it is leaves the whole measurement as it is. -/
theorem transition_light_eq_self (q : Pos) (h : m.measurement ≠ .none) (hkept : endNewest q m.pulses = m.pulses) :
    m.transition false q = m := by
  rw [transition_light q h, hkept]

theorem transition_light_of_ended {ps : List Pulse} {p : Pulse} (q : Pos) (h : m.measurement ≠ .none)
    (hpulses : m.pulses = ps ++ [p]) (hstop : p.stop ≠ none) : m.transition false q = m :=
  transition_light_eq_self q h (by rw [hpulses, endNewest_concat, if_neg hstop])

theorem transition_light_of_nil (q : Pos) (h : m.measurement ≠ .none) (hpulses : m.pulses = []) :
    m.transition false q = m :=
  transition_light_eq_self q h (by rw [hpulses, endNewest_nil])

end MarkUnit

/-! ### The command -/

/-- The command flips the level, and the Mark Unit goes to what the transition to the new level gives. -/
theorem exec_reflectiveTransition_of_marks {s : State} {t : TransportNo} {dark : Bool} {m : MarkUnit}
    (hdark : (!(s.tr t).pos.dark) = dark) (hmarks : (s.tr t).marks.transition dark (s.tr t).pos.counter = m) :
    exec (.reflectiveTransition t) s =
      .next (s.setTr t { s.tr t with pos := { (s.tr t).pos with dark := !(s.tr t).pos.dark }, marks := m }) := by
  subst hdark hmarks
  rfl

/-- Settles O19: the command's equation, with the transition's rule of each case. -/
theorem reflectivePulses : Obligations.ReflectivePulses := by
  intro s t x q put
  refine ⟨fun hnone => ?noMeasurement, fun hheld hdark hroom => ?pulseBegins, fun hheld hdark hfull => ?overflow,
    fun ps p hheld hdark hpulses hstop => ?pulseEnds, fun ps p hheld hdark hpulses hstop => ?alreadyEnded,
    fun hheld hdark hpulses => ?noPulse⟩
  case noMeasurement => exact exec_reflectiveTransition_of_marks rfl (MarkUnit.transition_of_none _ q hnone)
  case pulseBegins =>
    exact exec_reflectiveTransition_of_marks (congrArg not hdark) (MarkUnit.transition_dark_of_room q hheld hroom)
  case overflow =>
    exact exec_reflectiveTransition_of_marks (congrArg not hdark) (MarkUnit.transition_dark_of_full q hheld hfull)
  case pulseEnds =>
    exact exec_reflectiveTransition_of_marks (congrArg not hdark) (MarkUnit.transition_light_of_noEnd q hheld hpulses hstop)
  case alreadyEnded =>
    exact exec_reflectiveTransition_of_marks (congrArg not hdark) (MarkUnit.transition_light_of_ended q hheld hpulses hstop)
  case noPulse =>
    exact exec_reflectiveTransition_of_marks (congrArg not hdark) (MarkUnit.transition_light_of_nil q hheld hpulses)

end Sys2Proof.Machine
end

/-! PROOFS. The event registers and the interrupt line (09 section 9.8, R173): how a read returns them, when the line is asserted,
and what the register writes and the two resets leave of them. -/

section

namespace Sys2Proof.Machine

/-! ### The reads and the line -/

namespace State

variable (s : State)

@[simp] theorem readRegister_evt : s.readRegister .evt = s.room.evt.setWidth 32 := rfl

@[simp] theorem readRegister_evten : s.readRegister .evten = s.room.evten.setWidth 32 := rfl

@[simp] theorem readRegister_evtact : s.readRegister .evtact = s.evtact.setWidth 32 := rfl

theorem interrupt_iff : s.interrupt = true ↔ s.evtact ≠ 0 := bne_iff_ne

theorem interrupt_eq_false_iff : s.interrupt = false ↔ s.evtact = 0 := bne_eq_false_iff_eq

theorem readRegister_evtact_eq_and : s.readRegister .evtact = s.readRegister .evt &&& s.readRegister .evten :=
  BitVec.setWidth_and

/-- The 32-bit read loses none of EVTACT's 16 bits. -/
theorem readRegister_evtact_eq_zero_iff : s.readRegister .evtact = 0 ↔ s.evtact = 0 := by
  rw [readRegister_evtact]
  constructor
  · intro h
    bv_omega
  · intro h
    rw [h]; rfl

theorem interrupt_iff_readRegister_evtact : s.interrupt = true ↔ s.readRegister .evtact ≠ 0 :=
  s.interrupt_iff.trans (not_congr s.readRegister_evtact_eq_zero_iff.symm)

theorem interrupt_eq_false_of_evten (h : s.room.evten = 0) : s.interrupt = false := by
  rw [interrupt_eq_false_iff, evtact, h]
  exact BitVec.and_zero

end State

/-! ### The commands -/

theorem exec_evtenWrite (s : State) (v : Word) :
    exec (.evtenWrite v) s = .next (s.setRoom { s.room with evten := v.setWidth 16 }) := rfl

theorem exec_evtclrWrite (s : State) (v : Word) :
    exec (.evtclrWrite v) s = .next (s.setRoom { s.room with evt := s.room.evt &&& ~~~(v.setWidth 16) }) := rfl

theorem evt_evtact_of_exec_evtenWrite {s u : State} {v : Word} (h : exec (.evtenWrite v) s = .next u) :
    u.room.evt = s.room.evt ∧ u.evtact = s.room.evt &&& v.setWidth 16 := by
  cases h
  exact ⟨rfl, rfl⟩

/-- EVTACT after EVTCLR_WRITE is what it was, without the bits written as one. -/
theorem evtact_of_exec_evtclrWrite {s u : State} {v : Word} (h : exec (.evtclrWrite v) s = .next u) :
    u.evtact = s.room.evt &&& s.room.evten &&& ~~~(v.setWidth 16) := by
  cases h
  change s.room.evt &&& ~~~(v.setWidth 16) &&& s.room.evten = _
  ac_rfl

theorem evts_eq_zero_of_exec_softReset {s u : State} {p : Byte} (h : exec (.softReset p) s = .next u) :
    u.room.evt = 0 ∧ u.room.evten = 0 := by
  cases h
  exact ⟨rfl, rfl⟩

theorem evten_eq_zero_of_exec_powerOn {s u : State} {l0 l1 l2 l3 : LineLevels}
    (h : exec (.powerOn l0 l1 l2 l3) s = .next u) : u.room.evten = 0 := by
  cases h
  rfl

/-! ### The statement -/

/-- Settles O37: each command's effect on EVT and EVTEN, and the line read from EVTACT. -/
theorem eventRegisters : Obligations.EventRegisters := by
  refine ⟨fun s v => ⟨_, exec_evtenWrite s v, rfl, rfl⟩,
    fun s => ⟨s.readRegister_evtact_eq_and, s.interrupt_iff_readRegister_evtact⟩, fun s u v h => ?enables,
    fun s v => ⟨_, exec_evtclrWrite s v, rfl, ?clears⟩, fun s u p h => ?softReset, fun s u l0 l1 l2 l3 h => ?powerOn⟩
  case enables =>
    obtain ⟨hevt, hevtact⟩ := evt_evtact_of_exec_evtenWrite h
    rw [← hevtact]
    exact ⟨hevt, u.interrupt_iff.mpr, u.interrupt_eq_false_iff.mpr⟩
  case clears =>
    rw [State.interrupt_iff, evtact_of_exec_evtclrWrite (exec_evtclrWrite s v)]
  case softReset =>
    obtain ⟨hevt, hevten⟩ := evts_eq_zero_of_exec_softReset h
    exact ⟨by rw [State.readRegister_evt, hevt]; rfl, by rw [State.readRegister_evten, hevten]; rfl,
      u.interrupt_eq_false_of_evten hevten⟩
  case powerOn =>
    have hevten := evten_eq_zero_of_exec_powerOn h
    exact ⟨by rw [State.readRegister_evten, hevten]; rfl, u.interrupt_eq_false_of_evten hevten⟩

end Sys2Proof.Machine
end

/-! PROOFS. What a grant, a return of pages and an examination of the waiting list do (R122 to R124): a transport picks at most once,
the free list gains the pages returned, and the reservation total stays within it. -/

section

namespace Sys2Proof.Machine

/-! ### A pick -/

namespace Transport

variable {x y z : Transport} {total : Nat}

/-- y is x, or x after the one pick that its pick conditions allow (R35, R38). -/
def MayPick (total : Nat) (x y : Transport) : Prop := y = x ∨ (x.eligible = true ∧ y = x.pick total)

theorem MayPick.refl (total : Nat) (x : Transport) : MayPick total x x := .inl rfl

theorem newest_pick (x : Transport) (total : Nat) : (x.pick total).newest = some (x.newRecord total) :=
  List.getLast?_concat

theorem gapCondition_pick (x : Transport) (total : Nat) : (x.pick total).gapCondition = false := by
  simp [gapCondition, newest_pick, newRecord]

theorem eligible_iff : x.eligible = true ↔ x.state = .running ∧ x.firstUnmet = .none := by
  simp [eligible]

/-- The RUN_ON row and pick conditions 1 to 6, all met (02 Table 2-5). -/
theorem firstUnmet_eq_none_iff : x.firstUnmet = .none ↔
    x.runOn = none ∧ x.motor = .driving ∧ x.track.length < 6 ∧ x.gapCondition = true ∧ x.pos.trayEmpty.level = false ∧
      x.countReached = false ∧ x.markCondition = true := by
  unfold firstUnmet
  split_ifs <;> simp_all [Option.isSome_iff_ne_none]

/-- A pick leaves the newest record before ENTRY, so no further pick can follow it at once (pick condition 3). -/
theorem eligible_pick (x : Transport) (total : Nat) : (x.pick total).eligible = false := by
  rw [Bool.eq_false_iff]
  intro h
  obtain ⟨-, -, -, -, hgap, -⟩ := (eligible_iff.mp h).imp_right firstUnmet_eq_none_iff.mp
  rw [gapCondition_pick] at hgap
  cases hgap

theorem MayPick.trans (h : MayPick total x y) (g : MayPick total y z) : MayPick total x z := by
  rcases h with rfl | ⟨hx, rfl⟩
  · exact g
  · rcases g with rfl | ⟨hy, -⟩
    · exact .inr ⟨hx, rfl⟩
    · rw [eligible_pick] at hy; cases hy

/-- A transport that may not pick is left as it is. -/
theorem MayPick.eq_of_not_eligible (h : MayPick total x y) (hx : x.eligible = false) : y = x := by
  rcases h with h | ⟨he, -⟩
  · exact h
  · rw [hx] at he; cases he

theorem MayPick.eq_of_state_ne (h : MayPick total x y) (hx : x.state ≠ .running) : y = x :=
  h.eq_of_not_eligible (by simp [eligible, hx])

theorem MayPick.onlyPicked (h : MayPick total x y) : x.OnlyPicked y := by
  rcases h with rfl | ⟨-, rfl⟩ <;> rfl

end Transport

/-! ### The pool -/

namespace State

variable {s u v : State}

/-- The low mark brought up to date touches the mark's condition and EVT.SPACE alone. -/
@[simp] theorem refreshMark_transports (s : State) : s.refreshMark.transports = s.transports := by
  unfold refreshMark; dsimp only; split <;> rfl

@[simp] theorem refreshMark_tr (s : State) (i : TransportNo) : s.refreshMark.tr i = s.tr i := by
  unfold refreshMark; dsimp only; split <;> rfl

theorem refreshMark_hold (s : State) :
    s.refreshMark.hold = { s.hold with below := decide (s.hold.freePages < s.hold.lowMark) } := by
  unfold refreshMark; dsimp only; split <;> rfl

/-- The DRAM and the low mark stay, no page leaves the free list, and the reservation total stays within it. -/
structure PoolKept (pages : List Nat) (s u : State) : Prop where
  dram : u.hold.dram = s.hold.dram
  lowMark : u.hold.lowMark = s.hold.lowMark
  free : u.hold.free = s.hold.free ++ pages
  reserved : s.hold.reserved ≤ s.hold.free.length → u.hold.reserved ≤ u.hold.free.length

theorem PoolKept.total {pages : List Nat} (h : PoolKept pages s u) : u.hold.total = s.hold.total := congrArg DramSize.pages h.dram

theorem PoolKept.trans {p q : List Nat} (h : PoolKept p s u) (g : PoolKept q u v) : PoolKept (p ++ q) s v :=
  ⟨g.dram.trans h.dram, g.lowMark.trans h.lowMark, by rw [g.free, h.free, List.append_assoc], fun e => g.reserved (h.reserved e)⟩

theorem PoolKept.setHold {h : HoldStore} (hd : h.dram = s.hold.dram) (hm : h.lowMark = s.hold.lowMark)
    (hf : h.free = s.hold.free) (hr : h.reserved = s.hold.reserved) : PoolKept [] s (s.setHold h) :=
  ⟨hd, hm, by simp [hf], fun e => by simpa [hf, hr] using e⟩

theorem poolKept_grant (s : State) (t : TransportNo) {need : Nat} (h : need ≤ s.hold.freePages) :
    PoolKept [] s (s.grant t need) := by
  have hold : (s.grant t need).hold = _ := (s.setHold { s.hold with reserved := s.hold.reserved + need }).refreshMark_hold
  refine ⟨by rw [hold]; rfl, by rw [hold]; rfl, by rw [hold]; simp, fun e => ?_⟩
  rw [hold]
  simp only [HoldStore.freePages] at h
  show s.hold.reserved + need ≤ s.hold.free.length
  omega

theorem poolKept_takeBack (s : State) (pages : List Nat) (reserve : Nat) : PoolKept pages s (s.takeBack pages reserve) := by
  have hold : (s.takeBack pages reserve).hold = _ :=
    (s.setHold { s.hold with free := s.hold.free ++ pages, reserved := s.hold.reserved - reserve }).refreshMark_hold
  refine ⟨by rw [hold]; rfl, by rw [hold]; rfl, by rw [hold]; rfl, fun e => ?_⟩
  rw [hold]
  show s.hold.reserved - reserve ≤ (s.hold.free ++ pages).length
  simp only [List.length_append]
  omega

theorem poolKept_serveWaiting (s : State) (l : List Request) : PoolKept [] s (s.serveWaiting l) := by
  induction l generalizing s with
  | nil => exact .setHold rfl rfl rfl rfl
  | cons r rest ih =>
    unfold serveWaiting
    split
    · split
      · next hneed => exact (poolKept_grant s r.transport hneed).trans (ih _)
      · exact .setHold rfl rfl rfl rfl
    · exact ih s

theorem poolKept_serveList (s : State) : PoolKept [] s s.serveList := s.poolKept_serveWaiting _

theorem poolKept_returnPages (s : State) (pages : List Nat) (reserve : Nat) :
    PoolKept pages s (s.returnPages pages reserve) := by
  have h : PoolKept ([] ++ pages ++ []) s (s.returnPages pages reserve) :=
    (s.poolKept_serveList.trans (poolKept_takeBack _ pages reserve)).trans (poolKept_serveList _)
  simpa using h

theorem poolKept_returnSides (s : State) (r : SheetRecord) : PoolKept r.pages s (s.returnSides r) :=
  (s.poolKept_returnPages _ _).trans (poolKept_returnPages _ _ _)

/-! ### Picks by the list -/

theorem stands_eligible {r : Request} (h : s.stands r = true) : (s.tr r.transport).eligible = true :=
  (Bool.and_eq_true_iff.mp h).1

theorem mayPick_grant (s : State) (t i : TransportNo) (need : Nat) (h : (s.tr t).eligible = true) :
    (s.tr i).MayPick s.hold.total ((s.grant t need).tr i) := by
  rw [tr_grant]
  split
  · next e => subst e; exact .inr ⟨h, rfl⟩
  · exact .refl _ _

/-- The list served (R123): each transport picks at most once. -/
theorem mayPick_serveWaiting (s : State) (l : List Request) (i : TransportNo) :
    (s.tr i).MayPick s.hold.total ((s.serveWaiting l).tr i) := by
  induction l generalizing s with
  | nil => exact .refl _ _
  | cons r rest ih =>
    unfold serveWaiting
    split
    · next hstands =>
      split
      · next hneed =>
        have h := ih (s.grant r.transport r.need)
        rw [(poolKept_grant s r.transport hneed).total] at h
        exact (s.mayPick_grant _ i _ (stands_eligible hstands)).trans h
      · exact .refl _ _
    · exact ih s

theorem mayPick_serveList (s : State) (i : TransportNo) : (s.tr i).MayPick s.hold.total (s.serveList.tr i) :=
  s.mayPick_serveWaiting _ i

@[simp] theorem tr_takeBack (s : State) (pages : List Nat) (reserve : Nat) (i : TransportNo) :
    (s.takeBack pages reserve).tr i = s.tr i := refreshMark_tr _ i

/-- A return of pages (R124): each transport picks at most once. -/
theorem mayPick_returnPages (s : State) (pages : List Nat) (reserve : Nat) (i : TransportNo) :
    (s.tr i).MayPick s.hold.total ((s.returnPages pages reserve).tr i) := by
  have h := mayPick_serveList (s.serveList.takeBack pages reserve) i
  rw [tr_takeBack, (poolKept_takeBack _ pages reserve).total, s.poolKept_serveList.total] at h
  exact (s.mayPick_serveList i).trans h

theorem mayPick_returnSides (s : State) (r : SheetRecord) (i : TransportNo) :
    (s.tr i).MayPick s.hold.total ((s.returnSides r).tr i) := by
  have h := mayPick_returnPages (s.returnPages r.front.pages r.front.reserve) r.back.pages r.back.reserve i
  rw [(s.poolKept_returnPages _ _).total] at h
  exact (s.mayPick_returnPages _ _ i).trans h

end State

end Sys2Proof.Machine
end

/-! PROOFS. What the invariants read of a transport, and the form in which each change of a transport keeps them: its bounds, the laws of
its control state but for the pick-wait reason, and its pages, with the pages it gives up named. -/

section

namespace Sys2Proof.Machine

/-! ### Records -/

/-- At most 4 segments and 255 further ones (R80). -/
def Verdict.Bounded (v : Verdict) : Prop := v.segments.length ≤ 4 ∧ v.further ≤ 255

namespace SheetRecord

variable {r q w : SheetRecord}

/-- q is r but for what no invariant reads: the id, the sides' captures and pages stay, q is not newly WITHDRAWN, and the bounds of
the verdict hold as before. -/
structure Mild (r q : SheetRecord) : Prop where
  id : q.id = r.id := by rfl
  life : q.life = .withdrawn → r.life = .withdrawn := by exact fun h => h
  capture : ∀ sd, (q.side sd).capture = (r.side sd).capture := by intro sd; cases sd <;> rfl
  pages : ∀ sd, (q.side sd).pages = (r.side sd).pages := by intro sd; cases sd <;> rfl
  verdict : r.verdict.Bounded → q.verdict.Bounded := by exact fun h => h

theorem Mild.refl (r : SheetRecord) : r.Mild r := {}

theorem Mild.trans (h : r.Mild q) (g : q.Mild w) : r.Mild w where
  id := g.id.trans h.id
  life e := h.life (g.life e)
  capture sd := (g.capture sd).trans (h.capture sd)
  pages sd := (g.pages sd).trans (h.pages sd)
  verdict e := g.verdict (h.verdict e)

theorem Mild.recordPages (h : r.Mild q) : q.pages = r.pages :=
  congrArg₂ (· ++ ·) (h.pages .front) (h.pages .back)

theorem side_setSide_self (r : SheetRecord) (sd : Side) (x : SideRecord) : (r.setSide sd x).side sd = x := by cases sd <;> rfl

theorem side_setSide_of_ne (r : SheetRecord) {sd so : Side} (x : SideRecord) (h : so ≠ sd) :
    (r.setSide sd x).side so = r.side so := by
  cases sd <;> cases so <;> first | rfl | exact absurd rfl h

@[simp] theorem setSide_id (r : SheetRecord) (sd : Side) (x : SideRecord) : (r.setSide sd x).id = r.id := by cases sd <;> rfl
@[simp] theorem setSide_life (r : SheetRecord) (sd : Side) (x : SideRecord) : (r.setSide sd x).life = r.life := by
  cases sd <;> rfl
@[simp] theorem setSide_verdict (r : SheetRecord) (sd : Side) (x : SideRecord) : (r.setSide sd x).verdict = r.verdict := by
  cases sd <;> rfl
@[simp] theorem setAt_id (r : SheetRecord) (st : Station) (x : StationTrack) : (r.setAt st x).id = r.id := by cases st <;> rfl

/-- A side changed in neither its capture nor its pages. -/
theorem mild_setSide (r : SheetRecord) (sd : Side) {x : SideRecord} (hc : x.capture = (r.side sd).capture)
    (hp : x.pages = (r.side sd).pages) : r.Mild (r.setSide sd x) where
  id := r.setSide_id sd x
  life h := by rwa [setSide_life] at h
  capture so := by
    by_cases h : so = sd
    · subst h; rw [side_setSide_self, hc]
    · rw [side_setSide_of_ne r x h]
  pages so := by
    by_cases h : so = sd
    · subst h; rw [side_setSide_self, hp]
    · rw [side_setSide_of_ne r x h]
  verdict h := by rwa [setSide_verdict]

theorem mild_setAt (r : SheetRecord) (st : Station) (x : StationTrack) : r.Mild (r.setAt st x) := by
  cases st <;> exact {}

end SheetRecord

/-! ### What the laws read of a transport -/

namespace Transport

variable {x y z : Transport} {ps qs : List Nat}

/-- The laws of the control state but for the pick-wait reason, which a step brings up to date at its end (R35). -/
structure ControlCore (x : Transport) : Prop where
  stop : x.stopReason = .none ↔ x.state ≠ .held
  drains : x.state = .draining → x.purpose ≠ .none
  idle : x.state = .off ∨ x.state = .ready ∨ x.state = .running ∨ x.state = .paused → x.purpose = .none
  stands : x.state = .off ∨ x.state = .held → x.motor = .standing ∧ x.clutch = false
  rests : x.state = .ready ∨ x.state = .paused → x.motor = .standing ∨ x.motor = .runOff
  drives : x.state = .running ∨ x.state = .draining → x.motor ≠ .runOff
  stall : x.pos.stallTimer.isSome ↔ x.motor ≠ .standing
  runOff : x.runOffTimer.isSome ↔ x.motor = .runOff

theorem controlLaw_iff : x.ControlLaw ↔ x.ControlCore ∧ (x.state ≠ .running → x.pickWait = .none) := by
  constructor
  · rintro ⟨h1, h2, h3, h4, h5, h6, h7, h8, h9⟩
    exact ⟨⟨h1, h2, h3, h5, h6, h7, h8, h9⟩, h4⟩
  · rintro ⟨⟨h1, h2, h3, h5, h6, h7, h8, h9⟩, h4⟩
    exact ⟨h1, h2, h3, h4, h5, h6, h7, h8, h9⟩

/-- y stands in x's control state: nothing that ControlCore reads has changed. -/
structure SameControl (x y : Transport) : Prop where
  state : y.state = x.state := by rfl
  purpose : y.purpose = x.purpose := by rfl
  stopReason : y.stopReason = x.stopReason := by rfl
  motor : y.motor = x.motor := by rfl
  clutch : y.clutch = x.clutch := by rfl
  stall : y.pos.stallTimer.isSome = x.pos.stallTimer.isSome := by rfl
  runOff : y.runOffTimer.isSome = x.runOffTimer.isSome := by rfl

theorem SameControl.core (h : x.SameControl y) (c : x.ControlCore) : y.ControlCore := by
  obtain ⟨h1, h2, h3, h4, h5, h6, h7⟩ := h
  obtain ⟨c1, c2, c3, c4, c5, c6, c7, c8⟩ := c
  constructor <;> simpa only [h1, h2, h3, h4, h5, h6, h7]

/-- y holds what x holds: the track's records change mildly, the queue keeps its pages, the units capture for no new record, and the
bounds of the skip count and the pulse list hold as before. -/
structure SameContents (x y : Transport) : Prop where
  nextId : y.nextId = x.nextId := by rfl
  skip : x.pos.skipCount ≤ 255 → y.pos.skipCount ≤ 255 := by exact fun h => h
  pulses : x.marks.pulses.length ≤ 8 → y.marks.pulses.length ≤ 8 := by exact fun h => h
  queue : y.queue.map Element.pages = x.queue.map Element.pages := by rfl
  track : List.Forall₂ SheetRecord.Mild x.track y.track := by exact List.forall₂_same.mpr fun r _ => .refl r
  unit : ∀ sd id e, (y.unit sd).activity = .capturing id e → ∃ e', (x.unit sd).activity = .capturing id e' := by
    exact fun _ _ e h => ⟨e, h⟩

/-- The record that stands in x's track where a record of y's track stands. -/
theorem mild_of_mem {l m : List SheetRecord} (h : List.Forall₂ SheetRecord.Mild l m) {q : SheetRecord} (hq : q ∈ m) :
    ∃ r ∈ l, r.Mild q := by
  induction h with
  | nil => cases hq
  | cons hr _ ih =>
    rcases List.mem_cons.mp hq with rfl | hq
    · exact ⟨_, List.mem_cons_self .., hr⟩
    · obtain ⟨r, hmem, hmild⟩ := ih hq
      exact ⟨r, List.mem_cons_of_mem _ hmem, hmild⟩

theorem ids_of_mild {l m : List SheetRecord} (h : List.Forall₂ SheetRecord.Mild l m) : m.map (·.id) = l.map (·.id) := by
  induction h with
  | nil => rfl
  | cons hr _ ih => simp [hr.id, ih]

theorem pages_of_mild {l m : List SheetRecord} (h : List.Forall₂ SheetRecord.Mild l m) :
    m.flatMap SheetRecord.pages = l.flatMap SheetRecord.pages := by
  induction h with
  | nil => rfl
  | cons hr _ ih => simp [hr.recordPages, ih]

/-- A side that took no image or lost it holds no page; a WITHDRAWN record's sides are such (R55, R59, R119). -/
def RecordLaw (r : SheetRecord) : Prop :=
  r.front.empty ∧ r.back.empty ∧ (r.life = .withdrawn → r.front.imageless ∧ r.back.imageless)

theorem recordLaw_iff {r : SheetRecord} : RecordLaw r ↔
    (∀ sd, (r.side sd).empty) ∧ (r.life = .withdrawn → ∀ sd, (r.side sd).imageless) := by
  constructor
  · rintro ⟨hf, hb, hw⟩
    exact ⟨fun sd => by cases sd; exacts [hf, hb], fun e sd => by cases sd; exacts [(hw e).1, (hw e).2]⟩
  · rintro ⟨he, hw⟩
    exact ⟨he .front, he .back, fun e => ⟨hw e .front, hw e .back⟩⟩

theorem RecordLaw.mild {r q : SheetRecord} (h : RecordLaw r) (m : r.Mild q) : RecordLaw q := by
  obtain ⟨he, hw⟩ := recordLaw_iff.mp h
  refine recordLaw_iff.mpr ⟨fun sd => ?_, fun e sd => ?_⟩
  · rw [SideRecord.empty, m.capture, m.pages]; exact he sd
  · rw [SideRecord.imageless, m.capture]; exact hw (m.life e) sd

theorem SameContents.bounded (h : x.SameContents y) (b : x.Bounded) : y.Bounded := by
  obtain ⟨ht, hq, hp, hs, hr⟩ := b
  refine ⟨?_, ?_, h.pulses hp, h.skip hs, fun q hmem => ?_⟩
  · rw [← h.track.length_eq]; exact ht
  · have := congrArg List.length h.queue
    simp only [List.length_map] at this
    omega
  · obtain ⟨r, hmem, hmild⟩ := mild_of_mem h.track hmem
    exact hmild.verdict (hr r hmem)

theorem SameContents.pageLaw (h : x.SameContents y) (p : x.PageLaw) : y.PageLaw := by
  obtain ⟨hn, hlt, hrec, hf, hb⟩ := p
  have link : ∀ sd, x.captureLinked sd → y.captureLinked sd := by
    intro sd hl id e he
    obtain ⟨e', he'⟩ := h.unit sd id e he
    obtain ⟨hid, hcap⟩ := hl id e' he'
    refine ⟨h.nextId ▸ hid, fun q hq hqid => ?_⟩
    obtain ⟨r, hr, hmild⟩ := mild_of_mem h.track hq
    rw [hmild.capture]
    exact hcap r hr (hmild.id ▸ hqid)
  refine ⟨by rw [ids_of_mild h.track]; exact hn, fun q hq => ?_, fun q hq => ?_, link .front hf, link .back hb⟩
  · obtain ⟨r, hr, hmild⟩ := mild_of_mem h.track hq
    rw [hmild.id, h.nextId]; exact hlt r hr
  · obtain ⟨r, hr, hmild⟩ := mild_of_mem h.track hq
    exact RecordLaw.mild (hrec r hr) hmild

theorem holding_eq (x : Transport) : x.holding = x.track.flatMap SheetRecord.pages ++ (x.queue.map Element.pages).flatten := by
  simp [holding, List.flatMap_def]

theorem SameContents.holding (h : x.SameContents y) : y.holding = x.holding := by
  rw [holding_eq, holding_eq, pages_of_mild h.track, h.queue]

/-! ### A change of a transport that keeps the invariants -/

/-- A change of a transport that keeps its bounds, its control laws and its pages, and gives up the pages ps; a transport that is OFF
stays OFF. -/
structure Safe (ps : List Nat) (x y : Transport) : Prop where
  bounded : x.Bounded → y.Bounded
  control : x.ControlCore → y.ControlCore
  off : x.ControlCore → x.state = .off → y.state = .off
  pageLaw : x.PageLaw → y.PageLaw
  holding : x.PageLaw → (y.holding ++ ps).Perm x.holding

theorem Safe.refl (x : Transport) : x.Safe [] x := ⟨id, id, fun _ => id, id, fun _ => by simp⟩

theorem Safe.trans (h : x.Safe ps y) (g : y.Safe qs z) : x.Safe (ps ++ qs) z where
  bounded b := g.bounded (h.bounded b)
  control c := g.control (h.control c)
  off c e := g.off (h.control c) (h.off c e)
  pageLaw p := g.pageLaw (h.pageLaw p)
  holding p := by
    have h1 := h.holding p
    have h2 := g.holding (h.pageLaw p)
    calc z.holding ++ (ps ++ qs) = (z.holding ++ ps) ++ qs := (List.append_assoc ..).symm
      _ |>.Perm ((z.holding ++ qs) ++ ps) := by
        rw [List.append_assoc, List.append_assoc]; exact List.Perm.append_left _ List.perm_append_comm
      _ |>.Perm (y.holding ++ ps) := h2.append_right _
      _ |>.Perm x.holding := h1

theorem Safe.trans_nil (h : x.Safe [] y) (g : y.Safe qs z) : x.Safe qs z := h.trans g

/-- A change of the control state that leaves what the transport holds as it is. -/
theorem SameContents.safe (h : x.SameContents y) (hc : x.ControlCore → y.ControlCore)
    (ho : x.ControlCore → x.state = .off → y.state = .off) : x.Safe [] y :=
  ⟨h.bounded, hc, ho, h.pageLaw, fun _ => by rw [h.holding, List.append_nil]⟩

/-- A change that leaves both the control state and what the transport holds. -/
theorem SameContents.safeSame (h : x.SameContents y) (c : x.SameControl y) : x.Safe [] y :=
  h.safe c.core fun _ e => c.state.trans e

theorem Safe.ite {p : Prop} [Decidable p] (h : x.Safe ps y) (g : x.Safe ps z) : x.Safe ps (if p then y else z) := by
  split
  · exact h
  · exact g

/-! ### Records changed mildly -/

theorem forall₂_modRecord (x : Transport) (id : Nat) {f : SheetRecord → SheetRecord} (h : ∀ r : SheetRecord, r.Mild (f r)) :
    List.Forall₂ SheetRecord.Mild x.track (x.modRecord id f).track := by
  refine List.forall₂_map_right_iff.mpr (List.forall₂_same.mpr fun r _ => ?_)
  split
  · exact h r
  · exact .refl r

theorem safe_modRecord_mild (x : Transport) (id : Nat) {f : SheetRecord → SheetRecord} (h : ∀ r : SheetRecord, r.Mild (f r)) :
    x.Safe [] (x.modRecord id f) :=
  SameContents.safeSame { track := x.forall₂_modRecord id h } {}

@[simp] theorem unit_setUnit_self (x : Transport) (sd : Side) (u : CaptureUnit) : (x.setUnit sd u).unit sd = u := by
  cases sd <;> rfl

theorem unit_setUnit_of_ne (x : Transport) {sd so : Side} (u : CaptureUnit) (h : so ≠ sd) :
    (x.setUnit sd u).unit so = x.unit so := by
  cases sd <;> cases so <;> first | rfl | exact absurd rfl h

theorem unit_setUnit (x : Transport) (sd so : Side) (u : CaptureUnit) :
    (x.setUnit sd u).unit so = if so = sd then u else x.unit so := by
  split
  · next h => subst h; exact x.unit_setUnit_self _ u
  · next h => exact x.unit_setUnit_of_ne u h

/-- A unit replaced: only the Capture Units differ. -/
theorem setUnit_eq (x : Transport) (sd : Side) (u : CaptureUnit) :
    ∃ f b, x.setUnit sd u = { x with front := f, back := b } := by
  cases sd
  · exact ⟨u, x.back, rfl⟩
  · exact ⟨x.front, u, rfl⟩

/-- A unit that goes on capturing for its record, or is IDLE. -/
theorem safe_setUnit_follows (x : Transport) (sd : Side) {u : CaptureUnit}
    (h : ∀ id e, u.activity = .capturing id e → ∃ e', (x.unit sd).activity = .capturing id e') :
    x.Safe [] (x.setUnit sd u) := by
  have hunit : ∀ so id e, ((x.setUnit sd u).unit so).activity = .capturing id e →
      ∃ e', (x.unit so).activity = .capturing id e' := by
    intro so id e he
    rw [unit_setUnit] at he
    split at he
    · next e' => subst e'; exact h id e he
    · exact ⟨e, he⟩
  obtain ⟨f, b, hy⟩ := x.setUnit_eq sd u
  rw [hy] at hunit ⊢
  exact SameContents.safeSame { unit := hunit } {}

end Transport

end Sys2Proof.Machine
end

/-! PROOFS. Each change that the model makes of a transport keeps its bounds, the laws of its control state and its pages. -/

section

namespace Sys2Proof.Machine

namespace Transport

variable (x : Transport)

/-! ### The motor -/

/-- A run-in abandoned touches its armed position and the Double-Feed Unit alone. -/
theorem abandonRunIn_eq : ∃ a d, x.abandonRunIn = { x with runInEnd := a, dfu := d } := by
  unfold abandonRunIn; split
  · exact ⟨_, _, rfl⟩
  · exact ⟨x.runInEnd, x.dfu, rfl⟩

/-- The motor commanded off touches the motor, the clutch, the timers and the run-in alone. -/
theorem motorOff_eq : ∃ a d, x.motorOff = { x with
    runInEnd := a, dfu := d, motor := .standing, clutch := false, runOffTimer := none,
    pos := { x.pos with stallTimer := none } } := by
  obtain ⟨a, d, h⟩ := x.abandonRunIn_eq
  exact ⟨a, d, by unfold motorOff; rw [h]⟩

theorem contents_motorOff : x.SameContents x.motorOff := by
  obtain ⟨a, d, h⟩ := x.motorOff_eq
  rw [h]; exact {}

theorem core_motorOff {x : Transport} (c : x.ControlCore) : x.motorOff.ControlCore := by
  obtain ⟨a, d, h⟩ := x.motorOff_eq
  rw [h]
  obtain ⟨c1, c2, c3, c4, c5, c6, c7, c8⟩ := c
  constructor <;> simp_all

theorem motorOff_state : x.motorOff.state = x.state := by
  obtain ⟨a, d, h⟩ := x.motorOff_eq
  rw [h]

theorem safe_motorOff : x.Safe [] x.motorOff :=
  x.contents_motorOff.safe core_motorOff fun _ e => x.motorOff_state.trans e

theorem contents_startMotor : x.SameContents x.startMotor := by
  unfold startMotor startRunIn
  split
  · split
    · exact {}
    · split <;> exact {}
  all_goals exact {}

/-- The stall timer runs exactly with the motor, the run-off timer exactly in RUN_OFF (R16, R33). -/
structure TimersAgree (x : Transport) : Prop where
  stall : x.pos.stallTimer.isSome ↔ x.motor ≠ .standing
  runOff : x.runOffTimer.isSome ↔ x.motor = .runOff

variable {x} in
theorem ControlCore.timers (c : x.ControlCore) : x.TimersAgree := ⟨c.stall, c.runOff⟩

/-- A motor start in RUNNING or DRAINING, from whatever the motor did before the state was entered. -/
theorem core_startMotor {x : Transport} (ha : x.state = .running ∨ x.state = .draining) (hr : x.stopReason = .none)
    (hd : x.state = .draining → x.purpose ≠ .none) (hi : x.state = .running → x.purpose = .none) (ht : x.TimersAgree) :
    x.startMotor.ControlCore := by
  obtain ⟨ht1, ht2⟩ := ht
  unfold startMotor startRunIn finishRunIn
  split
  · split
    · rcases ha with e | e <;> constructor <;> simp_all
    · split <;> rcases ha with e | e <;> constructor <;> simp_all
  all_goals rcases ha with e | e <;> constructor <;> simp_all

theorem safe_startMotor (h : x.isActive = true) : x.Safe [] x.startMotor := by
  have ha : x.state = .running ∨ x.state = .draining := by simpa [isActive] using h
  refine x.contents_startMotor.safe (fun c => ?_) fun _ e => by simp [e] at ha
  have hr : x.stopReason = .none := c.stop.mpr (by rcases ha with e | e <;> simp [e])
  exact core_startMotor ha hr c.drains (fun e => c.idle (.inr (.inr (.inl e)))) c.timers

theorem safe_finishRunIn (h : x.motor = .runIn) : x.Safe [] x.finishRunIn := by
  refine SameContents.safe {} (fun c => ?_) fun _ e => e
  obtain ⟨c1, c2, c3, c4, c5, c6, c7, c8⟩ := c
  unfold finishRunIn
  constructor <;> simp_all

theorem contents_beginRunOff : x.SameContents x.beginRunOff := by
  obtain ⟨a, d, h⟩ := x.abandonRunIn_eq
  unfold beginRunOff
  split
  · dsimp only
    split
    · obtain ⟨a', d', h'⟩ := x.abandonRunIn.motorOff_eq
      rw [h', h]; exact {}
    · rw [h]; exact {}
  · exact {}

/-- The run-off begun on entry into READY or PAUSED. -/
theorem core_beginRunOff {x : Transport} (hs : x.state = .ready ∨ x.state = .paused) (hr : x.stopReason = .none)
    (hp : x.purpose = .none) (ht : x.TimersAgree) : x.beginRunOff.ControlCore := by
  obtain ⟨ht1, ht2⟩ := ht
  obtain ⟨a, d, h⟩ := x.abandonRunIn_eq
  unfold beginRunOff motorOn
  split
  · dsimp only
    split
    · obtain ⟨a', d', h'⟩ := x.abandonRunIn.motorOff_eq
      rw [h', h]
      constructor <;> rcases hs with e | e <;> simp_all
    · rw [h]
      constructor <;> rcases hs with e | e <;> simp_all
  · constructor <;> rcases hs with e | e <;> simp_all

/-! ### Entries into a state -/

theorem contents_enterRunning : x.SameContents x.enterRunning := by
  have h := contents_startMotor ({ x with state := .running, purpose := .none } : Transport).freshEntry
  exact { h with pulses := fun _ => h.pulses (Nat.zero_le _) }

theorem core_enterRunning {x : Transport} (hr : x.stopReason = .none) (ht : x.TimersAgree) : x.enterRunning.ControlCore :=
  core_startMotor (x := ({ x with state := .running, purpose := .none } : Transport).freshEntry) (.inl rfl) hr
    (fun e => by cases e) (fun _ => rfl) ⟨ht.stall, ht.runOff⟩

/-- RUNNING entered from READY or PAUSED. -/
theorem safe_enterRunning (h : x.state = .ready ∨ x.state = .paused) : x.Safe [] x.enterRunning :=
  x.contents_enterRunning.safe
    (fun c => core_enterRunning (c.stop.mpr (by rcases h with e | e <;> simp [e])) c.timers)
    fun _ e => by simp [e] at h

theorem contents_enterDraining (p : Purpose) : x.SameContents (x.enterDraining p) := by
  unfold enterDraining; dsimp only
  split
  · exact { pulses := fun _ => Nat.zero_le _ }
  · have h := contents_startMotor ({ x with state := .draining, purpose := p, stopReason := .none } : Transport).freshEntry
    exact { h with pulses := fun _ => h.pulses (Nat.zero_le _) }

/-- DRAINING entered from HELD. -/
theorem core_enterDraining {x : Transport} {p : Purpose} (hp : p ≠ .none) (h : x.state = .held) (c : x.ControlCore) :
    (x.enterDraining p).ControlCore := by
  have hm := (c.stands (.inr h)).1
  unfold enterDraining; dsimp only
  split
  · obtain ⟨c1, c2, c3, c4, c5, c6, c7, c8⟩ := c
    constructor <;> simp_all [freshEntry]
  · exact core_startMotor (x := ({ x with state := .draining, purpose := p, stopReason := .none } : Transport).freshEntry)
      (.inr rfl) rfl (fun _ => hp) (fun e => by cases e) ⟨c.stall, c.runOff⟩

theorem safe_enterDraining {p : Purpose} (hp : p ≠ .none) (h : x.state = .held) : x.Safe [] (x.enterDraining p) :=
  (x.contents_enterDraining p).safe (core_enterDraining hp h) fun _ e => by rw [h] at e; cases e

theorem safe_leaveHeld (h : x.state = .held) : x.Safe [] x.leaveHeld := by
  have off : ∀ y : Transport, x.ControlCore → x.state = .off → y.state = .off := fun y _ e => by rw [h] at e; cases e
  unfold leaveHeld
  split
  · have hc := contents_enterRunning { x with stopReason := .none }
    exact SameContents.safe { hc with }
      (fun c => core_enterRunning (x := { x with stopReason := .none }) rfl ⟨c.stall, c.runOff⟩) (off _)
  · split
    · refine SameContents.safe {} (fun c => ?_) (off _)
      obtain ⟨c1, c2, c3, c4, c5, c6, c7, c8⟩ := c
      constructor <;> simp_all
    · exact x.safe_enterDraining (by decide) h
  all_goals exact x.safe_enterDraining (by decide) h

theorem safe_paused (h : x.state = .running) : x.Safe [] x.paused := by
  have off : ∀ y : Transport, x.ControlCore → x.state = .off → y.state = .off := fun y _ e => by rw [h] at e; cases e
  unfold paused
  split
  · have hc := contents_beginRunOff { x with state := .paused, purpose := .none, coverWait := false }
    exact SameContents.safe { hc with } (fun c => core_beginRunOff
      (x := { x with state := .paused, purpose := .none, coverWait := false }) (.inr rfl)
      (c.stop.mpr (by simp [h])) rfl ⟨c.stall, c.runOff⟩) (off _)
  · refine SameContents.safe {} (fun c => ?_) (off _)
    obtain ⟨c1, c2, c3, c4, c5, c6, c7, c8⟩ := c
    constructor <;> simp_all

theorem safe_pauseDone : x.Safe [] x.pauseDone := by
  unfold pauseDone
  split
  · next h =>
    obtain ⟨hs, -, -⟩ := h
    have hc := contents_beginRunOff { x with state := .paused, purpose := .none, coverWait := false }
    exact SameContents.safe { hc with } (fun c => core_beginRunOff
      (x := { x with state := .paused, purpose := .none, coverWait := false }) (.inr rfl)
      (c.stop.mpr (by simp [hs])) rfl ⟨c.stall, c.runOff⟩) fun _ e => by rw [hs] at e; cases e
  · exact .refl x

theorem safe_leaveDraining (h : x.state = .draining) : x.Safe [] x.leaveDraining := by
  have off : ∀ y : Transport, x.ControlCore → x.state = .off → y.state = .off := fun y _ e => by rw [h] at e; cases e
  unfold leaveDraining; dsimp only
  split
  · obtain ⟨a, d, hy⟩ :=
      motorOff_eq { x with purpose := .none, coverWait := false, state := .off, haltRequest := false }
    rw [hy]
    refine SameContents.safe {} (fun c => ?_) (off _)
    obtain ⟨c1, c2, c3, c4, c5, c6, c7, c8⟩ := c
    constructor <;> simp_all
  · have hc := contents_beginRunOff { x with purpose := .none, coverWait := false, state := .ready }
    exact SameContents.safe { hc with } (fun c => core_beginRunOff
      (x := { x with purpose := .none, coverWait := false, state := .ready }) (.inl rfl)
      (c.stop.mpr (by simp [h])) rfl ⟨c.stall, c.runOff⟩) (off _)

/-- DRAINING entered from RUNNING, with the motor as it is. -/
theorem safe_drain {p : Purpose} (hp : p ≠ .none) (h : x.state = .running) :
    x.Safe [] { x with state := .draining, purpose := p } := by
  refine SameContents.safe {} (fun c => ?_) fun _ e => by rw [h] at e; cases e
  obtain ⟨c1, c2, c3, c4, c5, c6, c7, c8⟩ := c
  constructor <;> simp_all

/-- The purpose of a drain, or of a stop, changed for another. -/
theorem safe_repurpose {p : Purpose} (hp : p ≠ .none) (h : x.state = .draining ∨ x.state = .held) :
    x.Safe [] { x with purpose := p } := by
  refine SameContents.safe {} (fun c => ?_) fun _ e => e
  obtain ⟨c1, c2, c3, c4, c5, c6, c7, c8⟩ := c
  rcases h with h | h <;> constructor <;> simp_all

/-- DRAINING entered from PAUSED, with the motor commanded off. -/
theorem safe_drainPaused {p : Purpose} (hp : p ≠ .none) (h : x.state = .paused) :
    x.Safe [] ({ x with state := .draining, purpose := p } : Transport).motorOff.freshEntry := by
  obtain ⟨a, d, hy⟩ := motorOff_eq { x with state := .draining, purpose := p }
  rw [hy]
  refine SameContents.safe { pulses := fun _ => Nat.zero_le _ } (fun c => ?_) fun _ e => by rw [h] at e; cases e
  obtain ⟨c1, c2, c3, c4, c5, c6, c7, c8⟩ := c
  constructor <;> simp_all [freshEntry]

theorem safe_endCondition : x.Safe [] x.endCondition := by
  unfold endCondition
  split
  · next h => exact x.safe_drain (by decide) h
  · split
    · next h => exact x.safe_repurpose (by decide) (.inl h.1)
    · exact .refl x

theorem safe_endTests : x.Safe [] x.endTests := Safe.ite x.safe_endCondition (.refl x)

theorem safe_halted : x.Safe [] x.halted := by
  unfold halted
  split
  · exact .refl x
  · obtain ⟨a, d, hy⟩ := motorOff_eq { x with state := .off, coverWait := false }
    rw [hy]
    refine SameContents.safe {} (fun c => ?_) fun _ _ => rfl
    obtain ⟨c1, c2, c3, c4, c5, c6, c7, c8⟩ := c
    constructor <;> simp_all
  · next h => exact x.safe_drain (by decide) h
  · next h =>
    split
    · exact x.safe_repurpose (by decide) (.inl h)
    · exact SameContents.safeSame {} {}
    · exact SameContents.safeSame {} {}
    · exact .refl x
    · exact .refl x
  · next h => exact x.safe_drainPaused (by decide) h
  · next h =>
    split
    · exact x.safe_repurpose (by decide) (.inr h)
    · exact x.safe_repurpose (by decide) (.inr h)
    · exact SameContents.safeSame {} {}
    · exact SameContents.safeSame {} {}
    · exact .refl x

theorem safe_disabled (h : x.state = .ready) : x.Safe [] x.disabled := by
  obtain ⟨a, d, hy⟩ := x.motorOff_eq
  have hidle : ∀ sd id e, (x.disabled.unit sd).activity = .capturing id e →
      ∃ e', (x.unit sd).activity = .capturing id e' := by
    intro sd id e he
    cases sd <;> cases he
  unfold disabled at hidle ⊢
  rw [hy] at hidle ⊢
  refine SameContents.safe { pulses := fun _ => Nat.zero_le _, unit := hidle } (fun c => ?_) fun _ _ => rfl
  have hstop : x.stopReason = .none := c.stop.mpr (by simp [h])
  obtain ⟨c1, c2, c3, c4, c5, c6, c7, c8⟩ := c
  constructor <;> simp_all

theorem safe_startBatch (b : BatchContext) (h : x.state = .ready) : x.Safe [] (x.startBatch b) := by
  have h1 : x.Safe [] { x with batch := b, pos := { x.pos with skipCount := 0 }, retries := 0 } :=
    SameContents.safeSame { skip := fun _ => Nat.zero_le _ } {}
  exact h1.trans_nil (safe_enterRunning _ (.inl h))

theorem safe_pick {total : Nat} (h : x.eligible = true) : x.Safe [] (x.pick total) := by
  obtain ⟨hs, hu⟩ := eligible_iff.mp h
  obtain ⟨-, hm, hlen, -⟩ := firstUnmet_eq_none_iff.mp hu
  have hside : ∀ p u sd, (newSide p u total sd).pages = [] := by intro p u sd; unfold newSide; split <;> rfl
  have hpages : (x.newRecord total).pages = [] := by
    simp [SheetRecord.pages, newRecord, hside]
  have hwait : ∀ p u sd, (newSide p u total sd).empty := fun p u sd _ => hside p u sd
  refine ⟨fun b => ?_, fun c => ?_, fun _ e => e, fun p => ?_, fun _ => ?_⟩
  · obtain ⟨-, hq, hp, hsk, hr⟩ := b
    refine ⟨by simp [pick]; omega, hq, hp, hsk, fun r hr' => ?_⟩
    rcases List.mem_append.mp hr' with hr' | hr'
    · exact hr r hr'
    · rw [List.mem_singleton.mp hr']; exact ⟨Nat.zero_le _, Nat.zero_le _⟩
  · obtain ⟨c1, c2, c3, c4, c5, c6, c7, c8⟩ := c
    unfold pick
    constructor <;> simp_all
  · obtain ⟨hn, hlt, hrec, hf, hb⟩ := p
    have link : ∀ sd, x.captureLinked sd → (x.pick total).captureLinked sd := by
      intro sd hl id e he
      have he' : (x.unit sd).activity = .capturing id e := by cases sd <;> exact he
      obtain ⟨hid, hcap⟩ := hl id e he'
      refine ⟨Nat.lt_succ_of_lt hid, fun r hr hrid => ?_⟩
      rcases List.mem_append.mp hr with hr | hr
      · exact hcap r hr hrid
      · rw [List.mem_singleton.mp hr] at hrid
        have : x.nextId = id := hrid
        omega
    refine ⟨?_, fun r hr => ?_, fun r hr => ?_, link .front hf, link .back hb⟩
    · show ((x.track ++ [x.newRecord total]).map (·.id)).Nodup
      rw [List.map_append, List.nodup_append]
      refine ⟨hn, List.nodup_singleton _, fun a ha b hb' => ?_⟩
      obtain ⟨r, hr, rfl⟩ := List.mem_map.mp ha
      rw [List.mem_singleton.mp hb']
      exact (hlt r hr).ne
    · rcases List.mem_append.mp hr with hr | hr
      · exact Nat.lt_succ_of_lt (hlt r hr)
      · rw [List.mem_singleton.mp hr]; exact Nat.lt_succ_self _
    · rcases List.mem_append.mp hr with hr | hr
      · exact hrec r hr
      · rw [List.mem_singleton.mp hr]
        exact ⟨hwait _ _ _, hwait _ _ _, fun e => by cases e⟩
  · rw [holding_eq, holding_eq]
    simp [pick, hpages]

theorem safe_mayPick {total : Nat} {y : Transport} (h : x.MayPick total y) : x.Safe [] y := by
  rcases h with rfl | ⟨he, rfl⟩
  · exact .refl _
  · exact x.safe_pick he

end Transport
end Sys2Proof.Machine
end

/-! PROOFS. The changes that the paper path, the Double-Feed Unit and the Mark Unit make of a transport keep its bounds, its control
laws and its pages. -/

section

namespace Sys2Proof.Machine

/-! ### Verdicts -/

theorem Verdict.bounded_addSegment {v : Verdict} (g : Segment) (h : v.Bounded) : (v.addSegment g).Bounded := by
  obtain ⟨h1, h2⟩ := h
  unfold addSegment Bounded
  dsimp only
  split
  · next hlt => exact ⟨by simp; omega, h2⟩
  · exact ⟨h1, Nat.min_le_left ..⟩

namespace SheetRecord

variable (r : SheetRecord)

theorem mild_endRun (x : Transport) (p q : Pos) : r.Mild (r.endRun x p q) := by
  unfold endRun
  split
  · exact .refl r
  · next g _ => exact { verdict := Verdict.bounded_addSegment g }

theorem mild_decideVerdict (x : Transport) (trail : Pos) : r.Mild (r.decideVerdict x trail) := by
  unfold decideVerdict
  split
  · exact (r.mild_endRun x _ trail).trans {}
  all_goals exact {}

theorem mild_pass (p : Pos) : r.Mild (r.pass p) := {}

theorem mild_disarm : r.Mild r.disarm := {}

end SheetRecord

namespace Transport

variable (x : Transport)

/-! ### The encoder -/

theorem safe_moveCounter (line : EncLine) (forward : Bool) : x.Safe [] (x.moveCounter line forward) := by
  have hskip : (x.pos.flip line).skipCount = x.pos.skipCount := by cases line <;> rfl
  exact SameContents.safeSame { skip := fun h => hskip.trans_le h } { stall := Option.isSome_map }

theorem safe_raiseExpiries (p : Pos) : x.Safe [] (x.raiseExpiries p) :=
  SameContents.safeSame
    { track := List.forall₂_map_right_iff.mpr (List.forall₂_same.mpr fun r _ => r.mild_pass p) } {}

theorem safe_dfu (d : DoubleFeedUnit) : x.Safe [] { x with dfu := d } := SameContents.safeSame {} {}

theorem safe_runSample (r : SheetRecord) (a : Nat) (q : Pos) : x.Safe [] (x.runSample r a q) := by
  unfold runSample
  split
  · exact .ite (x.safe_dfu _) (.refl x)
  · exact .ite ((x.safe_modRecord_mild _ fun q' => q'.mild_endRun x _ q).trans_nil (safe_dfu _ _)) (.refl x)
  · exact .refl x

theorem safe_gapSample (a : Nat) : x.Safe [] (x.gapSample a) := .ite (.refl x) (.ite (x.safe_dfu _) (x.safe_dfu _))

theorem safe_routeSample (a : Nat) (q : Pos) : x.Safe [] (x.routeSample a q) := by
  unfold routeSample
  refine .ite ?_ (.refl x)
  split
  · exact .ite (.refl x) (x.safe_dfu _)
  · refine .ite ?_ (x.safe_gapSample a)
    split
    · exact .ite (.refl x) (x.safe_runSample _ a q)
    · exact .refl x
  · exact .refl x
  · exact .refl x

theorem safe_sampleCount (a : Nat) : x.Safe [] (x.sampleCount a) := by
  unfold sampleCount
  split
  · exact .refl x
  · exact .ite (x.safe_dfu _) ((x.safe_dfu _).trans_nil (safe_routeSample _ _ _))

theorem safe_count (line : EncLine) (adc : BitVec 10) (forward : Bool) : x.Safe [] (x.count line adc forward) :=
  .ite (((x.safe_moveCounter line true).trans_nil (safe_raiseExpiries _ _)).trans_nil (safe_sampleCount _ _))
    (x.safe_moveCounter line false)

/-! ### The sensors -/

theorem setSensor_skipCount (p : PositionUnit) (sn : Sensor) (c : SensorState) :
    (p.setSensor sn c).skipCount = p.skipCount ∧ (p.setSensor sn c).stallTimer = p.stallTimer := by
  cases sn with
  | station st => cases st <;> exact ⟨rfl, rfl⟩
  | trayEmpty => exact ⟨rfl, rfl⟩
  | coverOpen => exact ⟨rfl, rfl⟩

theorem safe_setSensor (sn : Sensor) (c : SensorState) : x.Safe [] (x.setSensor sn c) := by
  obtain ⟨hskip, hstall⟩ := setSensor_skipCount x.pos sn c
  exact SameContents.safeSame { skip := fun h => hskip.trans_le h } { stall := congrArg Option.isSome hstall }

theorem safe_beginMeasurement (latch : Pos) : x.Safe [] (x.beginMeasurement latch) := by
  unfold beginMeasurement
  refine .ite (SameContents.safeSame { pulses := fun _ => ?_ } {}) (.refl x)
  show (if x.pos.dark then [_] else ([] : List Pulse)).length ≤ 8
  split <;> simp

theorem safe_rawEdge (sn : Sensor) : x.Safe [] (x.rawEdge sn) := by
  unfold rawEdge
  dsimp only
  split
  · exact x.safe_setSensor sn _
  · exact .ite (x.safe_setSensor sn _)
      (.ite ((x.safe_setSensor sn _).trans_nil (safe_beginMeasurement _ _)) (x.safe_setSensor sn _))

theorem length_endNewest (q : Pos) (l : List Pulse) : (endNewest q l).length = l.length := by
  induction l with
  | nil => rfl
  | cons p rest ih =>
    cases rest with
    | nil => rfl
    | cons p' rest' => simp [endNewest] at ih ⊢; exact ih

theorem transition_pulses {m : MarkUnit} (dark : Bool) (q : Pos) (h : m.pulses.length ≤ 8) :
    (m.transition dark q).pulses.length ≤ 8 := by
  unfold MarkUnit.transition
  split
  · exact h
  · split
    · split
      · simp; omega
      · exact h
    · simpa [length_endNewest] using h

theorem safe_dropProvisional : x.Safe [] x.dropProvisional :=
  .ite (SameContents.safeSame { pulses := fun _ => Nat.zero_le _ } {}) (.refl x)

/-! ### The Double-Feed Unit -/

theorem safe_dfLead (id : Nat) : x.Safe [] (x.dfLead id) := by
  unfold dfLead
  dsimp only
  exact .ite (((x.safe_dfu _).trans_nil (safe_modRecord_mild _ id fun _ => {})).trans_nil (safe_dfu _ _))
    (((x.safe_dfu _).trans_nil (safe_modRecord_mild _ id fun _ => {})).trans_nil (safe_dfu _ _))

theorem safe_dfTrail (id : Nat) (trail : Pos) : x.Safe [] (x.dfTrail id trail) := by
  have h : ∀ r : SheetRecord, r.Mild (let r1 := r.decideVerdict x trail
      if r1.verdict.action = .hold then { r1 with suspect := true } else r1) := by
    intro r
    dsimp only
    split
    · exact (r.mild_decideVerdict x trail).trans {}
    · exact r.mild_decideVerdict x trail
  have hy := (x.safe_modRecord_mild id h).trans_nil
    (safe_dfu _ { x.dfu with run := .none, trailExclusion := 2 })
  unfold dfTrail
  dsimp only
  split
  · exact .ite (hy.trans_nil (SameContents.safeSame {} {})) hy
  · exact hy

/-! ### Latches -/

theorem safe_entryLead (r : SheetRecord) (latch : Pos) : x.Safe [] (x.entryLead r latch) := by
  have h := x.forall₂_modRecord r.id (f := fun q =>
      { q with
        life := .inPath
        sheet := some (BitVec.ofNat 32 (sat32 x.batch.counters.picked 1))
        entry := q.entry.seeLead latch (x.copyOf q.selector).cLMax
        df := q.df.armLead (posPlus (posPlus latch (x.cfg.distance .df)) x.cfg.tolerance)
        mark := q.mark.armLead (posPlus (posPlus latch (x.cfg.distance .mark)) x.cfg.tolerance)
        exit := q.exit.armLead (posPlus (posPlus latch (x.cfg.distance .exit)) x.cfg.tolerance) })
      fun q => { life := fun e => by cases e }
  refine SameContents.safe { track := h } (fun c => ?_) fun _ e => e
  obtain ⟨c1, c2, c3, c4, c5, c6, c7, c8⟩ := c
  unfold entryLead
  constructor <;> simp_all [modRecord]

theorem safe_fillLead (r : SheetRecord) (st : Station) (latch : Pos) : x.Safe [] (x.fillLead r st latch) :=
  x.safe_modRecord_mild _ fun q => q.mild_setAt st _

theorem safe_fillTrail (r : SheetRecord) (st : Station) (latch : Pos) : x.Safe [] (x.fillTrail r st latch) :=
  x.safe_modRecord_mild _ fun q => q.mild_setAt st _

/-! ### The Mark Unit -/

theorem safe_marks {m : MarkUnit} (h : x.marks.pulses.length ≤ 8 → m.pulses.length ≤ 8) : x.Safe [] { x with marks := m } :=
  SameContents.safeSame { pulses := h } {}

theorem safe_noMarks : x.Safe [] { x with marks := {} } := x.safe_marks fun _ => Nat.zero_le _

theorem safe_batch (b : BatchContext) : x.Safe [] { x with batch := b } := SameContents.safeSame {} {}

theorem safe_switchDecision (id : Nat) : x.Safe [] (x.switchDecision id) := by
  unfold switchDecision
  dsimp only
  exact .ite (SameContents.safeSame {} {})
    ((x.safe_modRecord_mild id fun _ => {}).trans_nil (safe_batch _ _))

theorem forall₂_overrunBehind (id : Nat) (l : List SheetRecord) : List.Forall₂ SheetRecord.Mild l (overrunBehind id l) := by
  induction l with
  | nil => exact .nil
  | cons r rest ih =>
    unfold overrunBehind
    split
    · exact .cons (SheetRecord.Mild.refl r) (List.forall₂_map_right_iff.mpr (List.forall₂_same.mpr fun _ _ => {}))
    · exact .cons (.refl r) ih

theorem safe_decisionEffects (id : Nat) (m : MarkResult) : x.Safe [] (x.decisionEffects id m) := by
  unfold decisionEffects
  split
  · exact x.safe_switchDecision id
  · exact (SameContents.safeSame (x := x) { track := forall₂_overrunBehind id x.track } {}).trans_nil (safe_endCondition _)
  all_goals exact .refl x

theorem safe_decideMark (r : SheetRecord) (close : Pos) : x.Safe [] (x.decideMark r close) :=
  ((x.safe_modRecord_mild r.id fun _ => {}).trans_nil (safe_noMarks _)).trans_nil (safe_decisionEffects _ _ _)

theorem safe_markWindowExpired : x.Safe [] x.markWindowExpired := by
  unfold markWindowExpired
  split
  · split
    · exact x.safe_decideMark _ _
    · exact x.safe_noMarks
  · exact .refl x
  · exact .refl x

theorem safe_markLead (r : SheetRecord) (latch : Pos) : x.Safe [] (x.markLead r latch) := by
  unfold markLead
  dsimp only
  have h := x.safe_marks (m := { x.marks with
    measurement := .opened r.id, lead := some latch, windowEnd := .at (posPlus latch (x.copyOf r.selector).cMarkWindow) })
    fun h => h
  exact .ite (.ite (h.trans_nil (safe_markWindowExpired _)) h)
    ((x.safe_modRecord_mild r.id fun _ => {}).trans_nil (safe_noMarks _))

theorem safe_markTrail (r : SheetRecord) (trail : Pos) : x.Safe [] (x.markTrail r trail) := by
  unfold markTrail
  exact .ite (x.safe_decideMark _ _) (.refl x)

/-! ### The batch and the queue -/

theorem safe_laneClosed (n : LaneNo) : x.Safe [] (x.laneClosed n) := by
  unfold laneClosed
  split
  · exact x.safe_batch _
  all_goals exact .refl x

theorem safe_touch (n : LaneNo) : x.Safe [] (x.touch n) := .ite (.refl x) (x.safe_batch _)

theorem pages_modFirstUnwritten {f : Piece → Piece} (hw : ∀ p, (f p).written = p.written) (hi : ∀ p, (f p).image = p.image)
    (l : List Piece) :
    ((modFirstUnwritten f l).flatMap fun p => if p.written then [] else p.image.elim [] (·.pages)) =
      l.flatMap fun p => if p.written then [] else p.image.elim [] (·.pages) := by
  induction l with
  | nil => rfl
  | cons p rest ih =>
    unfold modFirstUnwritten
    split
    · simp [ih]
    · simp [hw, hi]

/-- The head piece changed in neither its image nor whether it is written. -/
theorem safe_modHeadPiece {f : Piece → Piece} (hw : ∀ p, (f p).written = p.written) (hi : ∀ p, (f p).image = p.image) :
    x.Safe [] (x.modHeadPiece f) := by
  unfold modHeadPiece
  split
  · exact .refl x
  · next e rest hq =>
    refine SameContents.safeSame { queue := ?_ } {}
    simp only [hq, List.map_cons]
    exact congrArg (· :: _) (pages_modFirstUnwritten hw hi e.pieces)

end Transport
end Sys2Proof.Machine
end

/-! PROOFS. The changes of a transport that its records' pages and captures take part in: a side captured, completed or given a page,
records that leave the track or are discarded, and pieces that leave the queue. -/

section

namespace Sys2Proof.Machine

namespace Transport

variable {x y : Transport}

/-! ### Records by their id -/

theorem PageLaw.eq_of_id (p : x.PageLaw) {r q : SheetRecord} (hr : r ∈ x.track) (hq : q ∈ x.track) (h : q.id = r.id) : q = r :=
  List.inj_on_of_nodup_map p.1 hq hr h

theorem PageLaw.recordLaw (p : x.PageLaw) {r : SheetRecord} (hr : r ∈ x.track) : RecordLaw r := p.2.2.1 r hr

theorem PageLaw.linked (p : x.PageLaw) (sd : Side) : x.captureLinked sd := by
  cases sd
  exacts [p.2.2.2.1, p.2.2.2.2]

theorem pageLaw_of (hn : (y.track.map (·.id)).Nodup) (hlt : ∀ r ∈ y.track, r.id < y.nextId) (hr : ∀ r ∈ y.track, RecordLaw r)
    (hl : ∀ sd, y.captureLinked sd) : y.PageLaw := ⟨hn, hlt, hr, hl .front, hl .back⟩

theorem mem_of_record {id : Nat} {r : SheetRecord} (h : x.record id = some r) : r ∈ x.track ∧ r.id = id :=
  ⟨List.mem_of_find?_eq_some h, by simpa using List.find?_some h⟩

theorem PageLaw.record_eq (p : x.PageLaw) {r : SheetRecord} (hr : r ∈ x.track) : x.record r.id = some r := by
  cases h : x.record r.id with
  | none =>
    have := List.find?_eq_none.mp h r hr
    simp at this
  | some q =>
    obtain ⟨hq, hid⟩ := mem_of_record h
    rw [p.eq_of_id hr hq hid]

theorem track_modRecord (x : Transport) (id : Nat) (f : SheetRecord → SheetRecord) :
    (x.modRecord id f).track = x.track.map fun r => if r.id = id then f r else r := rfl

theorem mem_modRecord {id : Nat} {f : SheetRecord → SheetRecord} {q : SheetRecord} (h : q ∈ (x.modRecord id f).track) :
    ∃ r ∈ x.track, q = if r.id = id then f r else r := by
  obtain ⟨r, hr, rfl⟩ := List.mem_map.mp h
  exact ⟨r, hr, rfl⟩

@[simp] theorem setUnit_track (x : Transport) (sd : Side) (u : CaptureUnit) : (x.setUnit sd u).track = x.track := by
  cases sd <;> rfl
@[simp] theorem setUnit_nextId (x : Transport) (sd : Side) (u : CaptureUnit) : (x.setUnit sd u).nextId = x.nextId := by
  cases sd <;> rfl
@[simp] theorem setUnit_queue (x : Transport) (sd : Side) (u : CaptureUnit) : (x.setUnit sd u).queue = x.queue := by
  cases sd <;> rfl
@[simp] theorem setUnit_state (x : Transport) (sd : Side) (u : CaptureUnit) : (x.setUnit sd u).state = x.state := by
  cases sd <;> rfl
@[simp] theorem unit_modRecord (x : Transport) (id : Nat) (f : SheetRecord → SheetRecord) (sd : Side) :
    (x.modRecord id f).unit sd = x.unit sd := by cases sd <;> rfl

/-! ### Changes but for the pages -/

/-- A change that keeps the bounds, the control laws and the laws of the records; of the pages held nothing is said. -/
structure Lawful (x y : Transport) : Prop where
  bounded : x.Bounded → y.Bounded
  control : x.ControlCore → y.ControlCore
  off : x.ControlCore → x.state = .off → y.state = .off
  pageLaw : x.PageLaw → y.PageLaw

theorem Lawful.safe {ps : List Nat} (h : x.Lawful y) (hh : x.PageLaw → (y.holding ++ ps).Perm x.holding) : x.Safe ps y :=
  ⟨h.bounded, h.control, h.off, h.pageLaw, hh⟩

/-- One side of the records with an id, and the unit of that side, replaced. -/
def putSide (x : Transport) (id : Nat) (sd : Side) (g : SheetRecord → SideRecord) (u : CaptureUnit) : Transport :=
  (x.modRecord id fun r => r.setSide sd (g r)).setUnit sd u

theorem putSide_track (x : Transport) (id : Nat) (sd : Side) (g : SheetRecord → SideRecord) (u : CaptureUnit) :
    (x.putSide id sd g u).track = x.track.map fun r => if r.id = id then r.setSide sd (g r) else r := by
  simp [putSide, track_modRecord]

theorem sameControl_setUnit (x : Transport) (sd : Side) (u : CaptureUnit) : x.SameControl (x.setUnit sd u) := by
  cases sd <;> exact {}

theorem sameControl_putSide (x : Transport) (id : Nat) (sd : Side) (g : SheetRecord → SideRecord) (u : CaptureUnit) :
    x.SameControl (x.putSide id sd g u) := by
  have h := sameControl_setUnit (x.modRecord id fun r => r.setSide sd (g r)) sd u
  exact { h with }

theorem bounded_putSide {id : Nat} {sd : Side} {g : SheetRecord → SideRecord} {u : CaptureUnit} (b : x.Bounded) :
    (x.putSide id sd g u).Bounded := by
  obtain ⟨ht, hq, hp, hs, hr⟩ := b
  have htrack := x.putSide_track id sd g u
  have hbound : ∀ q ∈ (x.putSide id sd g u).track, q.verdict.segments.length ≤ 4 ∧ q.verdict.further ≤ 255 := by
    intro q hmem
    rw [htrack] at hmem
    obtain ⟨r, hr', rfl⟩ := List.mem_map.mp hmem
    split
    · rw [SheetRecord.setSide_verdict]; exact hr r hr'
    · exact hr r hr'
  have hlen : (x.putSide id sd g u).track.length ≤ 6 := by rw [htrack, List.length_map]; exact ht
  cases sd <;> exact ⟨hlen, hq, hp, hs, hbound⟩

/-- What a changed side and its unit must meet for the laws of the records. -/
structure SideLaw (x : Transport) (id : Nat) (sd : Side) (g : SheetRecord → SideRecord) (u : CaptureUnit) : Prop where
  empty : ∀ r ∈ x.track, r.id = id → (g r).empty
  withdrawn : ∀ r ∈ x.track, r.id = id → r.life = .withdrawn → (g r).imageless
  unit : ∀ i e, u.activity = .capturing i e → i < x.nextId ∧
    ∀ r ∈ x.track, r.id = i → (if i = id then g r else r.side sd).capture = .capturing

theorem pageLaw_putSide {id : Nat} {sd : Side} {g : SheetRecord → SideRecord} {u : CaptureUnit} (p : x.PageLaw)
    (h : x.SideLaw id sd g u) : (x.putSide id sd g u).PageLaw := by
  have htrack := x.putSide_track id sd g u
  have hid : ∀ r : SheetRecord, (if r.id = id then r.setSide sd (g r) else r).id = r.id := by
    intro r; split <;> simp
  refine pageLaw_of ?_ (fun q hq => ?_) (fun q hq => ?_) fun so i e he => ?_
  · rw [htrack, List.map_map]
    exact (congrArg List.Nodup (List.map_congr_left fun r _ => hid r)).mpr p.1
  · rw [htrack] at hq
    obtain ⟨r, hr, rfl⟩ := List.mem_map.mp hq
    rw [hid]
    simpa [putSide, modRecord] using p.2.1 r hr
  · rw [htrack] at hq
    obtain ⟨r, hr, rfl⟩ := List.mem_map.mp hq
    obtain ⟨he, hw⟩ := recordLaw_iff.mp (p.recordLaw hr)
    split
    · next hrid =>
      refine recordLaw_iff.mpr ⟨fun so => ?_, fun e so => ?_⟩
      · by_cases hso : so = sd
        · subst hso; rw [SheetRecord.side_setSide_self]; exact h.empty r hr hrid
        · rw [SheetRecord.side_setSide_of_ne r _ hso]; exact he so
      · rw [SheetRecord.setSide_life] at e
        by_cases hso : so = sd
        · subst hso; rw [SheetRecord.side_setSide_self]; exact h.withdrawn r hr hrid e
        · rw [SheetRecord.side_setSide_of_ne r _ hso]; exact hw e so
    · exact p.recordLaw hr
  · have hnext : (x.putSide id sd g u).nextId = x.nextId := by simp [putSide, modRecord]
    rw [putSide, unit_setUnit] at he
    rw [hnext, htrack]
    by_cases hso : so = sd
    · subst hso
      rw [if_pos rfl] at he
      obtain ⟨hlt, hcap⟩ := h.unit i e he
      refine ⟨hlt, fun q hq hqid => ?_⟩
      obtain ⟨r, hr, rfl⟩ := List.mem_map.mp hq
      rw [hid] at hqid
      have hc := hcap r hr hqid
      subst hqid
      split
      · next hrid => rw [if_pos hrid] at hc; rw [SheetRecord.side_setSide_self]; exact hc
      · next hrid => rw [if_neg hrid] at hc; exact hc
    · rw [if_neg hso, unit_modRecord] at he
      obtain ⟨hlt, hcap⟩ := p.linked so i e he
      refine ⟨hlt, fun q hq hqid => ?_⟩
      obtain ⟨r, hr, rfl⟩ := List.mem_map.mp hq
      rw [hid] at hqid
      split
      · rw [SheetRecord.side_setSide_of_ne r _ hso]; exact hcap r hr hqid
      · exact hcap r hr hqid

theorem lawful_putSide (x : Transport) {id : Nat} {sd : Side} {g : SheetRecord → SideRecord} {u : CaptureUnit}
    (h : x.PageLaw → x.SideLaw id sd g u) : x.Lawful (x.putSide id sd g u) where
  bounded := bounded_putSide
  control := (x.sameControl_putSide id sd g u).core
  off _ e := (x.sameControl_putSide id sd g u).state.trans e
  pageLaw p := pageLaw_putSide p (h p)

/-! ### The pages held -/

theorem pages_setSide (r : SheetRecord) (sd : Side) {z : SideRecord} {new : List Nat} (h : z.pages = (r.side sd).pages ++ new) :
    (r.setSide sd z).pages.Perm (r.pages ++ new) := by
  cases sd with
  | front =>
    have h : z.pages = r.front.pages ++ new := h
    simp only [SheetRecord.pages, SheetRecord.setSide, h]
    rw [List.append_assoc, List.append_assoc]
    exact List.Perm.append_left _ List.perm_append_comm
  | back =>
    have h : z.pages = r.back.pages ++ new := h
    simp only [SheetRecord.pages, SheetRecord.setSide, h]
    rw [List.append_assoc]

theorem holding_putSide_of_eq {id : Nat} {sd : Side} {g : SheetRecord → SideRecord} {u : CaptureUnit}
    (h : ∀ r ∈ x.track, r.id = id → (g r).pages = (r.side sd).pages) : (x.putSide id sd g u).holding = x.holding := by
  have hq : (x.putSide id sd g u).queue = x.queue := by simp [putSide, modRecord]
  unfold holding
  rw [hq, putSide_track]
  congr 1
  rw [List.flatMap_map]
  refine List.flatMap_congr fun r hr => ?_
  split
  · next hrid =>
    have := h r hr hrid
    cases sd
    · exact congrArg (· ++ r.back.pages) this
    · exact congrArg (r.front.pages ++ ·) this
  · rfl

/-- One record of a track replaced: its pages go and those of the new one come. -/
theorem perm_flatMap_replace {l : List SheetRecord} {r : SheetRecord} (f : SheetRecord → SheetRecord)
    (hn : (l.map (·.id)).Nodup) (hr : r ∈ l) :
    ((l.map fun q => if q.id = r.id then f q else q).flatMap SheetRecord.pages ++ r.pages).Perm
      (l.flatMap SheetRecord.pages ++ (f r).pages) := by
  induction l with
  | nil => cases hr
  | cons q rest ih =>
    rw [List.map_cons, List.nodup_cons] at hn
    rw [List.map_cons, List.flatMap_cons, List.flatMap_cons]
    rcases List.mem_cons.mp hr with rfl | hr
    · have hrest : rest.map (fun q => if q.id = r.id then f q else q) = rest := by
        refine (List.map_congr_left fun q hq => if_neg fun e => ?_).trans (List.map_id' rest)
        exact hn.1 (List.mem_map.mpr ⟨q, hq, e⟩)
      rw [hrest, if_pos rfl, List.perm_iff_count]
      intro a
      simp only [List.count_append]
      omega
    · rw [if_neg fun e => hn.1 (List.mem_map.mpr ⟨r, hr, e.symm⟩), List.append_assoc, List.append_assoc]
      exact List.Perm.append_left _ (ih hn.2 hr)

theorem holding_putSide_grows {r : SheetRecord} {sd : Side} {g : SheetRecord → SideRecord} {u : CaptureUnit} {new : List Nat}
    (p : x.PageLaw) (hr : r ∈ x.track) (h : (g r).pages = (r.side sd).pages ++ new) :
    (x.putSide r.id sd g u).holding.Perm (x.holding ++ new) := by
  have hq : (x.putSide r.id sd g u).queue = x.queue := by simp [putSide, modRecord]
  unfold holding
  rw [hq, putSide_track]
  have h1 := List.perm_iff_count.mp (perm_flatMap_replace (fun q => q.setSide sd (g q)) p.1 hr)
  have h2 := List.perm_iff_count.mp (pages_setSide r sd h)
  rw [List.perm_iff_count]
  intro a
  have h1 := h1 a
  have h2 := h2 a
  simp only [List.count_append] at h1 h2 ⊢
  omega

/-- A side changed without its pages. -/
theorem safe_putSide (x : Transport) {id : Nat} {sd : Side} {g : SheetRecord → SideRecord} {u : CaptureUnit}
    (h : x.PageLaw → x.SideLaw id sd g u) (hp : x.PageLaw → ∀ r ∈ x.track, r.id = id → (g r).pages = (r.side sd).pages) :
    x.Safe [] (x.putSide id sd g u) :=
  (x.lawful_putSide h).safe fun p => by rw [holding_putSide_of_eq (hp p), List.append_nil]

/-! ### Records that leave -/

/-- A change of the track in which every record comes from one of the same id, in its order, and no unit captures for a record that
it did not capture for. -/
structure TrackChange (x y : Transport) : Prop where
  ids : (y.track.map (·.id)).Sublist (x.track.map (·.id))
  came : ∀ q ∈ y.track, ∃ r ∈ x.track, r.id = q.id ∧ (r.verdict.Bounded → q.verdict.Bounded) ∧ (RecordLaw r → RecordLaw q)
  unit : ∀ sd id e, (y.unit sd).activity = .capturing id e → (∃ e', (x.unit sd).activity = .capturing id e') ∧
    ∀ q ∈ y.track, q.id = id → ∃ r ∈ x.track, r.id = id ∧ (q.side sd).capture = (r.side sd).capture
  queue : y.queue = x.queue := by rfl
  nextId : y.nextId = x.nextId := by rfl
  skip : y.pos.skipCount = x.pos.skipCount := by rfl
  pulses : y.marks.pulses.length ≤ x.marks.pulses.length := by exact Nat.le_refl _

theorem TrackChange.safe {ps : List Nat} (h : x.TrackChange y) (hc : x.ControlCore → y.ControlCore)
    (ho : x.ControlCore → x.state = .off → y.state = .off)
    (hp : x.PageLaw → (y.track.flatMap SheetRecord.pages ++ ps).Perm (x.track.flatMap SheetRecord.pages)) : x.Safe ps y where
  bounded b := by
    obtain ⟨b1, b2, b3, b4, b5⟩ := b
    have hlen := h.ids.length_le
    simp only [List.length_map] at hlen
    refine ⟨hlen.trans b1, h.queue ▸ b2, h.pulses.trans b3, h.skip ▸ b4, fun q hq => ?_⟩
    obtain ⟨r, hr, -, hv, -⟩ := h.came q hq
    exact hv (b5 r hr)
  control := hc
  off := ho
  pageLaw p := by
    refine pageLaw_of (h.ids.nodup p.1) (fun q hq => ?_) (fun q hq => ?_) fun sd id e he => ?_
    · obtain ⟨r, hr, hid, -⟩ := h.came q hq
      rw [h.nextId, ← hid]; exact p.2.1 r hr
    · obtain ⟨r, hr, -, -, hl⟩ := h.came q hq
      exact hl (p.recordLaw hr)
    · obtain ⟨⟨e', he'⟩, hcap⟩ := h.unit sd id e he
      obtain ⟨hlt, hcap'⟩ := p.linked sd id e' he'
      refine ⟨h.nextId ▸ hlt, fun q hq hqid => ?_⟩
      obtain ⟨r, hr, hrid, hc⟩ := hcap q hq hqid
      rw [hc]; exact hcap' r hr hrid
  holding p := by
    unfold holding
    rw [h.queue, List.append_assoc]
    refine (List.Perm.append_left _ List.perm_append_comm).trans ?_
    rw [← List.append_assoc]
    exact (hp p).append_right _

/-- Records that leave the track, the others staying as they are. -/
theorem trackChange_of_sublist (hl : y.track.Sublist x.track) (hq : y.queue = x.queue) (hn : y.nextId = x.nextId)
    (hs : y.pos.skipCount = x.pos.skipCount) (hm : y.marks.pulses.length ≤ x.marks.pulses.length)
    (hu : ∀ sd id e, (y.unit sd).activity = .capturing id e → ∃ e', (x.unit sd).activity = .capturing id e') :
    x.TrackChange y where
  ids := hl.map _
  came q hq := ⟨q, hl.subset hq, rfl, id, id⟩
  unit sd id e he := ⟨hu sd id e he, fun q hq hid => ⟨q, hl.subset hq, hid, rfl⟩⟩
  queue := hq
  nextId := hn
  skip := hs
  pulses := hm

/-- The pages of a list split by a test. -/
theorem perm_flatMap_filter (l : List SheetRecord) (t : SheetRecord → Bool) :
    ((l.filter t).flatMap SheetRecord.pages ++ (l.filter fun r => !t r).flatMap SheetRecord.pages).Perm
      (l.flatMap SheetRecord.pages) := by
  rw [← List.flatMap_append]
  exact List.Perm.flatMap_right _ (List.filter_append_perm t l)

/-- With distinct ids, the records that a removal by id takes away are the one record. -/
theorem filter_id_eq {l : List SheetRecord} (hn : (l.map (·.id)).Nodup) {r : SheetRecord} (hr : r ∈ l) :
    (l.filter fun q => !(q.id != r.id)) = [r] := by
  induction l with
  | nil => cases hr
  | cons q rest ih =>
    rw [List.map_cons, List.nodup_cons] at hn
    rcases List.mem_cons.mp hr with rfl | hr
    · rw [List.filter_cons_of_pos (by simp)]
      congr 1
      refine List.filter_eq_nil_iff.mpr fun q hq => ?_
      have : q.id ≠ r.id := fun e => hn.1 (List.mem_map.mpr ⟨q, hq, e⟩)
      simp [this]
    · rw [List.filter_cons_of_neg (by
        have : q.id ≠ r.id := fun e => hn.1 (List.mem_map.mpr ⟨r, hr, e.symm⟩)
        simp [this])]
      exact ih hn.2 hr

theorem perm_pages_remove (p : x.PageLaw) {r : SheetRecord} (hr : r ∈ x.track) :
    ((x.track.filter fun q => q.id != r.id).flatMap SheetRecord.pages ++ r.pages).Perm (x.track.flatMap SheetRecord.pages) := by
  have h := perm_flatMap_filter x.track fun q => q.id != r.id
  rw [filter_id_eq p.1 hr] at h
  simpa using h

end Transport
end Sys2Proof.Machine
end

/-! PROOFS. The transport's part of stops, pick misses, rulings, settlements and entries: which pages each of them gives up. -/

section

namespace Sys2Proof.Machine

/-! ### Sides discarded -/

theorem SideRecord.discarded_imageless (x : SideRecord) : x.discarded.imageless := by
  unfold discarded
  split
  · next h => exact .inl h
  · exact .inr rfl

theorem SideRecord.discarded_pages {x : SideRecord} (h : x.empty) : x.discarded.pages = [] := by
  unfold discarded
  split
  · next hc => exact h (.inl hc)
  · rfl

namespace SheetRecord

variable {r : SheetRecord}

theorem side_discardSides (r : SheetRecord) (sd : Side) : r.discardSides.side sd = (r.side sd).discarded := by
  cases sd <;> rfl

theorem discardSides_pages (h : Transport.RecordLaw r) : r.discardSides.pages = [] := by
  unfold pages discardSides
  rw [SideRecord.discarded_pages h.1, SideRecord.discarded_pages h.2.1]
  rfl

theorem recordLaw_discardSides (h : Transport.RecordLaw r) : Transport.RecordLaw r.discardSides :=
  ⟨fun _ => SideRecord.discarded_pages h.1, fun _ => SideRecord.discarded_pages h.2.1,
    fun _ => ⟨SideRecord.discarded_imageless _, SideRecord.discarded_imageless _⟩⟩

/-- A record that a stop keeps is the disarmed record, with its sides discarded where it gives up its pages (R42). -/
theorem sorted_eq_some {q : SheetRecord} (h : r.sorted = some q) :
    q.id = r.id ∧ (r.givesUp = true ∧ q = { r.disarm.discardSides with life := .withdrawn } ∨
      r.givesUp = false ∧ q = r.disarm) := by
  unfold sorted at h
  split at h
  · cases h
  all_goals cases h; simp_all [givesUp]
  · rfl
  all_goals rfl

end SheetRecord

namespace Transport

variable {x y : Transport}

/-! ### Captures ended -/

theorem endFor_activity {u : CaptureUnit} {id i : Nat} {e : Bool} (h : (u.endFor id).activity = .capturing i e) :
    u.activity = .capturing i e ∧ i ≠ id := by
  unfold CaptureUnit.endFor at h
  split at h
  · next hidle => rw [hidle] at h; cases h
  · next j e' hcap =>
    split at h
    · cases h
    · next hne =>
      rw [hcap] at h
      cases h
      exact ⟨hcap, hne⟩

theorem endCaptures_activity {id i : Nat} {e : Bool} {sd : Side} (h : ((x.endCaptures id).unit sd).activity = .capturing i e) :
    (x.unit sd).activity = .capturing i e ∧ i ≠ id := by
  cases sd <;> exact endFor_activity h

/-- Captures ended for the records of a list leave all but the units. -/
theorem foldl_endCaptures_eq (x : Transport) (l : List SheetRecord) :
    ∃ f b, l.foldl (fun y r => y.endCaptures r.id) x = { x with front := f, back := b } := by
  induction l generalizing x with
  | nil => exact ⟨x.front, x.back, rfl⟩
  | cons r rest ih =>
    obtain ⟨f, b, h⟩ := ih (x.endCaptures r.id)
    exact ⟨f, b, h⟩

theorem foldl_endCaptures_activity {l : List SheetRecord} {i : Nat} {e : Bool} {sd : Side}
    (h : ((l.foldl (fun y r => y.endCaptures r.id) x).unit sd).activity = .capturing i e) :
    (x.unit sd).activity = .capturing i e ∧ ∀ r ∈ l, r.id ≠ i := by
  induction l generalizing x with
  | nil => exact ⟨h, fun _ hr => by cases hr⟩
  | cons r rest ih =>
    obtain ⟨hx, hrest⟩ := ih h
    obtain ⟨hx, hne⟩ := endCaptures_activity hx
    refine ⟨hx, fun q hq => ?_⟩
    rcases List.mem_cons.mp hq with rfl | hq
    · exact hne.symm
    · exact hrest q hq

/-! ### Stops -/

theorem ids_filterMap_sorted (l : List SheetRecord) :
    ((l.filterMap SheetRecord.sorted).map (·.id)).Sublist (l.map (·.id)) := by
  induction l with
  | nil => exact .slnil
  | cons r rest ih =>
    cases h : r.sorted with
    | none => rw [List.filterMap_cons_none h]; exact ih.cons _
    | some q =>
      rw [List.filterMap_cons_some h, List.map_cons, List.map_cons, (SheetRecord.sorted_eq_some h).1]
      exact ih.cons_cons _

theorem perm_pages_sorted {l : List SheetRecord} (h : ∀ r ∈ l, RecordLaw r) :
    ((l.filterMap SheetRecord.sorted).flatMap SheetRecord.pages ++ (l.filter SheetRecord.givesUp).flatMap SheetRecord.pages).Perm
      (l.flatMap SheetRecord.pages) := by
  induction l with
  | nil => exact .nil
  | cons r rest ih =>
    have ih := ih fun q hq => h q (List.mem_cons_of_mem _ hq)
    cases hs : r.sorted with
    | none =>
      have hg : r.givesUp = true := by
        unfold SheetRecord.sorted at hs
        split at hs <;> simp_all [SheetRecord.givesUp]
      rw [List.filterMap_cons_none hs, List.filter_cons_of_pos hg, List.flatMap_cons, List.flatMap_cons]
      rw [List.perm_iff_count] at ih ⊢
      intro a
      have := ih a
      simp only [List.count_append] at this ⊢
      omega
    | some q =>
      rw [List.filterMap_cons_some hs, List.flatMap_cons, List.flatMap_cons]
      obtain ⟨-, ⟨hg, rfl⟩ | ⟨hg, rfl⟩⟩ := SheetRecord.sorted_eq_some hs
      · have hq : SheetRecord.pages { r.disarm.discardSides with life := .withdrawn } = [] :=
          SheetRecord.discardSides_pages (RecordLaw.mild (h r (List.mem_cons_self ..)) r.mild_disarm)
        rw [List.filter_cons_of_pos hg, hq, List.flatMap_cons]
        rw [List.perm_iff_count] at ih ⊢
        intro a
        have := ih a
        simp only [List.count_append, List.nil_append] at this ⊢
        omega
      · rw [List.filter_cons_of_neg (by simp [hg]), r.mild_disarm.recordPages, List.append_assoc]
        exact List.Perm.append_left _ ih

/-- What a stop leaves of its transport, the unit's activities aside (R41, R42). -/
theorem stopped_eq (x : Transport) (reason : StopReason) : ∃ d f b,
    x.stopped reason = { x with
      state := .held, stopReason := reason, pickWait := .none, coverWait := false, runOn := none, retries := 0,
      runInEnd := .idle, track := x.track.filterMap SheetRecord.sorted, marks := {}, dfu := d, motor := .standing,
      clutch := false, runOffTimer := none, pos := { x.pos with stallTimer := none }, front := f, back := b } ∧
    d.reference = x.dfu.reference ∧ d.run = .none := by
  obtain ⟨f, b, h⟩ := foldl_endCaptures_eq x.motorOff (x.track.filter (·.givesUp))
  have hd : x.motorOff.dfu.reference = x.dfu.reference := by
    unfold motorOff abandonRunIn; split <;> rfl
  obtain ⟨a, d, hm⟩ := x.motorOff_eq
  rw [hm] at hd
  refine ⟨{ d with run := .none }, f, b, ?_, hd, rfl⟩
  unfold stopped
  rw [h, hm]

theorem stopped_activity {reason : StopReason} {sd : Side} {i : Nat} {e : Bool}
    (h : ((x.stopped reason).unit sd).activity = .capturing i e) :
    (x.unit sd).activity = .capturing i e ∧ ∀ r ∈ x.track, r.givesUp = true → r.id ≠ i := by
  have h' : (((x.track.filter (·.givesUp)).foldl (fun y r => y.endCaptures r.id) x.motorOff).unit sd).activity =
      .capturing i e := by cases sd <;> exact h
  obtain ⟨hx, hne⟩ := foldl_endCaptures_activity h'
  have hunit : x.motorOff.unit sd = x.unit sd := by
    obtain ⟨a, d, hm⟩ := x.motorOff_eq
    rw [hm]; cases sd <;> rfl
  exact ⟨hunit ▸ hx, fun r hr hg => hne r (List.mem_filter.mpr ⟨hr, hg⟩)⟩

/-- A stop gives up the pages of the PICKED and the IN_PATH records (R42). -/
theorem safe_stopped (x : Transport) {reason : StopReason} (ha : x.isActive = true) (hr : reason ≠ .none) :
    x.Safe ((x.track.filter (·.givesUp)).flatMap SheetRecord.pages) (x.stopped reason) := by
  have hact : ∀ sd id e, ((x.stopped reason).unit sd).activity = .capturing id e →
      (x.unit sd).activity = .capturing id e ∧ ∀ r ∈ x.track, r.givesUp = true → r.id ≠ id := fun _ _ _ => stopped_activity
  obtain ⟨d, f, b, hy, -, -⟩ := x.stopped_eq reason
  rw [hy] at hact ⊢
  refine TrackChange.safe {
    ids := ids_filterMap_sorted x.track
    came := fun q hq => ?_
    unit := fun sd id e he => ⟨⟨e, (hact sd id e he).1⟩, fun q hq hid => ?_⟩
    pulses := Nat.zero_le _ } (fun c => ?_) (fun _ e => ?_) fun p => perm_pages_sorted fun r hr => p.recordLaw hr
  · obtain ⟨r, hr, hs⟩ := List.mem_filterMap.mp hq
    obtain ⟨hid, ⟨-, rfl⟩ | ⟨-, rfl⟩⟩ := SheetRecord.sorted_eq_some hs
    · refine ⟨r, hr, hid.symm, fun h => h, fun h => ?_⟩
      obtain ⟨h1, h2, -⟩ := SheetRecord.recordLaw_discardSides (h.mild r.mild_disarm)
      exact ⟨h1, h2, fun _ => ⟨SideRecord.discarded_imageless _, SideRecord.discarded_imageless _⟩⟩
    · exact ⟨r, hr, hid.symm, fun h => h, fun h => h.mild r.mild_disarm⟩
  · obtain ⟨r, hr, hs⟩ := List.mem_filterMap.mp hq
    obtain ⟨hid', ⟨hg, -⟩ | ⟨-, rfl⟩⟩ := SheetRecord.sorted_eq_some hs
    · exact absurd (hid'.symm.trans hid) ((hact sd id e he).2 r hr hg)
    · exact ⟨r, hr, hid'.symm.trans hid, r.mild_disarm.capture sd⟩
  · obtain ⟨c1, c2, c3, c4, c5, c6, c7, c8⟩ := c
    constructor <;> simp_all
  · simp [isActive, e] at ha

/-! ### Records removed -/

theorem safe_pickMissed (x : Transport) {r : SheetRecord} (hr : r ∈ x.track) (n : Nat) :
    x.Safe r.pages { x with track := x.track.filter fun q => q.id != r.id, clutch := false, retries := n } := by
  have h : x.TrackChange { x with track := x.track.filter fun q => q.id != r.id, clutch := false, retries := n } :=
    trackChange_of_sublist List.filter_sublist rfl rfl rfl (Nat.le_refl _) fun _ _ e h => ⟨e, h⟩
  refine h.safe (fun c => ?_) (fun _ e => e) fun p => perm_pages_remove p hr
  obtain ⟨c1, c2, c3, c4, c5, c6, c7, c8⟩ := c
  constructor <;> simp_all

theorem safe_refeed (x : Transport) {r : SheetRecord} (hr : r ∈ x.track) : x.Safe r.pages (x.refeed r) := by
  have h : x.TrackChange (x.refeed r) :=
    trackChange_of_sublist List.filter_sublist rfl rfl rfl (Nat.le_refl _) fun sd id e h => ⟨e, by
      cases sd
      · exact (endFor_activity (u := x.front) h).1
      · exact (endFor_activity (u := x.back) h).1⟩
  exact h.safe (SameControl.core {}) (fun _ e => e) fun p => perm_pages_remove p hr

/-- A WITHDRAWN record holds no page (R59). -/
theorem RecordLaw.pages_of_withdrawn {r : SheetRecord} (h : RecordLaw r) (hw : r.life = .withdrawn) : r.pages = [] := by
  obtain ⟨hf, hb, hi⟩ := h
  obtain ⟨hif, hib⟩ := hi hw
  unfold SheetRecord.pages
  rw [hf hif, hb hib]
  rfl

theorem safe_removeWithdrawn (x : Transport) : x.Safe [] x.removeWithdrawn := by
  have hc : x.TrackChange x.removeWithdrawn :=
    trackChange_of_sublist List.filter_sublist rfl rfl rfl (Nat.le_refl _) fun _ _ e h => ⟨e, h⟩
  refine hc.safe (SameControl.core {}) (fun _ e => e) fun p => ?_
  have h := perm_flatMap_filter x.track fun r => r.life != .withdrawn
  have hnil : (x.track.filter fun r => !(r.life != .withdrawn)).flatMap SheetRecord.pages = [] := by
    refine List.flatMap_eq_nil_iff.mpr fun r hr => ?_
    obtain ⟨hmem, hw⟩ := List.mem_filter.mp hr
    exact (p.recordLaw hmem).pages_of_withdrawn (by simpa using hw)
  rwa [hnil] at h

theorem safe_release (x : Transport) (m : RulingMark) (r : SheetRecord) : x.Safe [] (x.release m r) :=
  (x.safe_modRecord_mild r.id (f := fun q => { q with life := .done, ruling := m }) fun _ =>
    { life := fun e => by cases e }).trans_nil (safe_batch _ _)

/-- The offender DONE with its sides discarded gives up its pages (R152). -/
theorem safe_discardOffender (x : Transport) {r : SheetRecord} (hr : r ∈ x.track) : x.Safe r.pages (x.discardOffender r) := by
  have hid : ∀ q : SheetRecord, (if q.id = r.id then { q.discardSides with life := .done, discardMark := true } else q).id = q.id :=
    fun q => by split <;> rfl
  have htrack : (x.discardOffender r).track = x.track.map fun q =>
      if q.id = r.id then { q.discardSides with life := .done, discardMark := true } else q := rfl
  refine TrackChange.safe {
    ids := ?_
    came := fun q hq => ?_
    unit := fun sd i e he => ?_ } (SameControl.core {}) (fun _ e => e) fun p => ?_
  · simp only [htrack, List.map_map, Function.comp_def, hid]
    exact List.Sublist.refl _
  · obtain ⟨w, hw, rfl⟩ := List.mem_map.mp (htrack ▸ hq)
    refine ⟨w, hw, (hid w).symm, fun h => ?_, fun h => ?_⟩
    · split <;> exact h
    · split
      · exact ⟨(SheetRecord.recordLaw_discardSides h).1, (SheetRecord.recordLaw_discardSides h).2.1, fun e => by cases e⟩
      · exact h
  · have he' : (x.unit sd).activity = .capturing i e ∧ i ≠ r.id := by
      cases sd
      · exact endFor_activity (u := x.front) he
      · exact endFor_activity (u := x.back) he
    refine ⟨⟨e, he'.1⟩, fun q hq hqid => ?_⟩
    obtain ⟨w, hw, rfl⟩ := List.mem_map.mp (htrack ▸ hq)
    rw [hid] at hqid
    refine ⟨w, hw, hqid, ?_⟩
    rw [if_neg (hqid ▸ he'.2)]
  · have h := perm_flatMap_replace (fun q => { q.discardSides with life := .done, discardMark := true }) p.1 hr
    have hnil : SheetRecord.pages { r.discardSides with life := .done, discardMark := true } = [] :=
      SheetRecord.discardSides_pages (p.recordLaw hr)
    rwa [hnil, List.append_nil] at h

/-! ### Settlement -/

/-- The pages of the pieces made of a side and those it returns are the pages it holds (R124, R128). -/
theorem perm_sidePages (p : Profile) (w : Nat) (routes : List RouteEntry) (unused : LaneNo → Bool) (r : SheetRecord)
    (st : Standing) (sd : Side) (omitted : Bool) (hs : (r.side sd).settled = true) (he : (r.side sd).empty) :
    let r1 := if omitted then r.discardSides else r
    let f := sideFate p routes unused r1 st sd
    ((imagePiece p w r1 sd f).flatMap fun q => if q.written then [] else q.image.elim [] (·.pages)) ++
      (sideReturn omitted (r.side sd) f).1 = (r.side sd).pages := by
  dsimp only
  cases omitted with
  | true =>
    have hf : sideFate p routes unused r.discardSides st sd = none := by
      have : (r.discardSides.side sd).imageless := by
        rw [SheetRecord.side_discardSides]; exact SideRecord.discarded_imageless _
      unfold sideFate
      rcases this with h | h <;> rw [h] <;> rfl
    simp [hf, imagePiece, sideReturn]
  | false =>
    by_cases hc : (r.side sd).capture = .complete
    · simp only [Bool.false_eq_true, if_false, sideFate, hc, if_true]
      cases routeSide p routes unused r st sd <;> simp [imagePiece, sideReturn]
    · have hempty : (r.side sd).pages = [] := by
        refine he ?_
        cases h : (r.side sd).capture <;> simp_all [SideRecord.settled]
      simp [sideFate, hc, imagePiece, sideReturn, hempty]

/-- A placeholder holds no page. -/
theorem pages_orPlaceholder (l : List Piece) (st : Standing) (account : LaneNo) (blank : Bool) :
    ((if l = [] then [placeholder st account blank] else l).flatMap fun q =>
      if q.written then [] else q.image.elim [] (·.pages)) =
      l.flatMap fun q => if q.written then [] else q.image.elim [] (·.pages) := by
  split
  · next h => rw [h]; rfl
  · rfl

theorem settleRecord_pages (x : Transport) (unused : LaneNo → Bool) {r : SheetRecord} (hf : r.front.settled = true)
    (hb : r.back.settled = true) (hfe : r.front.empty) (hbe : r.back.empty) :
    ∃ e, (x.settleRecord unused r).transport.queue = x.queue ++ [e] ∧
      (e.pages ++ (x.settleRecord unused r).front.1 ++ (x.settleRecord unused r).back.1).Perm r.pages := by
  refine ⟨_, rfl, ?_⟩
  have h := fun sd => perm_sidePages (x.profileOf r.selector) x.cfg.width (x.batch.snapshot.elim [] (·.routes)) unused r
    (standingOf r) sd (kindOf x.batch r == .omitted)
  have h1 := h .front hf hfe
  have h2 := h .back hb hbe
  simp only [beq_iff_eq] at h1 h2
  simp only [SheetRecord.pages]
  rw [show r.front.pages = _ from h1.symm, show r.back.pages = _ from h2.symm]
  unfold settleRecord elementOf Element.pages
  dsimp only
  rw [pages_orPlaceholder, List.perm_iff_count]
  intro a
  simp only [List.flatMap_append, List.count_append]
  simp only [SheetRecord.side]
  omega

/-- A settlement moves the head's pages to its pieces and gives up the others (R64, R124). -/
theorem safe_settleRecord (x : Transport) (unused : LaneNo → Bool) {r : SheetRecord} {rest : List SheetRecord}
    (ht : x.track = r :: rest) (hcan : x.canSettle r = true) :
    x.Safe ((x.settleRecord unused r).front.1 ++ (x.settleRecord unused r).back.1) (x.settleRecord unused r).transport := by
  simp only [canSettle, Bool.and_eq_true, decide_eq_true_eq] at hcan
  obtain ⟨⟨⟨-, hf⟩, hb⟩, hlen⟩ := hcan
  have hsub : rest.Sublist x.track := by rw [ht]; exact List.sublist_cons_self ..
  have htail : (x.settleRecord unused r).transport.track = rest := by
    show x.track.tail = rest
    rw [ht]; rfl
  refine ⟨fun b => ?_, SameControl.core {}, fun _ e => e, fun p => ?_, fun p => ?_⟩
  · obtain ⟨b1, b2, b3, b4, b5⟩ := b
    refine ⟨?_, ?_, b3, b4, fun q hq => b5 q (hsub.subset (htail ▸ hq))⟩
    · rw [htail]; exact hsub.length_le.trans b1
    · show (x.queue ++ [_]).length ≤ 32
      simpa using hlen
  · refine pageLaw_of ?_ (fun q hq => p.2.1 q (hsub.subset (htail ▸ hq)))
      (fun q hq => p.recordLaw (hsub.subset (htail ▸ hq))) fun sd id e he => ?_
    · rw [htail]; exact (hsub.map _).nodup p.1
    · obtain ⟨hlt, hcap⟩ := p.linked sd id e (by cases sd <;> exact he)
      exact ⟨hlt, fun q hq => hcap q (hsub.subset (htail ▸ hq))⟩
  · have hlaw := p.recordLaw (r := r) (by rw [ht]; exact List.mem_cons_self ..)
    obtain ⟨e, hq, hperm⟩ := x.settleRecord_pages unused hf hb hlaw.1 hlaw.2.1
    unfold holding
    rw [hq, htail, ht, List.perm_iff_count]
    intro a
    have := List.perm_iff_count.mp hperm a
    simp only [List.flatMap_append, List.flatMap_cons, List.flatMap_nil, List.count_append, List.append_nil] at this ⊢
    omega

/-! ### Entries -/

theorem perm_pages_advance (d : Nat) {l : List Piece} {p : Piece} (h : l.find? (fun p => !p.written) = some p) :
    (((modFirstUnwritten (·.advance d) l).flatMap fun q => if q.written then [] else q.image.elim [] (·.pages)) ++
      (if p.total ≤ p.progress + d then p.image.elim [] (·.pages) else [])).Perm
      (l.flatMap fun q => if q.written then [] else q.image.elim [] (·.pages)) := by
  induction l with
  | nil => cases h
  | cons q rest ih =>
    unfold modFirstUnwritten
    by_cases hw : q.written = true
    · rw [List.find?_cons_of_neg (by simp [hw])] at h
      simpa [hw] using ih h
    · rw [List.find?_cons_of_pos (by simp [hw])] at h
      cases h
      simp only [hw, Bool.false_eq_true, if_false, List.flatMap_cons]
      by_cases htot : p.total ≤ p.progress + d
      · simp only [Piece.advance, htot, decide_true, if_true, List.nil_append]
        exact List.perm_append_comm
      · simp [Piece.advance, htot]

/-- The queue after the head piece's entry of d data bytes gives up the pages of a piece that is then written (R129). -/
theorem safe_advanceQueue (x : Transport) (d : Nat) {e : Element} {p : Piece} (h : x.headPiece = some (e, p)) :
    x.Safe (if p.total ≤ p.progress + d then p.image.elim [] (·.pages) else [])
      { x with queue := advanceQueue d x.queue } := by
  unfold headPiece at h
  split at h
  · cases h
  · next e' rest hq =>
    obtain ⟨p', hfind, heq⟩ := Option.map_eq_some_iff.mp h
    cases heq
    have hperm := perm_pages_advance d hfind
    have hpages : ((advanceQueue d x.queue).flatMap Element.pages ++
        (if p.total ≤ p.progress + d then p.image.elim [] (·.pages) else [])).Perm (x.queue.flatMap Element.pages) := by
      rw [hq]
      unfold advanceQueue
      dsimp only
      rw [List.flatMap_cons]
      split
      · next hall =>
        have hnil : ((modFirstUnwritten (·.advance d) e.pieces).flatMap fun q =>
            if q.written then [] else q.image.elim [] (·.pages)) = [] := by
          refine List.flatMap_eq_nil_iff.mpr fun q hq' => ?_
          rw [if_pos (List.all_eq_true.mp hall q hq')]
        rw [hnil, List.nil_append] at hperm
        exact List.perm_append_comm.trans (hperm.append_right _)
      · rw [List.flatMap_cons, List.append_assoc]
        refine (List.Perm.append_left _ List.perm_append_comm).trans ?_
        rw [← List.append_assoc]
        exact hperm.append_right _
    have hlen : (advanceQueue d x.queue).length ≤ x.queue.length := by
      rw [hq]; unfold advanceQueue; dsimp only; split <;> simp
    refine ⟨fun b => ?_, SameControl.core {}, fun _ e => e, fun p => p, fun _ => ?_⟩
    · obtain ⟨b1, b2, b3, b4, b5⟩ := b
      exact ⟨b1, hlen.trans b2, b3, b4, b5⟩
    · unfold holding
      rw [List.append_assoc]
      exact List.Perm.append_left _ hpages

end Transport
end Sys2Proof.Machine
end

/-! PROOFS. Changes of the whole state that keep the bounds, the control laws and the law of the pages, with the pages that are on
their way back to the store. -/

section

namespace Sys2Proof.Machine

namespace State

variable {s u v : State} {l m k ps : List Nat} {t : TransportNo} {sd : Side}

/-- The laws of the control states but for the pick-wait reason, which the end of each step works out afresh. -/
structure ControlKernel (s : State) : Prop where
  core : ∀ t, (s.tr t).ControlCore
  setup : ∀ t n, s.room.setupRead = some (t, n) → (s.tr t).state = .off

/-- A pick-wait reason stands in RUNNING only (R35). -/
def WaitLaw (s : State) : Prop := ∀ t, (s.tr t).state ≠ .running → (s.tr t).pickWait = .none

theorem state_controlLaw_iff : s.ControlLaw ↔ s.ControlKernel ∧ s.WaitLaw := by
  constructor
  · exact fun h => ⟨⟨fun t => (Transport.controlLaw_iff.mp (h.1 t)).1, h.2⟩, fun t => (Transport.controlLaw_iff.mp (h.1 t)).2⟩
  · exact fun h => ⟨fun t => Transport.controlLaw_iff.mpr ⟨h.1.core t, h.2 t⟩, h.1.setup⟩

/-- The law of the hold store, with pages on their way back that are neither free nor held. -/
structure PageLawWith (l : List Nat) (s : State) : Prop where
  pool : (s.hold.free ++ s.holding ++ l).Perm (List.range s.hold.total)
  reserved : s.hold.reserved ≤ s.hold.free.length
  records : ∀ t, (s.tr t).PageLaw

theorem pageLaw_iff : s.PageLaw ↔ s.PageLawWith [] := by
  constructor
  · rintro ⟨h1, h2, h3⟩
    exact ⟨by rwa [List.append_nil], h2, h3⟩
  · rintro ⟨h1, h2, h3⟩
    exact ⟨by rwa [List.append_nil] at h1, h2, h3⟩

/-- A change that keeps the bounds and the laws, with the pages l on their way back before it and m after it. -/
structure Safe (s : State) (l : List Nat) (u : State) (m : List Nat) : Prop where
  dram : u.hold.dram = s.hold.dram
  bounded : s.Bounded → u.Bounded
  control : s.ControlKernel → u.ControlKernel
  pages : s.PageLawWith l → u.PageLawWith m

theorem Safe.refl (s : State) (l : List Nat) : s.Safe l s l := ⟨rfl, id, id, id⟩

theorem Safe.trans (h : s.Safe l u m) (g : u.Safe m v k) : s.Safe l v k :=
  ⟨g.dram.trans h.dram, fun b => g.bounded (h.bounded b), fun c => g.control (h.control c), fun p => g.pages (h.pages p)⟩

theorem Safe.ite {p : Prop} [Decidable p] (h : s.Safe l u m) (g : s.Safe l v m) : s.Safe l (if p then u else v) m := by
  split
  · exact h
  · exact g

theorem Safe.foldl {α : Type} {f : State → α → State} (h : ∀ (s : State) (a : α), s.Safe l (f s a) l) (s : State) (as : List α) :
    s.Safe l (as.foldl f s) l := by
  induction as generalizing s with
  | nil => exact .refl s l
  | cons a rest ih => exact (h s a).trans (ih _)

/-- A change that keeps the bounds and the control laws, whatever it does to the pages. -/
structure Steady (s u : State) : Prop where
  dram : u.hold.dram = s.hold.dram
  bounded : s.Bounded → u.Bounded
  control : s.ControlKernel → u.ControlKernel

theorem Safe.steady (h : s.Safe l u m) : s.Steady u := ⟨h.dram, h.bounded, h.control⟩

theorem Steady.trans (h : s.Steady u) (g : u.Steady v) : s.Steady v :=
  ⟨g.dram.trans h.dram, fun b => g.bounded (h.bounded b), fun c => g.control (h.control c)⟩

/-- A change that is safe because of the law of the pages. -/
theorem Steady.safe (h : s.Steady u) (hp : s.PageLawWith l → s.Safe l u m) : s.Safe l u m :=
  ⟨h.dram, h.bounded, h.control, fun p => (hp p).pages p⟩

/-- What the other blocks do changes no law: the transports and the pool are as they were. -/
theorem Safe.same (ht : u.transports = s.transports) (hd : u.hold.dram = s.hold.dram) (hf : u.hold.free = s.hold.free)
    (hr : u.hold.reserved = s.hold.reserved) (hs : ∀ x, u.room.setupRead = some x → s.room.setupRead = some x) :
    s.Safe l u l := by
  have htr : ∀ i, u.tr i = s.tr i := fun i => congrArg (fun v : Vector Transport 4 => v[i]) ht
  have hh : u.holding = s.holding := by unfold holding; simp only [htr]
  refine ⟨hd, fun b i => htr i ▸ b i, fun c => ⟨fun i => htr i ▸ c.core i, fun i n e => htr i ▸ c.setup i n (hs _ e)⟩,
    fun p => ⟨?_, ?_, fun i => htr i ▸ p.records i⟩⟩
  · rw [hf, hh, show u.hold.total = s.hold.total from congrArg DramSize.pages hd]; exact p.pool
  · rw [hf, hr]; exact p.reserved

theorem Safe.modLane {n : LaneNo} {f : Lane → Lane} : s.Safe l (s.modLane n f) l := .same rfl rfl rfl rfl fun _ h => h
theorem Safe.setWriter {w : Writer} : s.Safe l (s.setWriter w) l := .same rfl rfl rfl rfl fun _ h => h
theorem Safe.setEvent {e : Event} : s.Safe l (s.setEvent e) l := .same rfl rfl rfl rfl fun _ h => h
theorem Safe.hostWrite {r : BusWrite} {cells : List Host.Cell} : s.Safe l (s.hostWrite r cells) l :=
  .same rfl rfl rfl rfl fun _ h => h
theorem Safe.modRoom {f : RoomInterface → RoomInterface} (h : (f s.room).setupRead = s.room.setupRead) :
    s.Safe l (s.modRoom f) l := .same rfl rfl rfl rfl fun _ e => h ▸ e

/-! ### One transport changed -/

/-- The pages held after a transport is replaced: its own go, those of the new one come. -/
theorem count_holding_setTr (s : State) (t : TransportNo) (y : Transport) (a : Nat) :
    (s.setTr t y).holding.count a + (s.tr t).holding.count a = s.holding.count a + y.holding.count a := by
  unfold holding allTransports
  simp only [List.flatMap_cons, List.flatMap_nil, List.append_nil, List.count_append, tr_setTr]
  fin_cases t <;> simp <;> omega

theorem Safe.setTr {y : Transport} (h : (s.tr t).Safe ps y) : s.Safe l (s.setTr t y) (ps ++ l) where
  dram := rfl
  bounded b i := by
    rw [tr_setTr]
    split
    · next e => subst e; exact h.bounded (b i)
    · exact b i
  control c := by
    refine ⟨fun i => ?_, fun i n e => ?_⟩
    · rw [tr_setTr]
      split
      · next e => subst e; exact h.control (c.core i)
      · exact c.core i
    · have hoff := c.setup i n e
      rw [tr_setTr]
      split
      · next e => subst e; exact h.off (c.core i) hoff
      · exact hoff
  pages p := by
    refine ⟨?_, p.reserved, fun i => ?_⟩
    · refine List.Perm.trans ?_ p.pool
      rw [List.perm_iff_count]
      intro a
      have h1 := s.count_holding_setTr t y a
      have h2 := List.perm_iff_count.mp (h.holding (p.records t)) a
      simp only [List.count_append, setTr_hold] at h1 h2 ⊢
      omega
    · rw [tr_setTr]
      split
      · next e => subst e; exact h.pageLaw (p.records i)
      · exact p.records i

theorem Safe.modTr {f : Transport → Transport} (h : (s.tr t).Safe ps (f (s.tr t))) : s.Safe l (s.modTr t f) (ps ++ l) := .setTr h

theorem Steady.modTr {f : Transport → Transport} (hb : (s.tr t).Bounded → (f (s.tr t)).Bounded)
    (hc : (s.tr t).SameControl (f (s.tr t))) : s.Steady (s.modTr t f) := by
  refine ⟨rfl, fun b i => ?_, fun c => ⟨fun i => ?_, fun i n e => ?_⟩⟩
  · rw [State.modTr, tr_setTr]
    split
    · exact hb (b t)
    · exact b i
  · rw [State.modTr, tr_setTr]
    split
    · exact hc.core (c.core t)
    · exact c.core i
  · have hoff := c.setup i n e
    rw [State.modTr, tr_setTr]
    split
    · next e => subst e; exact hc.state.trans hoff
    · exact hoff

/-- A change of a transport that gives nothing up. -/
theorem Safe.modTr_nil {f : Transport → Transport} (h : (s.tr t).Safe [] (f (s.tr t))) : s.Safe l (s.modTr t f) l := .setTr h

/-! ### The pool -/

/-- A return of pages, with the picks that it serves (R123, R124). -/
theorem Safe.of_pool {n : Nat} (hp : PoolKept ps s u) (hm : ∀ i, (s.tr i).MayPick n (u.tr i))
    (hs : u.room.setupRead = s.room.setupRead) : s.Safe (ps ++ l) u l := by
  have hsafe := fun i => Transport.safe_mayPick _ (hm i)
  refine ⟨hp.dram, fun b i => (hsafe i).bounded (b i),
    fun c => ⟨fun i => (hsafe i).control (c.core i), fun i n e => (hsafe i).off (c.core i) (c.setup i n (hs ▸ e))⟩,
    fun p => ⟨?_, hp.reserved p.reserved, fun i => (hsafe i).pageLaw (p.records i)⟩⟩
  have hh : ∀ a, u.holding.count a = s.holding.count a := fun a => by
    have h := fun i => List.perm_iff_count.mp ((hsafe i).holding (p.records i)) a
    simp only [List.append_nil] at h
    simp only [holding, allTransports, List.flatMap_cons, List.flatMap_nil, List.count_append, h]
  rw [hp.total]
  refine List.Perm.trans ?_ p.pool
  rw [List.perm_iff_count]
  intro a
  have := hh a
  simp only [hp.free, List.count_append] at this ⊢
  omega

theorem setupRead_of_core {r q : RoomInterface} (h : q.core = r.core) : q.setupRead = r.setupRead := by
  have e := congrArg RoomInterface.setupRead h
  exact e

theorem safe_returnPages (s : State) (pages : List Nat) (n : Nat) : s.Safe (pages ++ l) (s.returnPages pages n) l :=
  .of_pool (s.poolKept_returnPages pages n) (s.mayPick_returnPages pages n) (setupRead_of_core (s.quiet_returnPages pages n).room)

theorem safe_returnSides (s : State) (r : SheetRecord) : s.Safe (r.pages ++ l) (s.returnSides r) l :=
  .of_pool (s.poolKept_returnSides r) (s.mayPick_returnSides r) (setupRead_of_core (s.quiet_returnSides r).room)

theorem safe_serveList (s : State) : s.Safe l s.serveList l :=
  .of_pool s.poolKept_serveList s.mayPick_serveList (setupRead_of_core s.quiet_serveList.room)

theorem safe_grant (s : State) (t : TransportNo) {need : Nat} (h : need ≤ s.hold.freePages) (he : (s.tr t).eligible = true) :
    s.Safe l (s.grant t need) l :=
  .of_pool (s.poolKept_grant t h) (fun i => s.mayPick_grant t i need he) (setupRead_of_core (s.quiet_grant t need).room)

/-- A transport changed, and what it gives up returned. -/
theorem Safe.thenReturn {n : Nat} (h : s.Safe l u (ps ++ m)) : s.Safe l (u.returnPages ps n) m := h.trans (u.safe_returnPages ps n)

end State

end Sys2Proof.Machine
end

/-! PROOFS. Lines taken for a captured side: what they leave of the store, of the other transports, of the side and of its unit. -/

section

namespace Sys2Proof.Machine

/-! ### Records and captured sides after a side is put back -/

namespace Transport

variable {x y : Transport} {id : Nat} {sd : Side} {r : SheetRecord}

theorem record_map {f : SheetRecord → SheetRecord} (hf : ∀ q : SheetRecord, (f q).id = q.id) (l : List SheetRecord) (i : Nat) :
    (l.map f).find? (fun q => q.id == i) = (l.find? fun q => q.id == i).map f := by
  rw [List.find?_map]
  simp only [Function.comp_def, hf]

theorem record_putSide {g : SheetRecord → SideRecord} {u : CaptureUnit} (h : x.record id = some r) :
    (x.putSide id sd g u).record id = some (r.setSide sd (g r)) := by
  unfold record at h ⊢
  rw [putSide_track, record_map (fun q => by split <;> simp), h, Option.map_some, if_pos (mem_of_record h).2]

theorem unit_putSide_self (x : Transport) (id : Nat) (sd : Side) (g : SheetRecord → SideRecord) (u : CaptureUnit) :
    (x.putSide id sd g u).unit sd = u := unit_setUnit_self _ sd u

/-- A side put back twice is put back once. -/
theorem putSide_putSide (x : Transport) (id : Nat) (sd : Side) (g : SheetRecord → SideRecord) (z' : SideRecord) (u u' : CaptureUnit) :
    (x.putSide id sd g u).putSide id sd (fun _ => z') u' = x.putSide id sd (fun _ => z') u' := by
  have h : ∀ r : SheetRecord, (if (if r.id = id then r.setSide sd (g r) else r).id = id then
      (if r.id = id then r.setSide sd (g r) else r).setSide sd z' else (if r.id = id then r.setSide sd (g r) else r)) =
      if r.id = id then r.setSide sd z' else r := fun r => by
    by_cases hr : r.id = id <;> cases sd <;> simp [hr, SheetRecord.setSide]
  have hm : ((x.putSide id sd g u).putSide id sd (fun _ => z') u').track = (x.putSide id sd (fun _ => z') u').track := by
    rw [putSide_track, putSide_track, putSide_track, List.map_map]
    exact List.map_congr_left fun r _ => h r
  cases sd <;> simp only [putSide, setUnit, modRecord] at hm ⊢ <;> simp only [hm]

/-- The transport but for the records' sides and the units. -/
theorem putSide_eq (x : Transport) (id : Nat) (sd : Side) (g : SheetRecord → SideRecord) (u : CaptureUnit) :
    ∃ f b, x.putSide id sd g u =
      { x with track := x.track.map fun r => if r.id = id then r.setSide sd (g r) else r, front := f, back := b } := by
  cases sd
  · exact ⟨u, x.back, rfl⟩
  · exact ⟨x.front, u, rfl⟩

@[simp] theorem cfg_putSide (x : Transport) (g : SheetRecord → SideRecord) (u : CaptureUnit) :
    (x.putSide id sd g u).cfg = x.cfg := by cases sd <;> rfl
@[simp] theorem profileOf_putSide (x : Transport) (g : SheetRecord → SideRecord) (u : CaptureUnit) (sel : Selector) :
    (x.putSide id sd g u).profileOf sel = x.profileOf sel := by cases sd <;> rfl

theorem capturedRecord_eq {e : Bool} (h : (x.unit sd).activity = .capturing id e) : x.capturedRecord sd = x.record id := by
  unfold capturedRecord; rw [h]

theorem capturedRecord_some (h : x.capturedRecord sd = some r) :
    r ∈ x.track ∧ x.record r.id = some r ∧ ∃ e, (x.unit sd).activity = .capturing r.id e := by
  unfold capturedRecord at h
  split at h
  · cases h
  · next i e he =>
    obtain ⟨hm, hid⟩ := mem_of_record h
    subst hid
    exact ⟨hm, h, e, he⟩

theorem PageLaw.captured (p : x.PageLaw) {e : Bool} (hr : r ∈ x.track) (h : (x.unit sd).activity = .capturing r.id e) :
    x.capturedRecord sd = some r := by rw [capturedRecord_eq h, p.record_eq hr]

theorem PageLaw.capturing (p : x.PageLaw) (h : x.capturedRecord sd = some r) : (r.side sd).capture = .capturing := by
  obtain ⟨hr, -, e, he⟩ := capturedRecord_some h
  exact (p.linked sd _ e he).2 r hr rfl

end Transport

/-! ### A line stored -/

namespace State

variable {s u v : State} {t : TransportNo} {sd : Side} {r : SheetRecord} {z z' : SideRecord} {w w' : CaptureUnit} {n m : Nat}

/-- What is stored touches the pool's free pages and reservation total, the mark's condition and EVT.SPACE alone, and of the side
its image, its pages, its reservation and the mark CLIPPED (R120). -/
structure Stores (s : State) (x : SideRecord) (u : State) (z : SideRecord) : Prop where
  transports : u.transports = s.transports
  outside : s.OutsideKept u
  dram : u.hold.dram = s.hold.dram
  waiting : u.hold.waiting = s.hold.waiting
  reserved : s.hold.reserved ≤ s.hold.free.length → u.hold.reserved ≤ u.hold.free.length
  pages : ∃ new, z.pages = x.pages ++ new ∧ s.hold.free = new ++ u.hold.free
  side : z = { x with image := z.image, pages := z.pages, reserve := z.reserve, clipped := z.clipped }

theorem stores_storeLine (s : State) (x : SideRecord) (line : List Byte) : s.Stores x (s.storeLine x line).1 (s.storeLine x line).2 := by
  have idle : ∀ q : SideRecord, q.pages = x.pages →
      q = { x with image := q.image, pages := q.pages, reserve := q.reserve, clipped := q.clipped } → s.Stores x s q :=
    fun q hp hq => ⟨rfl, .refl s, rfl, rfl, id, ⟨[], by simp [hp], rfl⟩, hq⟩
  unfold storeLine
  split
  · exact idle _ rfl rfl
  · split
    · exact idle _ rfl rfl
    · split
      · exact idle _ rfl rfl
      · next page rest hfree =>
        split
        · refine ⟨rfl, .setHold, rfl, rfl, fun h => ?_, ⟨[page], rfl, hfree⟩, rfl⟩
          rw [hfree] at h
          simp only [setHold_hold, List.length_cons] at h ⊢
          omega
        · split
          · next hpos =>
            refine ⟨by simp, OutsideKept.setHold.trans (outside_refreshMark _), by rw [refreshMark_hold]; rfl,
              by rw [refreshMark_hold]; rfl, fun h => ?_, ⟨[page], rfl, by rw [refreshMark_hold]; exact hfree⟩, rfl⟩
            rw [HoldStore.freePages, hfree] at hpos
            rw [refreshMark_hold]
            simp only [setHold_hold, List.length_cons] at hpos ⊢
            omega
          · exact idle _ rfl rfl

/-! ### Lines taken -/

/-- n lines, rep of them repaired, are taken for the record r for which transport t's unit of a side captures: the side becomes z
and the unit w (R112 to R117, R120). -/
structure LinesTaken (s : State) (t : TransportNo) (sd : Side) (r : SheetRecord) (n rep : Nat) (u : State) (z : SideRecord)
    (w : CaptureUnit) : Prop where
  tr : u.tr t = (s.tr t).putSide r.id sd (fun _ => z) w
  others : ∀ i, i ≠ t → u.tr i = s.tr i
  outside : s.OutsideKept u
  dram : u.hold.dram = s.hold.dram
  waiting : u.hold.waiting = s.hold.waiting
  reserved : s.hold.reserved ≤ s.hold.free.length → u.hold.reserved ≤ u.hold.free.length
  pages : ∃ new, z.pages = (r.side sd).pages ++ new ∧ s.hold.free = new ++ u.hold.free
  capture : z.capture = (r.side sd).capture
  windowStart : z.windowStart = (r.side sd).windowStart
  windowEnd : z.windowEnd = (r.side sd).windowEnd
  lines : z.lines = (r.side sd).lines + n
  repaired : z.repaired = (r.side sd).repaired + rep
  rep_le : rep ≤ n
  damaged : z.damaged = ((r.side sd).damaged ||
    decide (0 < n ∧ ((s.tr t).profileOf r.selector).repairLimit < (r.side sd).repaired + rep))
  unit : w = { (s.tr t).unit sd with expected := w.expected, previous := w.previous, inkHistory := w.inkHistory }
  expected : w.expected = ((s.tr t).unit sd).expected + BitVec.ofNat 16 n

/-- No line taken. -/
theorem LinesTaken.refl (p : (s.tr t).PageLaw) (h : (s.tr t).capturedRecord sd = some r) :
    LinesTaken s t sd r 0 0 s (r.side sd) ((s.tr t).unit sd) where
  tr := by
    obtain ⟨hr, -, -⟩ := Transport.capturedRecord_some h
    have hm : (s.tr t).track.map (fun q => if q.id = r.id then q.setSide sd (r.side sd) else q) = (s.tr t).track := by
      refine (List.map_congr_left fun q hq => ?_).trans (List.map_id' _)
      split
      · next e => rw [p.eq_of_id hr hq e]; cases sd <;> rfl
      · rfl
    unfold Transport.putSide Transport.modRecord
    rw [hm]
    cases sd <;> rfl
  others _ _ := rfl
  outside := .refl s
  dram := rfl
  waiting := rfl
  reserved := id
  pages := ⟨[], by simp, rfl⟩
  capture := rfl
  windowStart := rfl
  windowEnd := rfl
  lines := rfl
  repaired := rfl
  rep_le := Nat.le_refl 0
  damaged := by simp
  unit := rfl
  expected := by simp

theorem LinesTaken.activity (h : LinesTaken s t sd r n m u z w) : w.activity = ((s.tr t).unit sd).activity := by rw [h.unit]

theorem LinesTaken.trigger (h : LinesTaken s t sd r n m u z w) : w.trigger = ((s.tr t).unit sd).trigger := by rw [h.unit]

theorem LinesTaken.captured (h : LinesTaken s t sd r n m u z w) (hc : (s.tr t).capturedRecord sd = some r) :
    (u.tr t).capturedRecord sd = some (r.setSide sd z) := by
  obtain ⟨-, hr, e, he⟩ := Transport.capturedRecord_some hc
  have hw : ((u.tr t).unit sd).activity = .capturing r.id e := by
    rw [h.tr, Transport.unit_putSide_self, ← he]
    exact h.activity
  rw [Transport.capturedRecord_eq hw, h.tr]
  exact Transport.record_putSide hr

/-- The side put back goes on being captured (R112). -/
theorem LinesTaken.sideLaw (h : LinesTaken s t sd r n m u z w) (hc : (s.tr t).capturedRecord sd = some r) (p : (s.tr t).PageLaw) :
    (s.tr t).SideLaw r.id sd (fun _ => z) w := by
  obtain ⟨hr, -, e, he⟩ := Transport.capturedRecord_some hc
  have hcap : z.capture = .capturing := h.capture.trans (p.capturing hc)
  have hact : w.activity = .capturing r.id e := h.activity.trans he
  refine ⟨fun q hq hid => ?_, fun q hq hid hl => ?_, fun i e' he' => ?_⟩
  · rintro (hz | hz) <;> rw [hcap] at hz <;> cases hz
  · rw [p.eq_of_id hr hq hid] at hl
    have himg := (Transport.recordLaw_iff.mp (p.recordLaw hr)).2 hl sd
    rcases himg with hz | hz <;> rw [p.capturing hc] at hz <;> cases hz
  · rw [hact] at he'
    cases he'
    exact ⟨p.2.1 r hr, fun q _ _ => by rw [if_pos rfl, hcap]⟩

theorem LinesTaken.pageLaw (h : LinesTaken s t sd r n m u z w) (hc : (s.tr t).capturedRecord sd = some r) (p : (s.tr t).PageLaw) :
    (u.tr t).PageLaw := by
  rw [h.tr]; exact Transport.pageLaw_putSide p (h.sideLaw hc p)

theorem LinesTaken.trans {n' m' : Nat} (h : LinesTaken s t sd r n m u z w)
    (g : LinesTaken u t sd (r.setSide sd z) n' m' v z' w') : LinesTaken s t sd r (n + n') (m + m') v z' w' := by
  have hunit : (u.tr t).unit sd = w := by rw [h.tr, Transport.unit_putSide_self]
  have hside : (r.setSide sd z).side sd = z := SheetRecord.side_setSide_self r sd z
  refine
    { tr := ?_, others := fun i hi => (g.others i hi).trans (h.others i hi), outside := h.outside.trans g.outside
      dram := g.dram.trans h.dram, waiting := g.waiting.trans h.waiting, reserved := fun e => g.reserved (h.reserved e)
      pages := ?_, capture := ?_, windowStart := ?_, windowEnd := ?_, lines := ?_, repaired := ?_
      rep_le := Nat.add_le_add h.rep_le g.rep_le, damaged := ?_, unit := ?_, expected := ?_ }
  · rw [g.tr, h.tr, SheetRecord.setSide_id, Transport.putSide_putSide]
  · obtain ⟨new, hz, hf⟩ := h.pages
    obtain ⟨more, hz', hf'⟩ := g.pages
    exact ⟨new ++ more, by rw [hz', hside, hz, List.append_assoc], by rw [hf, hf', List.append_assoc]⟩
  · rw [g.capture, hside, h.capture]
  · rw [g.windowStart, hside, h.windowStart]
  · rw [g.windowEnd, hside, h.windowEnd]
  · rw [g.lines, hside, h.lines, Nat.add_assoc]
  · rw [g.repaired, hside, h.repaired, Nat.add_assoc]
  · have hp : (u.tr t).profileOf (r.setSide sd z).selector = (s.tr t).profileOf r.selector := by
      rw [h.tr, Transport.profileOf_putSide]; cases sd <;> rfl
    have hle := g.rep_le
    have hle' := h.rep_le
    rw [g.damaged, hside, hp, h.damaged, h.repaired, Bool.or_assoc]
    congr 1
    rw [Bool.eq_iff_iff]
    simp only [Bool.or_eq_true, decide_eq_true_eq]
    omega
  · have hu := h.unit
    have gu := g.unit
    rw [hunit] at gu
    refine gu.trans ?_
    rw [hu]
  · rw [g.expected, hunit, h.expected, BitVec.add_assoc]
    congr 1
    apply BitVec.eq_of_toNat_eq
    simp

/-! ### The line taken, and the lines repaired -/

theorem takeLine_none {pixels : List Pixel} {isRepair : Bool} (h : (s.tr t).capturedRecord sd = none) :
    s.takeLine t sd pixels isRepair = s := by
  unfold takeLine; rw [h]

/-- One line taken, which becomes the previous line. -/
theorem linesTaken_takeLine {pixels : List Pixel} {isRepair : Bool} (h : (s.tr t).capturedRecord sd = some r) :
    ∃ z w, LinesTaken s t sd r 1 (if isRepair then 1 else 0) (s.takeLine t sd pixels isRepair) z w ∧ w.previous = some pixels := by
  have inked : ∀ p ink x l, (countInk p ink x l).1 = { x with ink := (countInk p ink x l).1.ink } := fun p ink x l => by
    unfold countInk; dsimp only; split <;> [rfl; (split <;> rfl)]
  unfold takeLine
  rw [h]
  dsimp only
  set a := countInk ((s.tr t).profileOf r.selector) (lineInk ((s.tr t).profileOf r.selector) (s.tr t).cfg pixels) (r.side sd)
    ((s.tr t).unit sd).inkHistory
  have ha : a.1 = { r.side sd with ink := a.1.ink } := inked _ _ _ _
  have hst := stores_storeLine s a.1 (storedLine (((s.tr t).profileOf r.selector).format sd) (s.tr t).cfg pixels)
  set q := s.storeLine a.1 (storedLine (((s.tr t).profileOf r.selector).format sd) (s.tr t).cfg pixels)
  have hq := hst.side
  have htr : ∀ i, q.1.tr i = s.tr i := fun i => congrArg (fun v : Vector Transport 4 => v[i]) hst.transports
  have hcap : q.2.capture = (r.side sd).capture := by rw [hq, ha]
  have hrep : q.2.repaired = (r.side sd).repaired := by rw [hq, ha]
  have hdam : q.2.damaged = (r.side sd).damaged := by rw [hq, ha]
  have hlin : q.2.lines = (r.side sd).lines := by rw [hq, ha]
  refine ⟨{ q.2 with lines := q.2.lines + 1, repaired := if isRepair then q.2.repaired + 1 else q.2.repaired, damaged :=
      q.2.damaged || decide (((s.tr t).profileOf r.selector).repairLimit < if isRepair then q.2.repaired + 1 else q.2.repaired) },
    { (s.tr t).unit sd with previous := some pixels, inkHistory := a.2, expected := ((s.tr t).unit sd).expected + 1 },
    { tr := by rw [tr_modTr_self, htr]; rfl
      others := fun i hi => by rw [modTr, tr_setTr_of_ne _ _ hi, htr]
      outside := hst.outside.trans .modTr
      dram := hst.dram, waiting := hst.waiting, reserved := hst.reserved
      pages := ?_, capture := hcap, windowStart := by dsimp only; rw [hq, ha], windowEnd := by dsimp only; rw [hq, ha]
      lines := by dsimp only; rw [hlin]
      repaired := by dsimp only; rw [hrep]; split <;> rfl
      rep_le := by split <;> decide
      damaged := ?_, unit := rfl, expected := rfl }, rfl⟩
  · obtain ⟨new, hn, hf⟩ := hst.pages
    exact ⟨new, by dsimp only; rw [hn, ha], hf⟩
  · dsimp only
    rw [hdam, hrep]
    cases isRepair <;> simp

theorem linesTaken_repairLine (h : (s.tr t).capturedRecord sd = some r) :
    ∃ z w, LinesTaken s t sd r 1 1 (s.repairLine t sd) z w ∧ w.previous =
      some (((s.tr t).unit sd).previous.getD (List.replicate (s.tr t).cfg.width { red := 255, green := 255, blue := 255 })) :=
  linesTaken_takeLine (isRepair := true) h

/-- n lines repaired in turn repeat the line before them (R113). -/
theorem linesTaken_repairLines (p : (s.tr t).PageLaw) (h : (s.tr t).capturedRecord sd = some r) (n : Nat) :
    ∃ z w, LinesTaken s t sd r n n (s.repairLines t sd n) z w ∧
      w.previous.getD (List.replicate (s.tr t).cfg.width { red := 255, green := 255, blue := 255 }) =
        ((s.tr t).unit sd).previous.getD (List.replicate (s.tr t).cfg.width { red := 255, green := 255, blue := 255 }) := by
  induction n generalizing s r with
  | zero => exact ⟨_, _, .refl p h, rfl⟩
  | succ n ih =>
    obtain ⟨z, w, h1, hw⟩ := linesTaken_repairLine h
    have hc := h1.captured h
    obtain ⟨z', w', h2, hw'⟩ := ih (h1.pageLaw h p) hc
    have h12 := h1.trans h2
    rw [Nat.add_comm] at h12
    refine ⟨z', w', h12, ?_⟩
    rw [h1.tr, Transport.cfg_putSide, Transport.unit_putSide_self, hw, Option.getD_some] at hw'
    exact hw'

/-- A line taken moves a page from the free list to its side at most (R120). -/
theorem LinesTaken.safe {l : List Nat} (h : LinesTaken s t sd r n m u z w) (hc : (s.tr t).capturedRecord sd = some r) :
    s.Safe l u l := by
  obtain ⟨hr, -, -⟩ := Transport.capturedRecord_some hc
  have hl : (s.tr t).Lawful (u.tr t) := h.tr ▸ (s.tr t).lawful_putSide (h.sideLaw hc)
  have hroom : u.room.setupRead = s.room.setupRead := by
    have e := congrArg RoomInterface.setupRead h.outside.room
    exact e
  refine ⟨h.dram, fun b i => ?_, fun c => ⟨fun i => ?_, fun i k e => ?_⟩, fun p => ⟨?_, h.reserved p.reserved, fun i => ?_⟩⟩
  · by_cases hi : i = t
    · subst hi; exact hl.bounded (b i)
    · rw [h.others i hi]; exact b i
  · by_cases hi : i = t
    · subst hi; exact hl.control (c.core i)
    · rw [h.others i hi]; exact c.core i
  · have hoff := c.setup i k (hroom ▸ e)
    by_cases hi : i = t
    · subst hi; exact hl.off (c.core i) hoff
    · rw [h.others i hi]; exact hoff
  · obtain ⟨new, hz, hf⟩ := h.pages
    have hgrow : (u.tr t).holding.Perm ((s.tr t).holding ++ new) := by
      rw [h.tr]; exact Transport.holding_putSide_grows (p.records t) hr hz
    have htr : ∀ i, u.tr i = (s.setTr t (u.tr t)).tr i := fun i => by
      rw [tr_setTr]
      split
      · next e => rw [e]
      · next e => exact h.others i e
    have hh : u.holding = (s.setTr t (u.tr t)).holding := by unfold holding; simp only [← htr]
    rw [show u.hold.total = s.hold.total from congrArg DramSize.pages h.dram]
    refine List.Perm.trans ?_ p.pool
    rw [hf, List.perm_iff_count]
    intro a
    have h1 := s.count_holding_setTr t (u.tr t) a
    have h2 := List.perm_iff_count.mp hgrow a
    rw [← hh] at h1
    simp only [List.count_append] at h2 ⊢
    omega
  · by_cases hi : i = t
    · subst hi; exact hl.pageLaw (p.records i)
    · rw [h.others i hi]; exact p.records i

end State
end Sys2Proof.Machine
end

/-! PROOFS. What the Capture Units, settlements, picks and the lane writer do keeps the bounds, the control laws and the law of the
pages. -/

section

namespace Sys2Proof.Machine

/-! ### Records that stay in the track -/

/-- A record with an id that is not WITHDRAWN stands in the track. -/
def Transport.Live (x : Transport) (id : Nat) : Prop := ∃ r ∈ x.track, r.id = id ∧ r.life ≠ .withdrawn

namespace Transport

variable {x y : Transport} {id i : Nat} {sd : Side}

theorem Live.putSide (h : x.Live i) (g : SheetRecord → SideRecord) (u : CaptureUnit) : (x.putSide id sd g u).Live i := by
  obtain ⟨r, hr, hid, hl⟩ := h
  refine ⟨_, by rw [putSide_track]; exact List.mem_map_of_mem hr, ?_, ?_⟩
  · split <;> simpa using hid
  · split <;> simpa using hl

theorem Live.mayPick {n : Nat} (h : x.Live i) (m : x.MayPick n y) : y.Live i := by
  rcases m with rfl | ⟨-, rfl⟩
  · exact h
  · obtain ⟨r, hr, e⟩ := h
    exact ⟨r, List.mem_append_left _ hr, e⟩

/-- The record of a live id is not WITHDRAWN, whichever of that id it is. -/
theorem PageLaw.of_live (p : x.PageLaw) (h : x.Live i) : i < x.nextId ∧ ∀ r ∈ x.track, r.id = i → r.life ≠ .withdrawn := by
  obtain ⟨r, hr, rfl, hl⟩ := h
  exact ⟨p.2.1 r hr, fun q hq hid => p.eq_of_id hr hq hid ▸ hl⟩

/-- A record with a side that has an image is not WITHDRAWN (R59). -/
theorem PageLaw.live_of_image (p : x.PageLaw) {r : SheetRecord} (hr : r ∈ x.track) (h : ¬(r.side sd).imageless) : x.Live r.id :=
  ⟨r, hr, rfl, fun hl => h ((recordLaw_iff.mp (p.recordLaw hr)).2 hl sd)⟩

/-- A piece whose writing is broken off keeps its pages (R144). -/
theorem safe_interrupt (x : Transport) : x.Safe [] (x.modHeadPiece fun q => { q with interrupted := true }) :=
  x.safe_modHeadPiece (f := fun q => { q with interrupted := true }) (fun _ => rfl) fun _ => rfl

end Transport

namespace State

variable {s u : State} {l m : List Nat} (t : TransportNo) (sd : Side)

/-! ### Captures -/

theorem safe_takeLine (s : State) (pixels : List Pixel) (isRepair : Bool) : s.Safe l (s.takeLine t sd pixels isRepair) l := by
  cases h : (s.tr t).capturedRecord sd with
  | none => rw [takeLine_none h]; exact .refl s l
  | some r =>
    obtain ⟨z, w, hz, -⟩ := linesTaken_takeLine (pixels := pixels) (isRepair := isRepair) h
    exact hz.safe h

theorem safe_repairLine (s : State) : s.Safe l (s.repairLine t sd) l := safe_takeLine ..

theorem safe_repairLines (s : State) (n : Nat) : s.Safe l (s.repairLines t sd n) l := by
  induction n generalizing s with
  | zero => exact .refl s l
  | succ n ih => exact (safe_repairLine t sd s).trans (ih _)

theorem safe_triggerLine (s : State) : s.Safe l (s.triggerLine t sd) l := by
  unfold triggerLine
  dsimp only
  exact (Safe.ite (safe_repairLine t sd s) (.refl s l)).trans
    (.modTr_nil (Transport.safe_setUnit_follows _ sd fun _ e h => ⟨e, h⟩))

theorem completeSide_of_captured {r : SheetRecord} (h : (s.tr t).capturedRecord sd = some r) : s.completeSide t sd =
    (s.modTr t fun x => x.putSide r.id sd (fun _ => { r.side sd with
        capture := .complete, reserve := 0, windowEnd := .idle,
        blank := some (blankResult ((s.tr t).profileOf r.selector) (s.tr t).cfg.width (r.side sd)) })
      { x.unit sd with activity := .idle, packetWait := false, inkHistory := [] }).returnPages [] (r.side sd).reserve := by
  unfold completeSide
  dsimp only
  rw [h]
  rfl

theorem safe_completeSide (s : State) : s.Safe l (s.completeSide t sd) l := by
  cases h : (s.tr t).capturedRecord sd with
  | none =>
    have e : s.completeSide t sd = s.modTr t fun x => x.setUnit sd { x.unit sd with activity := .idle, packetWait := false } := by
      unfold completeSide; dsimp only; rw [h]
    rw [e]
    exact .modTr_nil (Transport.safe_setUnit_follows _ sd fun _ _ h => by cases h)
  | some r =>
    obtain ⟨hr, -⟩ := Transport.capturedRecord_some h
    rw [completeSide_of_captured t sd h]
    refine Safe.thenReturn (ps := []) (Safe.modTr_nil ?_)
    refine Transport.safe_putSide _ (fun p => ⟨fun q _ _ => ?_, fun q hq hid hl => ?_, fun i e he => by cases he⟩)
      fun p q hq hid => by rw [p.eq_of_id hr hq hid]
    · rintro (hz | hz) <;> cases hz
    · rw [p.eq_of_id hr hq hid] at hl
      have himg := (Transport.recordLaw_iff.mp (p.recordLaw hr)).2 hl sd
      rcases himg with hz | hz <;> rw [p.capturing h] at hz <;> cases hz

theorem safe_repairAndComplete (s : State) : s.Safe l (s.repairAndComplete t sd) l :=
  (safe_repairLines t sd s _).trans (safe_completeSide t sd _)

theorem live_takeLine {i : Nat} (s : State) (pixels : List Pixel) (isRepair : Bool) (h : (s.tr t).Live i) :
    ((s.takeLine t sd pixels isRepair).tr t).Live i := by
  cases hc : (s.tr t).capturedRecord sd with
  | none => rwa [takeLine_none hc]
  | some r =>
    obtain ⟨z, w, hz, -⟩ := linesTaken_takeLine (pixels := pixels) (isRepair := isRepair) hc
    rw [hz.tr]; exact h.putSide _ _

theorem live_repairLines {i : Nat} (s : State) (n : Nat) (h : (s.tr t).Live i) : ((s.repairLines t sd n).tr t).Live i := by
  induction n generalizing s with
  | zero => exact h
  | succ n ih => exact ih _ (live_takeLine t sd s _ _ h)

theorem live_completeSide {i : Nat} (s : State) (h : (s.tr t).Live i) : ((s.completeSide t sd).tr t).Live i := by
  cases hc : (s.tr t).capturedRecord sd with
  | none =>
    unfold completeSide; dsimp only; rw [hc]
    obtain ⟨r, hr, e⟩ := h
    exact ⟨r, by rw [tr_modTr_self]; simpa using hr, e⟩
  | some r =>
    rw [completeSide_of_captured t sd hc]
    refine Transport.Live.mayPick ?_ (mayPick_returnPages _ _ _ t)
    rw [tr_modTr_self]; exact h.putSide _ _

theorem steady_beginCapture (s : State) (id : Nat) : s.Steady (s.beginCapture t sd id) :=
  Steady.trans (.modTr Transport.bounded_putSide (Transport.sameControl_putSide _ id sd _ _)) (safe_triggerLine (l := []) t sd _).steady

theorem safe_beginCapture (s : State) {id : Nat} (h : (s.tr t).Live id) : s.Safe l (s.beginCapture t sd id) l := by
  refine Safe.trans (Safe.modTr_nil ?_) (safe_triggerLine t sd _)
  refine Transport.safe_putSide _ (fun p => ⟨fun q _ _ => ?_, fun q hq hid hl => ?_, fun i e he => ?_⟩) fun _ _ _ _ => rfl
  · rintro (hz | hz) <;> cases hz
  · exact absurd hl ((p.of_live h).2 q hq hid)
  · cases he
    exact ⟨(p.of_live h).1, fun q _ _ => by rw [if_pos rfl]⟩

theorem live_repairAndComplete {i : Nat} (s : State) (h : (s.tr t).Live i) : ((s.repairAndComplete t sd).tr t).Live i :=
  live_completeSide t sd _ (live_repairLines t sd s _ h)

/-- A capture that starts for a record which the law of the pages keeps from being WITHDRAWN. -/
theorem safe_captureStart (s : State) {id : Nat} (h : (s.tr t).PageLaw → (s.tr t).Live id) :
    s.Safe l (s.captureStart t sd id) l := by
  unfold captureStart
  split
  · exact (steady_beginCapture t sd s id).safe fun p => safe_beginCapture t sd s (h (p.records t))
  · refine Safe.ite ?_ (.refl s l)
    have h1 := safe_repairAndComplete (l := l) t sd s
    exact (h1.steady.trans (steady_beginCapture t sd _ id)).safe fun p =>
      h1.trans (safe_beginCapture t sd _ (live_repairAndComplete t sd s (h (p.records t))))

/-- A capture whose window ends. -/
theorem safe_captureEnd (s : State) {id : Nat} (h : (s.tr t).PageLaw → id < (s.tr t).nextId ∧
    ∀ r ∈ (s.tr t).track, r.id = id → (r.side sd).capture = .capturing) : s.Safe l (s.captureEnd t sd id) l := by
  have h1 : s.Safe l (s.modTr t fun x => (x.modRecord id fun r => r.setSide sd { r.side sd with windowEnd := .idle }).setUnit sd
      { x.unit sd with activity := .capturing id true, packetWait := true }) l := by
    refine Safe.modTr_nil (Transport.safe_putSide _ (fun p => ⟨fun q hq _ => ?_, fun q hq _ hl => ?_, fun i e he => ?_⟩)
      fun _ _ _ _ => rfl)
    · exact (Transport.recordLaw_iff.mp (p.recordLaw hq)).1 sd
    · exact (Transport.recordLaw_iff.mp (p.recordLaw hq)).2 hl sd
    · cases he
      exact ⟨(h p).1, fun q hq hid => by rw [if_pos rfl]; exact (h p).2 q hq hid⟩
  unfold captureEnd
  dsimp only
  exact Safe.ite (h1.trans (safe_completeSide t sd _)) h1

theorem safe_captureCount (s : State) (forward : Bool) : s.Safe l (s.captureCount t sd forward) l := by
  have step : ∀ v : CaptureUnit, v.activity = ((s.tr t).unit sd).activity → s.Safe l (s.modTr t fun x => x.setUnit sd v) l :=
    fun v hv => .modTr_nil (Transport.safe_setUnit_follows _ sd fun _ e he => ⟨e, hv ▸ he⟩)
  have trigger : ∀ v : CaptureUnit, v.activity = ((s.tr t).unit sd).activity →
      s.Safe l ((s.modTr t fun x => x.setUnit sd v).triggerLine t sd) l := fun v hv => (step v hv).trans (safe_triggerLine t sd _)
  unfold captureCount
  dsimp only
  split
  · refine Safe.ite (.refl s l) (Safe.ite (step _ rfl) (Safe.ite (step _ rfl) (Safe.ite ?_ (step _ rfl))))
    exact trigger _ rfl
  · exact .refl s l

theorem safe_takePacketLine (s : State) (bytes : List Byte) : s.Safe l (s.takePacketLine t sd bytes) l := by
  unfold takePacketLine
  exact Safe.ite (safe_takeLine ..) (safe_repairLine ..)

theorem safe_judgePacket (s : State) (bytes : List Byte) : s.Safe l (s.judgePacket t sd bytes) l := by
  unfold judgePacket
  dsimp only
  exact Safe.ite (Safe.ite (safe_repairLine t sd s) (.refl s l))
    (Safe.ite ((safe_repairLines t sd s _).trans (safe_takePacketLine t sd _ bytes)) (.refl s l))

theorem safe_packet (s : State) (bytes : List Byte) : s.Safe l (s.packet t sd bytes) l := by
  unfold packet
  split
  · exact .refl s l
  · refine (safe_judgePacket t sd s bytes).trans ?_
    unfold completeIfDrained
    split
    · exact Safe.ite (safe_completeSide ..) (.refl _ l)
    · exact .refl _ l
    · exact .refl _ l

/-! ### Settlement and picks -/

theorem safe_settleHead (s : State) {r : SheetRecord} {rest : List SheetRecord} (ht : (s.tr t).track = r :: rest)
    (hc : (s.tr t).canSettle r = true) : s.Safe l (s.settleHead t r) l := by
  have h := Safe.setTr (l := l) ((s.tr t).safe_settleRecord (fun n => (s.lane n).state == .unused) ht hc)
  rw [List.append_assoc] at h
  exact h.thenReturn.thenReturn

theorem safe_settleTransport (s : State) (n : Nat) : s.Safe l (s.settleTransport t n) l := by
  induction n generalizing s with
  | zero => exact .refl s l
  | succ n ih =>
    unfold settleTransport
    split
    · exact .refl s l
    · next r rest ht =>
      split
      · next hc => exact (safe_settleHead t s ht hc).trans (ih _)
      · exact .refl s l

theorem safe_askAdmission (s : State) : s.Safe l (s.askAdmission t) l := by
  unfold askAdmission
  split
  · next h =>
    have he : (s.tr t).eligible = true := (Bool.and_eq_true_iff.mp h).1
    split
    · next hneed => exact safe_grant s t hneed.2 he
    · exact .same rfl rfl rfl rfl fun _ e => e
  · exact .refl s l

theorem safe_updateWaits (s : State) : s.Safe l s.updateWaits l :=
  Safe.foldl (fun _ _ => .modTr_nil (Transport.SameContents.safeSame {} {})) s _

theorem safe_pickStage (s : State) : s.Safe l s.pickStage l :=
  ((safe_serveList s).trans (Safe.foldl (fun s t => safe_askAdmission t s) _ _)).trans (safe_updateWaits _)

theorem safe_eachTransport {f : Transport → Transport} (h : ∀ x : Transport, x.Safe [] (f x)) (s : State) :
    s.Safe l (s.eachTransport f) l :=
  Safe.foldl (fun _ _ => .modTr_nil (h _)) s _

/-! ### The lane writer -/

theorem safe_meetRequests (s : State) (n : LaneNo) : s.Safe l (s.meetRequests n) l :=
  Safe.modLane.trans (Safe.foldl (fun _ _ => .modTr_nil (Transport.safe_laneClosed _ n)) _ _)

theorem safe_requestClosure (s : State) (n : LaneNo) : s.Safe l (s.requestClosure t n) l := by
  unfold requestClosure
  exact Safe.ite (Safe.ite .modLane (Safe.modLane.trans .modLane)) (.modTr_nil (Transport.safe_laneClosed _ n))

theorem safe_goOnClosing (s : State) : s.Safe l (s.goOnClosing t) l := by
  unfold goOnClosing
  split
  · next hd =>
    split
    · exact .modTr_nil (Transport.safe_batch _ _)
    · exact .modTr_nil ((Transport.safe_batch _ _).trans_nil (Transport.safe_leaveDraining _ hd))
    all_goals exact .refl s l
  · exact .refl s l

theorem safe_endBatch (s : State) : s.Safe l (s.endBatch t) l := by
  refine Safe.trans (Safe.ite ?_ (.refl s l)) (safe_goOnClosing t _)
  exact Safe.trans (.modTr_nil (Transport.safe_batch _ _)) (Safe.foldl (fun s n => safe_requestClosure t s n) _ _)

theorem safe_continueTurn (s : State) : s.Safe l (s.continueTurn t) l := by
  unfold continueTurn
  split
  · exact .setWriter
  · split
    · exact .setWriter
    · refine Safe.ite ((Safe.modLane.trans (.modTr_nil ?_)).trans .setWriter) (Safe.modLane.trans .setWriter)
      exact Transport.Safe.ite (.refl _) (Transport.safe_touch _ _)

theorem safe_lookForWork (s : State) : s.Safe l s.lookForWork l := by
  unfold lookForWork
  split
  · exact .refl s l
  · split
    · exact .refl s l
    · unfold beginTurn
      split
      · exact .refl s l
      · exact Safe.ite ((Safe.setWriter.trans .modLane).trans .setWriter) (Safe.setWriter.trans (safe_continueTurn _ _))

theorem safe_breakTurn (s : State) : s.Safe l (s.breakTurn t) l :=
  Safe.trans (.modTr_nil (Transport.safe_interrupt _)) .setWriter

theorem safe_entryWritten (s : State) {e : Element} {p : Piece} (b : Bin) (h : (s.tr t).headPiece = some (e, p)) :
    s.Safe l (s.entryWritten t e p b) l := by
  have h1 := Safe.setTr (s := s) (l := l)
    ((s.tr t).safe_advanceQueue (entryDataLength e p (b.capacity - b.filled)) h)
  unfold entryWritten
  extract_lets room d b1 whole s1 v s2
  have h2 := (h1.trans (.modLane (n := p.lane) (f := (·.afterEntry b1)))).trans
    (.setWriter (w := { s.writer with turn := if whole then none else some (t, .handBack) }))
  split
  · next hw =>
    have hw : p.total ≤ p.progress + entryDataLength e p (b.capacity - b.filled) := by simpa [whole] using hw
    rw [if_pos hw] at h2
    exact h2.thenReturn
  · next hw =>
    have hw : ¬p.total ≤ p.progress + entryDataLength e p (b.capacity - b.filled) := by simpa [whole] using hw
    rw [if_neg hw] at h2
    exact h2

theorem safe_entryFault (s : State) (p : Piece) (b : Bin) : s.Safe l (s.entryFault t p b) l := by
  have h : s.Safe l (((s.modTr t (·.modHeadPiece fun q => { q with interrupted := true })).setWriter
      { s.writer with turn := none }).setEvent .memfault) l :=
    (Safe.trans (.modTr_nil (Transport.safe_interrupt _)) .setWriter).trans .setEvent
  unfold entryFault
  exact Safe.ite (h.trans .modLane) ((h.trans .modLane).trans (safe_meetRequests _ _))

theorem safe_entryDone (s : State) (r : BusWrite) : s.Safe l (s.entryDone r) l := by
  unfold entryDone
  split
  · next t _ =>
    split
    · exact .refl s l
    · next e p hp =>
      split
      · exact .refl s l
      · next b _ =>
        have hp' : ∀ cells, ((s.hostWrite r cells).tr t).headPiece = some (e, p) := fun _ => hp
        cases r with
        | ok => exact Safe.trans (u := s.hostWrite .ok (entryCells t e p b)) .hostWrite (safe_entryWritten t _ b (hp' _))
        | busError n =>
          exact Safe.trans (u := s.hostWrite (.busError n) (entryCells t e p b)) .hostWrite (safe_entryFault t _ p b)
  all_goals exact .refl s l

theorem safe_afterHandBack (s : State) (n : LaneNo) : s.Safe l (s.afterHandBack n) l := by
  unfold afterHandBack
  split
  · exact Safe.ite (Safe.ite (Safe.modLane.trans .setWriter) (safe_breakTurn _ _)) (.refl s l)
  all_goals exact .refl s l

theorem safe_handBackEnded (s : State) (n : LaneNo) (r : BusWrite) : s.Safe l (s.handBackEnded n r) l := by
  unfold handBackEnded
  split
  · refine Safe.trans (Safe.trans ?_ (safe_meetRequests _ n)) (safe_afterHandBack _ n)
    cases r with
    | ok => exact (Safe.hostWrite.trans .modLane).trans .setEvent
    | busError k => exact (Safe.hostWrite.trans .modLane).trans .setEvent
  · exact .refl s l

theorem safe_afterBinTake (s : State) (n : LaneNo) : s.Safe l (s.afterBinTake n) l := by
  unfold afterBinTake
  split
  · exact Safe.ite (Safe.ite (safe_continueTurn _ _) .setWriter) (.refl _ l)
  all_goals exact .refl _ l

theorem safe_binTakeEnded (s : State) (n : LaneNo) (link bin : MemRead) : s.Safe l (s.binTakeEnded n link bin) l := by
  unfold binTakeEnded
  dsimp only
  exact Safe.ite (Safe.trans (Safe.ite (Safe.modLane.trans .setEvent) .modLane) (safe_afterBinTake _ n)) (.refl s l)

end State
end Sys2Proof.Machine
end

/-! PROOFS. Stops, attribution, the resolution of a sensor's change, and the end of a step keep the bounds, the control laws and the
law of the pages. -/

section

namespace Sys2Proof.Machine

theorem Transport.record_modRecord {x : Transport} {id : Nat} {r : SheetRecord} {f : SheetRecord → SheetRecord}
    (hf : ∀ q : SheetRecord, (f q).id = q.id) (h : x.record id = some r) : (x.modRecord id f).record id = some (f r) := by
  unfold record at h ⊢
  rw [track_modRecord, record_map (fun q => by split <;> simp [hf]), h, Option.map_some, if_pos (mem_of_record h).2]

namespace State

variable {s u : State} {l m : List Nat} (t : TransportNo) (sd : Side)

/-! ### Stops -/

theorem safe_returnGivenUp (s : State) (r : SheetRecord) : s.Safe (r.pages ++ l) (s.returnGivenUp r) l := by
  unfold returnGivenUp
  exact Safe.ite (safe_returnPages s _ _) (safe_returnSides s r)

/-- The records given up return what they hold, one after the other (R42, R124). -/
theorem safe_foldl_returnGivenUp (s : State) (rs : List SheetRecord) :
    s.Safe (rs.flatMap SheetRecord.pages ++ l) (rs.foldl returnGivenUp s) l := by
  induction rs generalizing s with
  | nil => exact .refl s l
  | cons r rest ih =>
    rw [List.flatMap_cons, List.append_assoc]
    exact (safe_returnGivenUp s r).trans (ih _)

theorem safe_endWindowAtStop (s : State) : s.Safe l (s.endWindowAtStop t sd) l := by
  unfold endWindowAtStop
  split
  · next id he => exact Safe.ite (.refl s l) (safe_captureEnd t sd s fun p => p.linked sd id false he)
  · exact .refl s l
  · exact .refl s l

theorem safe_takeStop (s : State) {reason : StopReason} (hr : reason ≠ .none) : s.Safe l (s.takeStop t reason) l := by
  unfold takeStop
  split
  · next ha =>
    exact ((Safe.trans (.modTr (Transport.safe_stopped _ ha hr)) (safe_foldl_returnGivenUp _ _)).trans
      (safe_endWindowAtStop t .front _)).trans (safe_endWindowAtStop t .back _)
  · exact .refl s l

theorem safe_pickMissed (s : State) {r : SheetRecord} (hr : r ∈ (s.tr t).track) : s.Safe l (s.pickMissed t r) l := by
  have h : ∀ n : Nat, s.Safe l ((s.setTr t { s.tr t with
      track := (s.tr t).track.filter fun q => q.id != r.id, clutch := false, retries := n }).returnPages r.pages r.reserve) l :=
    fun n => (Safe.setTr ((s.tr t).safe_pickMissed hr n)).thenReturn
  unfold pickMissed
  exact Safe.ite ((h _).trans (safe_takeStop t _ (by decide))) (h _)

/-! ### Attribution -/

/-- A window position of a side armed or raised. -/
theorem safe_windowStart (s : State) (id : Nat) (a : Armed) :
    s.Safe l (s.modTr t fun x => x.modRecord id fun q => q.setSide sd { q.side sd with windowStart := a }) l :=
  .modTr_nil (Transport.safe_modRecord_mild _ id (f := fun q => q.setSide sd { q.side sd with windowStart := a })
    fun r => r.mild_setSide sd rfl rfl)

theorem safe_windowEnd (s : State) (id : Nat) (a : Armed) :
    s.Safe l (s.modTr t fun x => x.modRecord id fun q => q.setSide sd { q.side sd with windowEnd := a }) l :=
  .modTr_nil (Transport.safe_modRecord_mild _ id (f := fun q => q.setSide sd { q.side sd with windowEnd := a })
    fun r => r.mild_setSide sd rfl rfl)

theorem safe_armWindowStart (s : State) (id : Nat) (p : Pos) : s.Safe l (s.armWindowStart t id sd p) l := by
  unfold armWindowStart
  split
  · exact .refl s l
  · next r hrec =>
    split
    · next hw =>
      refine Safe.ite (Safe.trans (safe_windowStart t sd s id .raised) (safe_captureStart t sd _ fun p => ?_))
        (safe_windowStart t sd s id _)
      rw [tr_modTr_self] at p ⊢
      obtain ⟨hq, hid⟩ := Transport.mem_of_record
        (Transport.record_modRecord (f := fun q => q.setSide sd { q.side sd with windowStart := .raised }) (by simp) hrec)
      refine hid ▸ p.live_of_image (sd := sd) hq ?_
      rw [SheetRecord.side_setSide_self]
      rintro (h | h) <;> rw [hw] at h <;> cases h
    · exact .refl s l

theorem safe_armWindowEnd (s : State) (id : Nat) (p : Pos) : s.Safe l (s.armWindowEnd t id sd p) l := by
  unfold armWindowEnd
  split
  · exact .refl s l
  · next r hrec =>
    dsimp only
    refine Safe.ite (Safe.ite ?_ (safe_windowEnd t sd s id _)) (.refl s l)
    split
    · next hc =>
      refine Safe.trans (safe_windowEnd t sd s id .raised) (safe_captureEnd t sd _ fun p => ?_)
      rw [tr_modTr_self] at p ⊢
      obtain ⟨hq, hid⟩ := Transport.mem_of_record
        (Transport.record_modRecord (f := fun q => q.setSide sd { q.side sd with windowEnd := .raised }) (by simp) hrec)
      refine ⟨hid ▸ p.2.1 _ hq, fun w hw hwid => ?_⟩
      rw [p.eq_of_id hq hw (hwid.trans hid.symm), SheetRecord.side_setSide_self]
      exact hc
    · exact safe_windowEnd t sd s id .raised

theorem safe_dfLeadSeen (s : State) (r : SheetRecord) (latch : Pos) : s.Safe l (s.dfLeadSeen t r latch) l :=
  (Safe.trans (.modTr_nil ((Transport.safe_fillLead _ r .df latch).trans_nil (Transport.safe_dfLead _ r.id)))
    (safe_armWindowStart t .front _ _ _)).trans (safe_armWindowStart t .back _ _ _)

theorem safe_dfTrailSeen (s : State) (r : SheetRecord) (latch : Pos) : s.Safe l (s.dfTrailSeen t r latch) l :=
  (Safe.trans (.modTr_nil ((Transport.safe_fillTrail _ r .df latch).trans_nil (Transport.safe_dfTrail _ r.id latch)))
    (safe_armWindowEnd t .front _ _ _)).trans (safe_armWindowEnd t .back _ _ _)

theorem safe_leadSeen (s : State) (r : SheetRecord) (st : Station) (latch : Pos) : s.Safe l (s.leadSeen t r st latch) l := by
  cases st with
  | entry => exact .modTr_nil (f := fun x => x.entryLead r latch) (Transport.safe_entryLead _ r latch)
  | df => exact safe_dfLeadSeen t s r latch
  | mark =>
    exact .modTr_nil (f := fun x => (x.fillLead r .mark latch).markLead r latch)
      ((Transport.safe_fillLead _ r .mark latch).trans_nil (Transport.safe_markLead _ r latch))
  | exit => exact .modTr_nil (f := fun x => x.fillLead r .exit latch) (Transport.safe_fillLead _ r .exit latch)

theorem safe_leadEdge (s : State) (st : Station) (latch : Pos) : s.Safe l (s.leadEdge t st latch) l := by
  unfold leadEdge
  split
  · exact safe_takeStop t s (by decide)
  · exact Safe.ite (safe_leadSeen t s _ st latch) (safe_takeStop t s (by decide))

/-- A record made DONE or PARKED at its EXIT trail. -/
theorem safe_life (s : State) (id : Nat) {life : Lifecycle} (h : life ≠ .withdrawn) :
    s.Safe l (s.modTr t fun x => x.modRecord id fun q => { q with life := life }) l :=
  .modTr_nil (Transport.safe_modRecord_mild _ id (f := fun q => { q with life := life }) fun _ =>
    { life := fun e => absurd e h })

theorem safe_exitTrail (s : State) (r : SheetRecord) (latch : Pos) : s.Safe l (s.exitTrail t r latch) l := by
  have h : s.Safe l (s.modTr t fun x => x.fillTrail r .exit latch) l := .modTr_nil (Transport.safe_fillTrail _ r .exit latch)
  unfold exitTrail
  exact Safe.ite ((h.trans (safe_life t _ r.id (by decide))).trans (safe_takeStop t _ (by decide)))
    (h.trans (safe_life t _ r.id (by decide)))

theorem safe_trailSeen (s : State) (r : SheetRecord) (st : Station) (latch : Pos) : s.Safe l (s.trailSeen t r st latch) l := by
  cases st with
  | entry =>
    exact .modTr_nil (f := fun x => (x.fillTrail r .entry latch).modRecord r.id fun q => { q with gap := x.gapFrom latch })
      ((Transport.safe_fillTrail _ r .entry latch).trans_nil
        (Transport.safe_modRecord_mild _ r.id (f := fun q => { q with gap := (s.tr t).gapFrom latch }) fun _ => {}))
  | df => exact safe_dfTrailSeen t s r latch
  | mark =>
    exact .modTr_nil (f := fun x => (x.fillTrail r .mark latch).markTrail r latch)
      ((Transport.safe_fillTrail _ r .mark latch).trans_nil (Transport.safe_markTrail _ r latch))
  | exit => exact safe_exitTrail t s r latch

theorem safe_trailEdge (s : State) (st : Station) (latch : Pos) : s.Safe l (s.trailEdge t st latch) l := by
  unfold trailEdge
  split
  · exact safe_takeStop t s (by decide)
  · exact Safe.ite (safe_takeStop t s (by decide)) (safe_trailSeen t s _ st latch)

theorem safe_stationChange (s : State) (st : Station) (paper : Bool) (latch : Pos) :
    s.Safe l (s.stationChange t st paper latch) l := by
  unfold stationChange
  exact Safe.ite (Safe.ite (safe_leadEdge t s st latch) (safe_trailEdge t s st latch))
    (Safe.ite (.modTr_nil (Transport.safe_dropProvisional _)) (.refl s l))

theorem safe_coverChange (s : State) (isOpen : Bool) : s.Safe l (s.coverChange t isOpen) l := by
  unfold coverChange
  dsimp only
  refine Safe.ite (Safe.ite (safe_takeStop t s (by decide)) (Safe.ite (.modTr_nil (Transport.safe_motorOff _)) (.refl s l))) ?_
  split
  · next h => exact .modTr_nil (Transport.safe_startMotor _ (Bool.and_eq_true_iff.mp h).1)
  · exact .refl s l

theorem safe_deliver (s : State) (sn : Sensor) (level : Bool) (latch : Pos) : s.Safe l (s.deliver t sn level latch) l := by
  cases sn with
  | station st => exact safe_stationChange t s st level latch
  | trayEmpty => exact .refl s l
  | coverOpen => exact safe_coverChange t s level

theorem safe_takeLeadExpiry (s : State) (st : Station) : s.Safe l (s.takeLeadExpiry t st) l := by
  unfold takeLeadExpiry
  split
  · exact .refl s l
  · next r h => exact Safe.ite (safe_pickMissed t s (List.mem_of_find?_eq_some h)) (safe_takeStop t s (by decide))

theorem safe_takeTrailExpiry (s : State) (st : Station) : s.Safe l (s.takeTrailExpiry t st) l := by
  unfold takeTrailExpiry
  split
  · exact .refl s l
  · exact safe_takeStop t s (by decide)

theorem safe_takeMarkExpiry (s : State) : s.Safe l (s.takeMarkExpiry t) l := by
  unfold takeMarkExpiry
  exact Safe.ite (.modTr_nil (Transport.safe_markWindowExpired _)) (.refl s l)

/-! ### The resolution of a sensor's change -/

theorem safe_acceptChange (s : State) (sn : Sensor) : s.Safe l (s.acceptChange t sn) l := by
  unfold acceptChange
  dsimp only
  split
  · exact .refl s l
  · have h : ∀ c : SensorState, s.Safe l (s.modTr t fun x => x.setSensor sn c) l :=
      fun c => .modTr_nil (Transport.safe_setSensor _ sn c)
    exact Safe.ite ((h _).trans (safe_deliver t _ sn _ _))
      (Safe.ite ((h _).trans (.modTr_nil (Transport.safe_dropProvisional _))) (h _))

theorem safe_heldSteps (sn : Sensor) : ∀ f ∈ heldSteps t sn, ∀ s : State, s.Safe l (f s) l := by
  intro f hf s
  cases sn with
  | station st =>
    simp only [heldSteps, List.mem_cons, List.not_mem_nil, or_false] at hf
    rcases hf with rfl | rfl | rfl
    · exact Safe.ite (safe_takeMarkExpiry t s) (.refl s l)
    · exact safe_takeTrailExpiry t s st
    · exact safe_takeLeadExpiry t s st
  | trayEmpty => cases hf
  | coverOpen => cases hf

/-- What holds of a state and of each held step's effect on it holds at the end of the resolution. -/
theorem resolution_induction {P : State → Prop} (sn : Sensor) (h0 : P (s.acceptChange t sn))
    (hstep : ∀ f ∈ heldSteps t sn, ∀ v, P v → P (f v)) : P (s.resolve t sn) := by
  have key : ∀ (fs : List (State → State)) (path : List State), (∀ f ∈ fs, f ∈ heldSteps t sn) → path ≠ [] → P (path.headD s) →
      P ((fs.foldl (fun path f => (path.headD s).ifActive t f :: path) path).headD s) := by
    intro fs
    induction fs with
    | nil => exact fun path _ _ h => h
    | cons f rest ih =>
      intro path hfs hp h
      refine ih _ (fun g hg => hfs g (List.mem_cons_of_mem _ hg)) (List.cons_ne_nil _ _) ?_
      rw [List.headD_cons]
      unfold ifActive
      split
      · exact hstep f (hfs f (List.mem_cons_self ..)) _ h
      · exact h
  exact key _ _ (fun _ h => h) (List.cons_ne_nil _ _) h0

theorem safe_resolve (s : State) (sn : Sensor) : s.Safe l (s.resolve t sn) l :=
  resolution_induction t sn (P := fun v => s.Safe l v l) (safe_acceptChange t s sn)
    fun f hf v h => h.trans (safe_heldSteps t sn f hf v)

/-! ### The end of a step -/

theorem safe_settleStage (s : State) : s.Safe l s.settleStage l :=
  (Safe.foldl (fun s t => safe_settleTransport t s _) s _).trans (safe_eachTransport (fun x => x.safe_endTests) _)

theorem safe_drainStage (s : State) : s.Safe l s.drainStage l :=
  (safe_pickStage s).trans (safe_eachTransport (fun x => x.safe_pauseDone) _)

theorem safe_haltQuiet (s : State) : s.Safe l s.haltQuiet l := by
  unfold haltQuiet
  exact Safe.ite (.modRoom rfl) (.refl s l)

theorem safe_closeStage (s : State) : s.Safe l s.closeStage l :=
  ((Safe.foldl (fun s t => safe_endBatch t s) s _).trans (safe_lookForWork _)).trans (safe_haltQuiet _)

theorem safe_requestStatus (s : State) : s.Safe l (s.requestStatus t) l := .modRoom (by split <;> rfl)

theorem safe_requestStatuses (s : State) (n : Nat) : s.Safe l (s.requestStatuses t n) l := by
  induction n generalizing s with
  | zero => exact .refl s l
  | succ n ih => exact (safe_requestStatus t s).trans (ih _)

theorem safe_finishVia (s before : State) (path : List State) (forced : List TransportNo) :
    s.Safe l (s.finishVia before path forced) l :=
  ((safe_settleStage s).trans (safe_drainStage _)).trans ((safe_closeStage _).trans
    (Safe.foldl (fun s t => safe_requestStatuses t s _) _ _))

end State
end Sys2Proof.Machine
end

/-! PROOFS. What the meanings of the commands keep before the end of their step: the bounds, the control laws and the law of the
pages. -/

section

namespace Sys2Proof.Machine

namespace Transport

variable (x : Transport)

theorem contents_load (b : SetupBlock) : x.SameContents (x.load b) := {}

theorem core_load {x : Transport} (b : SetupBlock) (h : x.state = .off) (c : x.ControlCore) : (x.load b).ControlCore := by
  obtain ⟨c1, c2, c3, c4, c5, c6, c7, c8⟩ := c
  constructor <;> simp_all [load]

theorem safe_halt (d : Purpose → Bool) : x.Safe [] { x with haltRequest := x.haltRequest || d x.purpose } :=
  SameContents.safeSame {} {}

theorem safe_reset (p : PositionUnit) (hs : p.skipCount = 0) (ht : p.stallTimer = none) :
    ({ pos := p } : Transport).Bounded ∧ ({ pos := p } : Transport).ControlCore ∧ ({ pos := p } : Transport).PageLaw := by
  refine ⟨⟨Nat.zero_le _, Nat.zero_le _, Nat.zero_le _, by rw [hs]; decide, fun r hr => by cases hr⟩, ?_, ?_⟩
  · constructor <;> simp [ht]
  · exact pageLaw_of List.nodup_nil (fun r hr => by cases hr) (fun r hr => by cases hr) fun sd i e h => by cases sd <;> cases h

end Transport

theorem Piece.rewind_written (p : Piece) (n : LaneNo) : (p.rewind n).written = p.written := by
  unfold Piece.rewind; split <;> rfl

theorem Piece.rewind_image (p : Piece) (n : LaneNo) : (p.rewind n).image = p.image := by
  unfold Piece.rewind; split <;> rfl

namespace State

variable {s u : State} {l m : List Nat} (t : TransportNo)

/-! ### The Room Interface -/

theorem safe_afterReset (s : State) (units : TransportNo → PositionUnit) (a b : Word) (n : Nat)
    (h : ∀ i, (units i).skipCount = 0 ∧ (units i).stallTimer = none) : s.Safe l (s.afterReset units a b n) [] := by
  have htr : ∀ i, (s.afterReset units a b n).tr i = { pos := units i } := fun i => by
    simp [tr, afterReset]
  have hall := fun i => Transport.safe_reset (units i) (h i).1 (h i).2
  refine ⟨rfl, fun _ i => htr i ▸ (hall i).1, fun _ => ⟨fun i => htr i ▸ (hall i).2.1, fun i k e => by cases e⟩,
    fun _ => ⟨?_, Nat.zero_le _, fun i => htr i ▸ (hall i).2.2⟩⟩
  have hh : (s.afterReset units a b n).holding = [] := by
    unfold holding
    exact List.flatMap_eq_nil_iff.mpr fun i _ => by rw [htr]; rfl
  rw [hh, List.append_nil, List.append_nil]
  exact .refl _

theorem safe_requestSweep (s : State) : s.Safe l s.requestSweep l := by
  unfold requestSweep; split
  · exact .modRoom rfl
  · exact .modRoom rfl

theorem safe_refreshMark (s : State) : s.Safe l s.refreshMark l := by
  refine .same (by simp) (by rw [refreshMark_hold]) (by rw [refreshMark_hold]) (by rw [refreshMark_hold]) fun x h => ?_
  have e := congrArg RoomInterface.setupRead s.outside_refreshMark.room
  exact e ▸ h

theorem safe_loadHeader (s : State) (base : Addr) (h : Header) : s.Safe l (s.loadHeader base h) l := by
  unfold loadHeader
  extract_lets s1 s2
  have h2 : s.Safe l s2 l := .same rfl rfl rfl rfl fun _ e => e
  have h3 : s2.Safe l (s2.setHold { s2.hold with lowMark := h.lowMark, below := false }) l := .same rfl rfl rfl rfl fun _ e => e
  exact ((h2.trans h3).trans (safe_refreshMark _)).trans (safe_requestSweep _)

theorem setupRead_setOwed (r : RoomInterface) (b : CommandBlock) (w : Option AnswerWrite) :
    (r.setOwed b w).setupRead = r.setupRead := by cases b <;> rfl

theorem safe_serveOwed (s : State) (b : CommandBlock) (w : AnswerWrite) (turn : MemRead) : s.Safe l (s.serveOwed b w turn) l := by
  unfold serveOwed
  split
  · exact .setEvent
  · refine .modRoom ?_
    split <;> exact setupRead_setOwed _ _ _

theorem safe_statusEnded (s : State) (owed : Bool) : s.Safe l (s.statusEnded t owed) l := by
  unfold statusEnded
  exact Safe.ite (Safe.trans (.modRoom rfl) (safe_requestStatus t _)) (.modRoom rfl)

/-! ### Transport commands -/

theorem safe_sweepPast (s : State) (n : Nat) : s.Safe l (s.sweepPast n) l := .modRoom rfl

theorem safe_answer (s : State) (b : CommandBlock) (c : Answer) (n : Word) : s.Safe l (s.answer b c n) l := .modRoom rfl

/-- The block of an ENABLE is loaded while the transport is still OFF (R23). -/
theorem safe_load (s : State) {n : Word} (b : SetupBlock) (h : s.room.setupRead = some (t, n)) :
    s.Safe l ((s.modRoom fun r => { r with setupRead := none }).modTr t (·.load b)) l := by
  have hc : s.ControlKernel → ((s.modRoom fun r => { r with setupRead := none }).modTr t (·.load b)).ControlKernel := fun c => by
    refine ⟨fun i => ?_, fun i k e => by cases e⟩
    rw [modTr, tr_setTr]
    split
    · exact Transport.core_load b (c.setup t n h) (c.core t)
    · exact c.core i
  have hsame := (s.tr t).contents_load b
  refine ⟨rfl, fun d i => ?_, hc, fun p => ⟨?_, p.reserved, fun i => ?_⟩⟩
  · rw [modTr, tr_setTr]
    split
    · exact hsame.bounded (d t)
    · exact d i
  · refine List.Perm.trans ?_ p.pool
    rw [List.perm_iff_count]
    intro a
    have h1 := s.count_holding_setTr t ((s.tr t).load b) a
    rw [hsame.holding] at h1
    have h2 : ((s.modRoom fun r => { r with setupRead := none }).modTr t (·.load b)).holding =
        (s.setTr t ((s.tr t).load b)).holding := rfl
    simp only [h2, List.count_append, modTr_hold, modRoom_hold]
    omega
  · rw [modTr, tr_setTr]
    split
    · exact hsame.pageLaw (p.records t)
    · exact p.records i

/-- The offender is disposed of and the transport goes on; what the offender gives up returns (R124, R149). -/
theorem safe_dispose (s : State) (gives : Bool) {f : Transport → SheetRecord → Transport} {g : Transport → Transport}
    (hf : ∀ r ∈ (s.tr t).track, (s.tr t).Safe (if gives then r.pages else []) (f (s.tr t) r) ∧ (f (s.tr t) r).state = (s.tr t).state)
    (hg : ∀ y : Transport, y.state = (s.tr t).state → y.Safe [] (g y)) : s.Safe l (s.dispose t gives f g) l := by
  unfold dispose
  split
  · exact .modTr_nil (hg _ rfl)
  · next r hr =>
    obtain ⟨h1, h2⟩ := hf r (List.mem_of_find?_eq_some hr)
    have h3 : s.Safe l (s.modTr t fun x => g (f x r)) ((if gives then r.pages else []) ++ l) := by
      have := Safe.modTr (l := l) (f := fun x => g (f x r)) (h1.trans (hg _ h2))
      rwa [List.append_nil] at this
    cases gives with
    | true => exact h3.trans (safe_returnSides _ r)
    | false => exact h3

theorem safe_abortHeld (s : State) (h : (s.tr t).state = .held) : s.Safe l (s.abortHeld t) l := by
  unfold abortHeld
  refine Safe.trans (.modTr_nil (Transport.safe_removeWithdrawn _)) (safe_dispose t _ true (fun r hr => ⟨?_, rfl⟩) fun y hy => ?_)
  · exact Transport.safe_refeed _ hr
  · rw [tr_modTr_self] at hy
    exact (Transport.safe_halt y (· == .halt)).trans_nil (Transport.safe_enterDraining _ (by decide) (hy.trans h))

/-- A ruling taken (R147, R149 to R154). -/
theorem safe_ruling (s : State) (gives : Bool) {f : Transport → SheetRecord → Transport} (h : (s.tr t).state = .held)
    (hf : ∀ x : Transport, ∀ r ∈ x.track, x.Safe (if gives then r.pages else []) (f x r) ∧ (f x r).state = x.state) :
    s.Safe l ((s.modTr t (·.removeWithdrawn)).dispose t gives f (·.leaveHeld)) l :=
  Safe.trans (.modTr_nil (Transport.safe_removeWithdrawn _)) (safe_dispose t _ gives (fun r hr => hf _ r hr) fun y hy => by
    rw [tr_modTr_self] at hy
    exact Transport.safe_leaveHeld _ (hy.trans h))

/-! ### Tickets and lanes -/

theorem safe_closeLane (s : State) (n : LaneNo) : s.Safe l (s.closeLane n) l := by
  unfold closeLane
  dsimp only
  split
  · exact .refl s l
  · exact Safe.ite .modLane (Safe.ite .modLane .modLane)

theorem safe_restartEnded (s : State) (n : LaneNo) (record : MemRead) : s.Safe l (s.restartEnded n record) l := by
  unfold restartEnded
  split
  · exact Safe.trans .modLane .setEvent
  · exact Safe.trans .modLane (safe_eachTransport (fun x => x.safe_modHeadPiece (fun p => Piece.rewind_written p n)
      fun p => Piece.rewind_image p n) _)

end State
end Sys2Proof.Machine
end

/-! PROOFS. What each command keeps: the queue, the DRAM size, host memory but for the write it ends, the bounds, and the laws of the
control states and of the pages. -/

section

namespace Sys2Proof.Machine

/-! ### What a counted edge's line triggers change -/

/-- A record with its sides reduced to their capture and the positions of their windows. -/
def SheetRecord.outline (r : SheetRecord) : SheetRecord :=
  { r with
    front := { capture := r.front.capture, windowStart := r.front.windowStart, windowEnd := r.front.windowEnd }
    back := { capture := r.back.capture, windowStart := r.back.windowStart, windowEnd := r.back.windowEnd } }

/-- A record without its sides. -/
def SheetRecord.sideless (r : SheetRecord) : SheetRecord := { r with front := {}, back := {} }

theorem SheetRecord.kernel_sideless (r : SheetRecord) : r.sideless.kernel = r.kernel := rfl

namespace State

variable {s u v : State} {t : TransportNo} {sd : Side} {r : SheetRecord} {z : SideRecord} {w : CaptureUnit} {n m : Nat}

/-- Only transport t's sides and Capture Units change, the store, and EVT.SPACE. -/
structure CapturesOnly (s u : State) (t : TransportNo) : Prop where
  others : ∀ i, i ≠ t → u.tr i = s.tr i
  outside : s.OutsideKept u
  shape : ∃ l f b, u.tr t = { s.tr t with track := l, front := f, back := b }
  sideless : (u.tr t).track.map SheetRecord.sideless = (s.tr t).track.map SheetRecord.sideless
  outline : (s.tr t).PageLaw →
    (u.tr t).PageLaw ∧ (u.tr t).track.map SheetRecord.outline = (s.tr t).track.map SheetRecord.outline

theorem CapturesOnly.refl (s : State) (t : TransportNo) : s.CapturesOnly s t :=
  ⟨fun _ _ => rfl, .refl s, ⟨_, _, _, rfl⟩, rfl, fun p => ⟨p, rfl⟩⟩

theorem CapturesOnly.trans (h : s.CapturesOnly u t) (g : u.CapturesOnly v t) : s.CapturesOnly v t where
  others i hi := (g.others i hi).trans (h.others i hi)
  outside := h.outside.trans g.outside
  shape := by
    obtain ⟨l, f, b, e⟩ := h.shape
    obtain ⟨l', f', b', e'⟩ := g.shape
    exact ⟨l', f', b', by rw [e', e]⟩
  sideless := g.sideless.trans h.sideless
  outline p := by
    obtain ⟨pu, eu⟩ := h.outline p
    obtain ⟨pv, ev⟩ := g.outline pu
    exact ⟨pv, ev.trans eu⟩

theorem CapturesOnly.kernel (h : s.CapturesOnly u t) :
    (u.tr t).track.map SheetRecord.kernel = (s.tr t).track.map SheetRecord.kernel := by
  have := congrArg (List.map SheetRecord.kernel) h.sideless
  simpa only [List.map_map, Function.comp_def, SheetRecord.kernel_sideless] using this

theorem CapturesOnly.ite {p : Prop} [Decidable p] (h : s.CapturesOnly u t) (g : s.CapturesOnly v t) :
    s.CapturesOnly (if p then u else v) t := by
  split
  · exact h
  · exact g

theorem sideless_setSide (r : SheetRecord) (sd : Side) (z : SideRecord) : (r.setSide sd z).sideless = r.sideless := by
  cases sd <;> rfl

theorem outline_setSide (r : SheetRecord) (sd : Side) {z : SideRecord} (hc : z.capture = (r.side sd).capture)
    (hs : z.windowStart = (r.side sd).windowStart) (he : z.windowEnd = (r.side sd).windowEnd) :
    (r.setSide sd z).outline = r.outline := by
  cases sd
  · have hc : z.capture = r.front.capture := hc
    have hs : z.windowStart = r.front.windowStart := hs
    have he : z.windowEnd = r.front.windowEnd := he
    simp only [SheetRecord.setSide, SheetRecord.outline, hc, hs, he]
  · have hc : z.capture = r.back.capture := hc
    have hs : z.windowStart = r.back.windowStart := hs
    have he : z.windowEnd = r.back.windowEnd := he
    simp only [SheetRecord.setSide, SheetRecord.outline, hc, hs, he]

theorem LinesTaken.capturesOnly (h : LinesTaken s t sd r n m u z w) (hc : (s.tr t).capturedRecord sd = some r) :
    s.CapturesOnly u t where
  others := h.others
  outside := h.outside
  shape := by
    obtain ⟨f, b, e⟩ := (s.tr t).putSide_eq r.id sd (fun _ => z) w
    exact ⟨_, f, b, h.tr.trans e⟩
  sideless := by
    rw [h.tr, Transport.putSide_track, List.map_map]
    refine List.map_congr_left fun q _ => ?_
    rw [Function.comp_apply]
    split
    · exact sideless_setSide q sd z
    · rfl
  outline p := by
    obtain ⟨hr, -, -⟩ := Transport.capturedRecord_some hc
    refine ⟨h.pageLaw hc p, ?_⟩
    rw [h.tr, Transport.putSide_track, List.map_map]
    refine List.map_congr_left fun q hq => ?_
    rw [Function.comp_apply]
    split
    · next e =>
      rw [p.eq_of_id hr hq e]
      exact outline_setSide r sd h.capture h.windowStart h.windowEnd
    · rfl

theorem capturesOnly_setUnit (s : State) (t : TransportNo) (sd : Side) {c : CaptureUnit}
    (h : c.activity = ((s.tr t).unit sd).activity) : s.CapturesOnly (s.modTr t fun x => x.setUnit sd c) t where
  others i hi := tr_setTr_of_ne _ _ hi
  outside := .modTr
  shape := by
    obtain ⟨f, b, e⟩ := (s.tr t).setUnit_eq sd c
    exact ⟨_, f, b, by rw [tr_modTr_self, e]⟩
  sideless := by rw [tr_modTr_self, Transport.setUnit_track]
  outline p := by
    rw [tr_modTr_self, Transport.setUnit_track]
    exact ⟨(Transport.safe_setUnit_follows _ sd fun _ e he => ⟨e, h ▸ he⟩).pageLaw p, rfl⟩

theorem capturesOnly_repairLine (s : State) (t : TransportNo) (sd : Side) : s.CapturesOnly (s.repairLine t sd) t := by
  cases h : (s.tr t).capturedRecord sd with
  | none => unfold repairLine; rw [takeLine_none h]; exact .refl s t
  | some r =>
    obtain ⟨z, w, hz, -⟩ := linesTaken_repairLine h
    exact hz.capturesOnly h

theorem capturesOnly_triggerLine (s : State) (t : TransportNo) (sd : Side) : s.CapturesOnly (s.triggerLine t sd) t := by
  unfold triggerLine
  dsimp only
  generalize hv : (if ((s.tr t).unit sd).outstanding + 1 = 32768 then s.repairLine t sd else s) = v
  have h : s.CapturesOnly v t := hv ▸ .ite (capturesOnly_repairLine s t sd) (.refl s t)
  exact h.trans (capturesOnly_setUnit v t sd (c := { (v.tr t).unit sd with trigger := ((v.tr t).unit sd).trigger + 1 }) rfl)

/-- The line trigger of a counted edge (R109). -/
theorem capturesOnly_captureCount (s : State) (t : TransportNo) (sd : Side) (forward : Bool) :
    s.CapturesOnly (s.captureCount t sd forward) t := by
  have trigger : ∀ c : CaptureUnit, c.activity = ((s.tr t).unit sd).activity →
      s.CapturesOnly ((s.modTr t fun x => x.setUnit sd c).triggerLine t sd) t :=
    fun c hc => (capturesOnly_setUnit s t sd hc).trans (capturesOnly_triggerLine _ t sd)
  unfold captureCount
  dsimp only
  split
  · exact .ite (.refl s t) (.ite (capturesOnly_setUnit s t sd rfl) (.ite (capturesOnly_setUnit s t sd rfl)
      (.ite (trigger _ rfl) (capturesOnly_setUnit s t sd rfl))))
  · exact .refl s t

/-! ### The pick-wait reasons -/

/-- A change that leaves every transport's state and pick-wait reason. -/
def SameWaits (s u : State) : Prop := ∀ i, (u.tr i).state = (s.tr i).state ∧ (u.tr i).pickWait = (s.tr i).pickWait

theorem SameWaits.waitLaw (h : s.SameWaits u) (w : s.WaitLaw) : u.WaitLaw := fun i hi => by
  rw [(h i).2]; exact w i fun e => hi ((h i).1.trans e)

theorem SameWaits.refl (s : State) : s.SameWaits s := fun _ => ⟨rfl, rfl⟩

theorem SameWaits.trans (h : s.SameWaits u) (g : u.SameWaits v) : s.SameWaits v :=
  fun i => ⟨(g i).1.trans (h i).1, (g i).2.trans (h i).2⟩

theorem SameWaits.of_transports (h : u.transports = s.transports) : s.SameWaits u := fun i => by
  have e : u.tr i = s.tr i := congrArg (fun v : Vector Transport 4 => v[i]) h
  rw [e]; exact ⟨rfl, rfl⟩

theorem SameWaits.modTr {f : Transport → Transport} (h : (f (s.tr t)).state = (s.tr t).state ∧ (f (s.tr t)).pickWait = (s.tr t).pickWait) :
    s.SameWaits (s.modTr t f) := fun i => by
  rw [State.modTr, tr_setTr]
  split
  · next e => subst e; exact h
  · exact ⟨rfl, rfl⟩

theorem CapturesOnly.sameWaits (h : s.CapturesOnly u t) : s.SameWaits u := fun i => by
  by_cases hi : i = t
  · subst hi
    obtain ⟨l, f, b, e⟩ := h.shape
    rw [e]; exact ⟨rfl, rfl⟩
  · rw [h.others i hi]; exact ⟨rfl, rfl⟩

/-! ### The pick-wait reasons at the end of a step -/

theorem tr_foldl_modTr (s : State) {ts : List TransportNo} (f : Transport → Transport) (hn : ts.Nodup) (i : TransportNo) :
    (ts.foldl (fun s t => s.modTr t f) s).tr i = if i ∈ ts then f (s.tr i) else s.tr i := by
  induction ts generalizing s with
  | nil => rfl
  | cons t rest ih =>
    rw [List.nodup_cons] at hn
    rw [List.foldl_cons, ih _ hn.2, State.modTr, tr_setTr]
    by_cases hi : i = t
    · subst hi
      simp [hn.1]
    · simp [hi]

theorem mem_allTransports (i : TransportNo) : i ∈ allTransports := by fin_cases i <;> decide

/-- Every transport changed by f (log 38). -/
theorem tr_eachTransport (s : State) (f : Transport → Transport) (i : TransportNo) : (s.eachTransport f).tr i = f (s.tr i) := by
  unfold eachTransport
  rw [tr_foldl_modTr s f (by decide) i, if_pos (mem_allTransports i)]

theorem tr_updateWaits (s : State) (i : TransportNo) : s.updateWaits.tr i = { s.tr i with pickWait := (s.tr i).waitReason } := by
  unfold updateWaits
  rw [tr_foldl_modTr s (fun x => { x with pickWait := x.waitReason }) (by decide) i, if_pos (mem_allTransports i)]

theorem waitLaw_updateWaits (s : State) : s.updateWaits.WaitLaw := fun i hi => by
  rw [tr_updateWaits] at hi ⊢
  show (s.tr i).waitReason = .none
  unfold Transport.waitReason
  exact if_neg hi

/-- A change after which a transport is RUNNING only if it was, with the pick-wait reason that it had. -/
def KeepsWait (s u : State) : Prop :=
  ∀ i, (u.tr i).pickWait = (s.tr i).pickWait ∧ ((u.tr i).state ≠ .running → (s.tr i).state ≠ .running)

theorem KeepsWait.waitLaw (h : s.KeepsWait u) (w : s.WaitLaw) : u.WaitLaw := fun i hi => by
  rw [(h i).1]; exact w i ((h i).2 hi)

theorem KeepsWait.refl (s : State) : s.KeepsWait s := fun _ => ⟨rfl, id⟩

theorem KeepsWait.trans (h : s.KeepsWait u) (g : u.KeepsWait v) : s.KeepsWait v :=
  fun i => ⟨(g i).1.trans (h i).1, fun e => (h i).2 ((g i).2 e)⟩

theorem KeepsWait.ite {p : Prop} [Decidable p] (h : s.KeepsWait u) (g : s.KeepsWait v) : s.KeepsWait (if p then u else v) := by
  split
  · exact h
  · exact g

theorem KeepsWait.foldl {α : Type} {f : State → α → State} (h : ∀ (s : State) (a : α), s.KeepsWait (f s a)) (s : State) (as : List α) :
    s.KeepsWait (as.foldl f s) := by
  induction as generalizing s with
  | nil => exact .refl s
  | cons a rest ih => exact (h s a).trans (ih _)

theorem KeepsWait.of_transports (h : u.transports = s.transports) : s.KeepsWait u := fun i => by
  have e : u.tr i = s.tr i := congrArg (fun v : Vector Transport 4 => v[i]) h
  rw [e]; exact ⟨rfl, id⟩

theorem KeepsWait.modTr {f : Transport → Transport} (hp : (f (s.tr t)).pickWait = (s.tr t).pickWait)
    (hs : (f (s.tr t)).state ≠ .running → (s.tr t).state ≠ .running) : s.KeepsWait (s.modTr t f) := fun i => by
  rw [State.modTr, tr_setTr]
  split
  · next e => subst e; exact ⟨hp, hs⟩
  · exact ⟨rfl, id⟩

end State

namespace Transport

variable (x : Transport)

/-- y is x with its motor, its clutch and their timers changed, a run-in abandoned perhaps; R and the run state stay. -/
def MotorOnly (x y : Transport) : Prop :=
  ∃ mo cl a ro st d, y = { x with motor := mo, clutch := cl, runInEnd := a, runOffTimer := ro, dfu := d,
                                  pos := { x.pos with stallTimer := st } } ∧
    d.reference = x.dfu.reference ∧ d.run = x.dfu.run

theorem MotorOnly.refl : x.MotorOnly x := ⟨_, _, _, _, _, _, rfl, rfl, rfl⟩

theorem MotorOnly.trans {x y z : Transport} (h : x.MotorOnly y) (g : y.MotorOnly z) : x.MotorOnly z := by
  obtain ⟨mo, cl, a, ro, st, d, rfl, hr, hu⟩ := h
  obtain ⟨mo', cl', a', ro', st', d', rfl, hr', hu'⟩ := g
  exact ⟨mo', cl', a', ro', st', d', rfl, hr'.trans hr, hu'.trans hu⟩

theorem motorOnly_abandonRunIn : x.MotorOnly x.abandonRunIn := by
  unfold abandonRunIn
  split
  · exact ⟨x.motor, x.clutch, .idle, x.runOffTimer, x.pos.stallTimer, x.dfu.endGathering, rfl, rfl, rfl⟩
  · exact .refl x

theorem motorOnly_motorOff : x.MotorOnly x.motorOff :=
  x.motorOnly_abandonRunIn.trans ⟨.standing, false, _, none, none, _, rfl, rfl, rfl⟩

theorem motorOnly_beginRunOff : x.MotorOnly x.beginRunOff := by
  unfold beginRunOff
  split
  · dsimp only
    split
    · exact x.motorOnly_abandonRunIn.trans (motorOnly_motorOff _)
    · exact x.motorOnly_abandonRunIn.trans ⟨_, _, _, _, _, _, rfl, rfl, rfl⟩
  · exact .refl x

theorem MotorOnly.pickWait {x y : Transport} (h : x.MotorOnly y) : y.pickWait = x.pickWait := by
  obtain ⟨mo, cl, a, ro, st, d, rfl, -, -⟩ := h; rfl

theorem MotorOnly.state {x y : Transport} (h : x.MotorOnly y) : y.state = x.state := by
  obtain ⟨mo, cl, a, ro, st, d, rfl, -, -⟩ := h; rfl

theorem pauseDone_pickWait : x.pauseDone.pickWait = x.pickWait := by
  unfold pauseDone
  split
  · exact (motorOnly_beginRunOff _).pickWait
  · rfl

theorem leaveDraining_pickWait : x.leaveDraining.pickWait = x.pickWait := by
  unfold leaveDraining
  dsimp only
  split
  · exact (motorOnly_motorOff _).pickWait
  · exact (motorOnly_beginRunOff _).pickWait

/-- DRAINING(PAUSE) done is the only change of the stage. -/
theorem pauseDone_eq_or : x.pauseDone = x ∨ x.state = .draining := by
  unfold pauseDone
  split
  · next h => exact .inr h.1
  · exact .inl rfl

end Transport

namespace State

variable {s u v : State} {t : TransportNo} {n m : Nat}

theorem keepsWait_laneClosed (s : State) (t : TransportNo) (n : LaneNo) : s.KeepsWait (s.modTr t (·.laneClosed n)) := by
  have h : ((s.tr t).laneClosed n).pickWait = (s.tr t).pickWait ∧ ((s.tr t).laneClosed n).state = (s.tr t).state := by
    unfold Transport.laneClosed; split <;> exact ⟨rfl, rfl⟩
  exact .modTr h.1 fun e => h.2 ▸ e

theorem keepsWait_requestClosure (s : State) (t : TransportNo) (n : LaneNo) : s.KeepsWait (s.requestClosure t n) := by
  unfold requestClosure
  exact .ite (.ite (.of_transports rfl) (.of_transports rfl)) (keepsWait_laneClosed s t n)

theorem keepsWait_goOnClosing (s : State) (t : TransportNo) : s.KeepsWait (s.goOnClosing t) := by
  unfold goOnClosing
  split
  · next hd =>
    split
    · exact .modTr rfl id
    · exact .modTr (Transport.leaveDraining_pickWait _) fun _ e => by rw [hd] at e; cases e
    all_goals exact .refl s
  · exact .refl s

theorem keepsWait_endBatch (s : State) (t : TransportNo) : s.KeepsWait (s.endBatch t) := by
  refine KeepsWait.trans (.ite ?_ (.refl s)) (keepsWait_goOnClosing _ t)
  unfold askClosures
  exact KeepsWait.trans (.modTr rfl id) (.foldl (fun s n => keepsWait_requestClosure s t n) _ _)

theorem keepsWait_continueTurn (s : State) (t : TransportNo) : s.KeepsWait (s.continueTurn t) := by
  unfold continueTurn
  split
  · exact .of_transports rfl
  · next p _ =>
    split
    · exact .of_transports rfl
    · have h : (s.modLane p.lane fun l => { l with flushTimer := none }).KeepsWait
          ((s.modLane p.lane fun l => { l with flushTimer := none }).modTr t fun x => if p.firstWritten then x else x.touch p.lane) := by
        have ht : ∀ x : Transport, (if p.firstWritten then x else x.touch p.lane).pickWait = x.pickWait ∧
            (if p.firstWritten then x else x.touch p.lane).state = x.state := fun x => by
          unfold Transport.touch; split <;> [exact ⟨rfl, rfl⟩; (split <;> exact ⟨rfl, rfl⟩)]
        exact .modTr (ht _).1 fun e => (ht _).2 ▸ e
      exact .ite (KeepsWait.trans (.of_transports rfl) (h.trans (.of_transports rfl))) (.of_transports rfl)

theorem keepsWait_lookForWork (s : State) : s.KeepsWait s.lookForWork := by
  unfold lookForWork
  split
  · exact .refl s
  · split
    · exact .refl s
    · unfold beginTurn
      split
      · exact .refl s
      · exact .ite (.of_transports rfl) (KeepsWait.trans (.of_transports rfl) (keepsWait_continueTurn _ _))

theorem keepsWait_haltQuiet (s : State) : s.KeepsWait s.haltQuiet := by
  unfold haltQuiet
  exact .ite (.of_transports rfl) (.refl s)

theorem keepsWait_closeStage (s : State) : s.KeepsWait s.closeStage :=
  ((KeepsWait.foldl (fun s t => keepsWait_endBatch s t) s _).trans (keepsWait_lookForWork _)).trans (keepsWait_haltQuiet _)

theorem requestStatuses_transports (s : State) (t : TransportNo) (n : Nat) : (s.requestStatuses t n).transports = s.transports := by
  induction n generalizing s with
  | zero => rfl
  | succ n ih => exact ih _

/-- The end of a step brings every pick-wait reason up to date (R35). -/
theorem waitLaw_finishVia (s before : State) (path : List State) (forced : List TransportNo) :
    (s.finishVia before path forced).WaitLaw := by
  have hpause : ∀ x : State, x.KeepsWait (x.eachTransport Transport.pauseDone) := fun x =>
    KeepsWait.foldl (fun y i => .modTr (Transport.pauseDone_pickWait _) fun hs e => by
      rcases (y.tr i).pauseDone_eq_or with h | h
      · exact hs (by rw [h]; exact e)
      · rw [h] at e; cases e) x _
  have h : s.settleStage.drainStage.WaitLaw := (hpause _).waitLaw (waitLaw_updateWaits _)
  refine KeepsWait.waitLaw ?_ ((keepsWait_closeStage _).waitLaw h)
  exact KeepsWait.foldl (fun y i => .of_transports (requestStatuses_transports y i _)) _ _

/-! ### What a command keeps -/

/-- What every command keeps: the queue, host memory but for bytes of given cells, the bounds, the laws of the pages and of the
control states. -/
structure Kept (cells : List Host.Cell) (s u : State) : Prop where
  safe : s.Safe [] u []
  pending : u.pending = s.pending
  written : ∃ w : List Host.Cell, (∀ c ∈ w, c ∈ cells) ∧ u.hostMem = writeCells w s.hostMem
  waits : s.WaitLaw → u.WaitLaw

theorem Kept.of_quiet {cells : List Host.Cell} (h : s.Safe [] u []) (q : s.Quiet u) (w : s.WaitLaw → u.WaitLaw) : Kept cells s u :=
  ⟨h, q.pending, ⟨[], fun _ hc => by simp at hc, q.hostMem⟩, w⟩

theorem Kept.refl (cells : List Host.Cell) (s : State) : Kept cells s s := .of_quiet (.refl s []) (.refl s) id

/-- A step whose event reaches v and then goes to its end. -/
theorem Kept.finish {cells : List Host.Cell} (h : s.Safe [] v []) (q : s.Quiet v) (before : State) (path : List State)
    (forced : List TransportNo) : Kept cells s (v.finishVia before path forced) :=
  .of_quiet (h.trans (safe_finishVia v before path forced)) (q.trans (quiet_finishVia _ _ _ _))
    fun _ => waitLaw_finishVia v before path forced

/-- The same, with a write that the event ended. -/
theorem Kept.finishWrite {cells : List Host.Cell} (h : s.Safe [] v []) (hp : v.pending = s.pending)
    (hw : ∃ w : List Host.Cell, (∀ c ∈ w, c ∈ cells) ∧ v.hostMem = writeCells w s.hostMem) (before : State) (path : List State)
    (forced : List TransportNo) : Kept cells s (v.finishVia before path forced) := by
  have q := v.quiet_finishVia before path forced
  obtain ⟨w, hin, hm⟩ := hw
  exact ⟨h.trans (safe_finishVia v before path forced), q.pending.trans hp, ⟨w, hin, q.hostMem.trans hm⟩,
    fun _ => waitLaw_finishVia v before path forced⟩

/-- A change of the Room Interface or the lanes with nothing after it. -/
theorem Kept.aside {cells : List Host.Cell} (h : s.Safe [] u []) (ht : u.transports = s.transports) (hp : u.pending = s.pending)
    (hm : u.hostMem = s.hostMem) : Kept cells s u :=
  ⟨h, hp, ⟨[], fun _ hc => by simp at hc, hm⟩, (KeepsWait.of_transports ht).waitLaw⟩

theorem Kept.trans {cells : List Host.Cell} (h : Kept [] s u) (g : Kept cells u v) : Kept cells s v := by
  obtain ⟨w, hw, hm⟩ := h.written
  obtain ⟨w', hw', hm'⟩ := g.written
  have hnil : w = [] := List.eq_nil_iff_forall_not_mem.mpr fun c hc => by simpa using hw c hc
  subst hnil
  exact ⟨h.safe.trans g.safe, g.pending.trans h.pending, ⟨w', hw', hm'.trans (by rw [hm]; rfl)⟩, fun x => g.waits (h.waits x)⟩

end State
end Sys2Proof.Machine
end

/-! PROOFS. Every command answers a next state and keeps what each step keeps: the laws, the queue, and host memory but for the write
it ends. -/

section

namespace Sys2Proof.Machine

open State

/-- A command answers a next state that keeps what each step keeps. -/
def Completes (c : Instr) (s : State) : Prop := ∃ u, exec c s = .next u ∧ Kept (writtenCells c s) s u

variable {s u v : State} {t : TransportNo} {sd : Side}

theorem Result.next_ite {p : Prop} [Decidable p] {a b : State} :
    (if p then (.next a : Result) else .next b) = .next (if p then a else b) := by split <;> rfl

/-! ### Resets -/

theorem mem_of_mem_reaching {k i : Nat} {l : List Host.Cell} {c : Host.Cell} (h : c ∈ reaching k i l) : c ∈ l := by
  induction l generalizing i with
  | nil => exact h
  | cons d rest ih =>
    unfold reaching at h
    split at h
    · rcases List.mem_cons.mp h with rfl | h
      · exact List.mem_cons_self ..
      · exact List.mem_cons_of_mem _ (ih h)
    · exact List.mem_cons_of_mem _ (ih h)

theorem kept_afterReset (s : State) (units : TransportNo → PositionUnit) (a b : Word) (n : Nat)
    (h : ∀ i, (units i).skipCount = 0 ∧ (units i).stallTimer = none) :
    Kept s.writesInFlight s (s.afterReset units a b n) := by
  refine ⟨safe_afterReset s units a b n h, rfl, ⟨_, fun c => mem_of_mem_reaching, rfl⟩, fun _ i _ => ?_⟩
  show ((Vector.ofFn fun i => ({ pos := units i } : Transport))[i]).pickWait = .none
  simp

theorem completes_powerOn (l0 l1 l2 l3 : LineLevels) (s : State) : Completes (.powerOn l0 l1 l2 l3) s :=
  ⟨_, rfl, kept_afterReset s _ _ _ _ fun _ => ⟨rfl, rfl⟩⟩

theorem completes_softReset (p : Byte) (s : State) : Completes (.softReset p) s :=
  ⟨_, rfl, kept_afterReset s _ _ _ _ fun _ => ⟨rfl, rfl⟩⟩

/-! ### The paper path -/

theorem kept_modTr {f : Transport → Transport} {cells : List Host.Cell} (h : (s.tr t).Safe [] (f (s.tr t)))
    (hw : (f (s.tr t)).state = (s.tr t).state ∧ (f (s.tr t)).pickWait = (s.tr t).pickWait) : Kept cells s (s.modTr t f) :=
  ⟨.modTr_nil h, rfl, ⟨[], fun _ hc => by simp at hc, rfl⟩, (SameWaits.modTr hw).waitLaw⟩

theorem kept_of_outside {cells : List Host.Cell} (h : s.Safe [] u []) (o : s.OutsideKept u) (w : s.SameWaits u) : Kept cells s u :=
  ⟨h, o.pending, ⟨[], fun _ hc => by simp at hc, o.hostMem⟩, w.waitLaw⟩

theorem count_control (x : Transport) (line : EncLine) (adc : BitVec 10) (forward : Bool) :
    (x.count line adc forward).state = x.state ∧ (x.count line adc forward).pickWait = x.pickWait := by
  have run : ∀ (x : Transport) r a q, (x.runSample r a q).state = x.state ∧ (x.runSample r a q).pickWait = x.pickWait := by
    intro x r a q; unfold Transport.runSample; split
    · split <;> exact ⟨rfl, rfl⟩
    · split <;> exact ⟨rfl, rfl⟩
    · exact ⟨rfl, rfl⟩
  have gap : ∀ (x : Transport) a, (x.gapSample a).state = x.state ∧ (x.gapSample a).pickWait = x.pickWait := by
    intro x a; unfold Transport.gapSample; split
    · exact ⟨rfl, rfl⟩
    · split <;> exact ⟨rfl, rfl⟩
  have route : ∀ (x : Transport) a q, (x.routeSample a q).state = x.state ∧ (x.routeSample a q).pickWait = x.pickWait := by
    intro x a q; unfold Transport.routeSample; split
    · split
      · split <;> exact ⟨rfl, rfl⟩
      · split
        · split
          · split
            · exact ⟨rfl, rfl⟩
            · exact run x _ _ _
          · exact ⟨rfl, rfl⟩
        · exact gap x a
      · exact ⟨rfl, rfl⟩
      · exact ⟨rfl, rfl⟩
    · exact ⟨rfl, rfl⟩
  unfold Transport.count Transport.sampleCount
  split
  · split
    · exact ⟨rfl, rfl⟩
    · split
      · exact ⟨rfl, rfl⟩
      · exact route _ _ _
  · exact ⟨rfl, rfl⟩

theorem completes_encoderCount (t : TransportNo) (line : EncLine) (adc : BitVec 10) (s : State) :
    Completes (.encoderCount t line adc) s := by
  by_cases h : (s.tr t).pos.counts line = true
  · set f := (s.tr t).pos.goesForward line with hf
    have e : exec (.encoderCount t line adc) s =
        .next (((s.modTr t (·.count line adc f)).captureCount t .front f).captureCount t .back f) := by
      show execEncoderCount t line adc s = _
      unfold execEncoderCount; exact if_pos h
    have h1 : Kept [] s (s.modTr t (·.count line adc f)) := kept_modTr (Transport.safe_count _ line adc f) (count_control _ line adc f)
    have h2 : ∀ (v : State) (sd : Side), Kept [] v (v.captureCount t sd f) := fun v sd =>
      kept_of_outside (safe_captureCount t sd v f) (capturesOnly_captureCount v t sd f).outside
        (capturesOnly_captureCount v t sd f).sameWaits
    exact ⟨_, e, h1.trans ((h2 _ .front).trans (h2 _ .back))⟩
  · exact ⟨s, if_neg h, .refl _ s⟩

theorem completes_uncountedEncoderEdge (t : TransportNo) (line : EncLine) (s : State) : Completes (.uncountedEncoderEdge t line) s := by
  have flip : ∀ x : Transport, x.Safe [] { x with pos := x.pos.flip line } := fun x => by
    cases line <;> exact Transport.SameContents.safeSame {} {}
  by_cases h : (s.tr t).pos.counts line = true
  · exact ⟨s, if_pos h, .refl _ s⟩
  · exact ⟨_, if_neg h, kept_modTr (flip _) ⟨rfl, rfl⟩⟩

theorem mild_unverified (r : SheetRecord) : r.Mild r.unverified := {}

theorem completes_encoderSkip (t : TransportNo) (s : State) : Completes (.encoderSkip t) s := by
  refine ⟨_, rfl, kept_modTr (Transport.SameContents.safeSame { skip := fun _ => ?_, track := ?_ } {}) ⟨rfl, rfl⟩⟩
  · exact Nat.min_le_left ..
  · exact List.forall₂_map_right_iff.mpr (List.forall₂_same.mpr fun r _ => mild_unverified r)

theorem rawEdge_control (x : Transport) (sn : Sensor) : (x.rawEdge sn).state = x.state ∧ (x.rawEdge sn).pickWait = x.pickWait := by
  unfold Transport.rawEdge Transport.beginMeasurement
  dsimp only
  split
  · exact ⟨rfl, rfl⟩
  · split
    · exact ⟨rfl, rfl⟩
    · split
      · split <;> exact ⟨rfl, rfl⟩
      · exact ⟨rfl, rfl⟩

/-- What the resolution of a pending change goes through leaves host memory and the queue alone. -/
theorem quiet_heldSteps (t : TransportNo) (sn : Sensor) : ∀ f ∈ heldSteps t sn, ∀ s : State, s.Quiet (f s) := by
  intro f hf s
  cases sn with
  | station st =>
    simp only [heldSteps, List.mem_cons, List.not_mem_nil, or_false] at hf
    rcases hf with rfl | rfl | rfl
    · exact Quiet.ite (s.quiet_takeMarkExpiry t) (.refl s)
    · exact s.quiet_takeTrailExpiry t st
    · exact s.quiet_takeLeadExpiry t st
  | trayEmpty => cases hf
  | coverOpen => cases hf

/-- The resolution of a pending change leaves host memory and the queue alone. -/
theorem resolve_outside (s : State) (t : TransportNo) (sn : Sensor) :
    (s.resolve t sn).pending = s.pending ∧ (s.resolve t sn).hostMem = s.hostMem := by
  refine resolution_induction t sn (P := fun v => v.pending = s.pending ∧ v.hostMem = s.hostMem) ?_ fun f hf v h => ?_
  · unfold acceptChange
    dsimp only
    split
    · exact ⟨rfl, rfl⟩
    · split
      · exact ⟨(quiet_deliver _ t sn _ _).pending, (quiet_deliver _ t sn _ _).hostMem⟩
      · split <;> exact ⟨rfl, rfl⟩
  · have q := quiet_heldSteps t sn f hf v
    exact ⟨q.pending.trans h.1, q.hostMem.trans h.2⟩

theorem kept_resolveStep {cells : List Host.Cell} (h : Kept [] s u) (before : State) (t : TransportNo) (sn : Sensor) :
    Kept cells s (u.resolveStep before t sn) := by
  obtain ⟨hp, hm⟩ := resolve_outside u t sn
  exact h.trans (Kept.finishWrite (safe_resolve t u sn) hp ⟨[], fun _ hc => by simp at hc, hm⟩ _ _ _)

theorem completes_sensorRawEdge (t : TransportNo) (sn : Sensor) (s : State) : Completes (.sensorRawEdge t sn) s := by
  have h : ∀ cells, Kept cells s (s.modTr t (·.rawEdge sn)) := fun _ => kept_modTr (Transport.safe_rawEdge _ sn) (rawEdge_control _ sn)
  by_cases hd : (s.tr t).pos.debounce = 0
  · exact ⟨_, if_pos hd, kept_resolveStep (h []) s t sn⟩
  · exact ⟨_, if_neg hd, h _⟩

theorem completes_debounceHoldExpiry (t : TransportNo) (sn : Sensor) (s : State) : Completes (.debounceHoldExpiry t sn) s := by
  by_cases h : ((s.tr t).pos.sensor sn).pending.isSome = true
  · exact ⟨_, if_pos h, kept_resolveStep (.refl [] s) s t sn⟩
  · exact ⟨_, if_neg h, .refl _ s⟩

theorem completes_reflectiveTransition (t : TransportNo) (s : State) : Completes (.reflectiveTransition t) s :=
  ⟨_, rfl, kept_modTr (Transport.SameContents.safeSame { pulses := Transport.transition_pulses _ _ } {}) ⟨rfl, rfl⟩⟩

theorem completes_pickMiss (t : TransportNo) (s : State) : Completes (.pickMiss t) s := by
  show ∃ u, execPickMiss t s = .next u ∧ Kept _ s u
  unfold execPickMiss
  dsimp only
  split
  · next r hr =>
    rw [Result.next_ite]
    refine ⟨_, rfl, ?_⟩
    split
    · exact Kept.finish (safe_pickMissed t s (List.mem_of_find?_eq_some hr)) (s.quiet_pickMissed t r) s [] []
    · exact .refl _ s
  · exact ⟨s, rfl, .refl _ s⟩

/-- A guarded event that reaches a state and goes to the end of its step. -/
theorem kept_guarded {p : Prop} [Decidable p] {cells : List Host.Cell} (h : p → s.Safe [] v []) (q : p → s.Quiet v)
    (before : State) (path : List State) (forced : List TransportNo) :
    ∃ u, (if p then (.next (v.finishVia before path forced) : Result) else .next s) = .next u ∧ Kept cells s u := by
  rw [Result.next_ite]
  refine ⟨_, rfl, ?_⟩
  split
  · next hp => exact Kept.finish (h hp) (q hp) before path forced
  · exact .refl _ s

theorem completes_leadWindowEndPassed (t : TransportNo) (st : Station) (s : State) : Completes (.leadWindowEndPassed t st) s :=
  kept_guarded (fun _ => safe_takeStop t s (by decide)) (fun _ => s.quiet_takeStop t _) s [] []

theorem completes_trailDeadlinePassed (t : TransportNo) (st : Station) (s : State) : Completes (.trailDeadlinePassed t st) s :=
  kept_guarded (fun _ => safe_takeStop t s (by decide)) (fun _ => s.quiet_takeStop t _) s [] []

theorem completes_runInDone (t : TransportNo) (s : State) : Completes (.runInDone t) s :=
  kept_guarded (fun h => .modTr_nil (Transport.safe_finishRunIn _ h.1)) (fun _ => Quiet.modTr fun x => x.keeps_finishRunIn) s [] []

theorem completes_gapMet (t : TransportNo) (s : State) : Completes (.gapMet t) s := by
  show ∃ u, execGapMet t s = .next u ∧ Kept _ s u
  unfold execGapMet
  split
  · next r _ =>
    exact ⟨_, rfl, Kept.finish (.modTr_nil (Transport.safe_modRecord_mild _ r.id (f := fun q => { q with gap := .met }) fun _ => {}))
      (Quiet.modTr fun x => x.keeps_modRecord _ _) s [] []⟩
  · exact ⟨s, rfl, .refl _ s⟩

theorem completes_captureWindowStart (t : TransportNo) (sd : Side) (s : State) : Completes (.captureWindowStart t sd) s := by
  show ∃ u, execCaptureWindowStart t sd s = .next u ∧ Kept _ s u
  unfold execCaptureWindowStart
  split
  · next r hr =>
    refine ⟨_, rfl, Kept.finish (safe_captureStart t sd s fun p => ?_) (s.quiet_captureStart t sd r.id) s [] []⟩
    have hw := List.find?_some hr
    simp only [Bool.and_eq_true, beq_iff_eq] at hw
    refine p.live_of_image (sd := sd) (List.mem_of_find?_eq_some hr) ?_
    rintro (h | h) <;> rw [hw.1] at h <;> cases h
  · exact ⟨s, rfl, .refl _ s⟩

theorem completes_captureWindowEnd (t : TransportNo) (sd : Side) (s : State) : Completes (.captureWindowEnd t sd) s := by
  show ∃ u, execCaptureWindowEnd t sd s = .next u ∧ Kept _ s u
  unfold execCaptureWindowEnd
  split
  · next r hr =>
    have hm := List.mem_of_find?_eq_some hr
    have hw := List.find?_some hr
    simp only [Bool.and_eq_true, beq_iff_eq] at hw
    refine ⟨_, rfl, Kept.finish (safe_captureEnd t sd s fun p => ⟨p.2.1 r hm, fun q hq hid => ?_⟩)
      (s.quiet_captureEnd t sd r.id) s [] []⟩
    rw [p.eq_of_id hm hq hid]; exact hw.1
  · exact ⟨s, rfl, .refl _ s⟩

theorem completes_markWindowEnd (t : TransportNo) (s : State) : Completes (.markWindowEnd t) s :=
  kept_guarded (fun _ => safe_takeMarkExpiry t s) (fun _ => s.quiet_takeMarkExpiry t) s [] []

theorem completes_stallTimerExpiry (t : TransportNo) (s : State) : Completes (.stallTimerExpiry t) s := by
  show ∃ u, execStallTimerExpiry t s = .next u ∧ Kept _ s u
  unfold execStallTimerExpiry
  dsimp only
  split
  · split
    · exact ⟨_, rfl, Kept.finish (safe_takeStop t s (by decide)) (s.quiet_takeStop t _) s [] []⟩
    · exact kept_guarded (fun _ => .modTr_nil (Transport.safe_motorOff _)) (fun _ => Quiet.modTr fun x => x.keeps_motorOff) s [] []
  · exact ⟨s, rfl, .refl _ s⟩

theorem completes_runOffTimerExpiry (t : TransportNo) (s : State) : Completes (.runOffTimerExpiry t) s :=
  kept_guarded (fun _ => .modTr_nil (Transport.safe_motorOff _)) (fun _ => Quiet.modTr fun x => x.keeps_motorOff) s [] []

theorem completes_packetWaitExpiry (t : TransportNo) (sd : Side) (s : State) : Completes (.packetWaitExpiry t sd) s :=
  kept_guarded (fun _ => safe_repairAndComplete t sd s) (fun _ => s.quiet_repairAndComplete t sd) s [] []

theorem completes_linePacket (t : TransportNo) (sd : Side) (bytes : List Byte) (s : State) : Completes (.linePacket t sd bytes) s :=
  ⟨_, rfl, Kept.finish (safe_packet t sd s bytes) (s.quiet_packet t sd bytes) s [] []⟩

end Sys2Proof.Machine
end

/-! PROOFS. The commands of the registers, the sweeps, the transports' control blocks, the tickets and the lanes answer a next state
and keep what each step keeps. -/

section

namespace Sys2Proof.Machine

open State

variable {s u v : State} {t : TransportNo} {cells : List Host.Cell}

namespace Transport

variable (x : Transport)

theorem keeps_halted : x.KeepsPath x.halted := by
  unfold halted
  split
  · exact .refl x
  · exact KeepsPath.trans (y := ({ x with state := .off, coverWait := false } : Transport).motorOff)
      (keeps_motorOff { x with state := .off, coverWait := false }) ⟨rfl, rfl⟩
  · exact ⟨rfl, rfl⟩
  · split <;> exact ⟨rfl, rfl⟩
  · exact KeepsPath.trans (y := ({ x with state := .draining, purpose := .halt } : Transport).motorOff)
      (keeps_motorOff { x with state := .draining, purpose := .halt }) (keeps_freshEntry _)
  · split <;> exact ⟨rfl, rfl⟩

theorem keeps_disabled : x.KeepsPath x.disabled := x.keeps_motorOff.trans ⟨rfl, rfl⟩

theorem keeps_paused : x.KeepsPath x.paused := by
  unfold paused
  split
  · exact KeepsPath.trans (y := { x with state := .paused, purpose := .none, coverWait := false }) ⟨rfl, rfl⟩ (keeps_beginRunOff _)
  · exact ⟨rfl, rfl⟩

theorem keeps_enterDraining (p : Purpose) : x.KeepsPath (x.enterDraining p) := by
  unfold enterDraining
  dsimp only
  split
  · exact ⟨rfl, rfl⟩
  · exact KeepsPath.trans (y := ({ x with state := .draining, purpose := p, stopReason := .none } : Transport).freshEntry)
      ⟨rfl, rfl⟩ (keeps_startMotor _)

theorem keeps_leaveHeld : x.KeepsPath x.leaveHeld := by
  unfold leaveHeld
  split
  · exact KeepsPath.trans (y := { x with stopReason := .none }) ⟨rfl, rfl⟩ (keeps_enterRunning _)
  · split
    · exact ⟨rfl, rfl⟩
    · exact x.keeps_enterDraining _
  all_goals exact x.keeps_enterDraining _

end Transport

/-- An offender disposed of, before the end of the step (R149). -/
theorem quiet_dispose (s : State) (t : TransportNo) (gives : Bool) {f : Transport → SheetRecord → Transport}
    {g : Transport → Transport} (hf : ∀ (x : Transport) r, x.KeepsPath (f x r)) (hg : ∀ x : Transport, x.KeepsPath (g x)) :
    s.Quiet (s.dispose t gives f g) := by
  have h : ∀ r, s.Quiet (s.modTr t fun x => g (f x r)) := fun r => Quiet.modTr fun x => (hf x r).trans (hg _)
  unfold dispose
  split
  · exact Quiet.modTr hg
  · next r _ => exact Quiet.ite ((h r).trans (quiet_returnSides _ r)) (h r)

theorem quiet_abortHeld (s : State) (t : TransportNo) : s.Quiet (s.abortHeld t) := by
  refine Quiet.trans (Quiet.modTr (f := (·.removeWithdrawn)) fun _ => ⟨rfl, rfl⟩) (quiet_dispose _ t true (fun _ _ => ⟨rfl, rfl⟩)
    fun x => ?_)
  exact Transport.KeepsPath.trans (y := { x with haltRequest := x.haltRequest || x.purpose == .halt }) ⟨rfl, rfl⟩
    (Transport.keeps_enterDraining _ _)

/-! ### Registers -/

theorem kept_modRoom {f : RoomInterface → RoomInterface} (h : (f s.room).setupRead = s.room.setupRead) : Kept cells s (s.modRoom f) :=
  .aside (.modRoom h) rfl rfl rfl

theorem kept_writePeriod (s : State) (p : Byte) : Kept cells s (s.writePeriod p) := by
  unfold writePeriod; split
  · exact .refl _ s
  · exact kept_modRoom rfl

theorem kept_requestSweep (s : State) : Kept cells s s.requestSweep := by
  unfold requestSweep; split
  · exact kept_modRoom rfl
  · exact kept_modRoom rfl

theorem completes_rbaseWrite (high : Bool) (w : Word) (s : State) : Completes (.rbaseWrite high w) s := by
  by_cases h : s.room.part = .halted
  · exact ⟨_, if_pos h, kept_modRoom (by cases high <;> rfl)⟩
  · exact ⟨s, if_neg h, .refl _ s⟩

theorem kept_takeStart (s : State) : Kept cells s s.takeStart := by
  unfold takeStart
  split
  · split
    · exact kept_modRoom rfl
    · split
      · exact kept_modRoom rfl
      · exact kept_modRoom rfl
  · exact .refl _ s

theorem completes_start (p : Byte) (s : State) : Completes (.start p) s :=
  ⟨_, rfl, (kept_writePeriod s p).trans (kept_takeStart _)⟩

/-- A header that passes is loaded (R162). -/
theorem kept_loadHeader (s : State) (base : Addr) (h : Header) : Kept cells s (s.loadHeader base h) := by
  have hs := safe_loadHeader (l := []) s base h
  unfold loadHeader at hs ⊢
  extract_lets _ s2 at hs ⊢
  set s3 := s2.setHold { s2.hold with lowMark := h.lowMark, below := false }
  have hq : s3.refreshMark.requestSweep.transports = s.transports := by
    unfold requestSweep; split <;> exact (refreshMark_transports s3)
  have ho := s3.outside_refreshMark
  have hp : s3.refreshMark.requestSweep.pending = s.pending ∧ s3.refreshMark.requestSweep.hostMem = s.hostMem := by
    unfold requestSweep; split <;> exact ⟨ho.pending, ho.hostMem⟩
  exact .aside hs hq hp.1 hp.2

theorem kept_judgeStart (s : State) (base : Addr) (header : MemRead) : Kept cells s (s.judgeStart base header) := by
  unfold judgeStart
  split
  · exact (kept_modRoom rfl).trans (.aside .setEvent rfl rfl rfl)
  · dsimp only
    split
    · exact (kept_loadHeader s base _).trans (Kept.finish (.refl _ []) (.refl _) s [] allTransports)
    · exact kept_modRoom rfl

theorem completes_startHeaderReadDone (header : MemRead) (s : State) : Completes (.startHeaderReadDone header) s := by
  show ∃ u, execStartHeaderReadDone header s = .next u ∧ Kept _ s u
  unfold execStartHeaderReadDone
  split
  · exact ⟨_, rfl, kept_judgeStart s _ header⟩
  · exact ⟨s, rfl, .refl _ s⟩

theorem kept_takeHalt (s : State) : Kept cells s s.takeHalt := by
  unfold takeHalt
  split
  · have h : Kept [] s (s.modRoom fun r => { r with part := .halting }) := kept_modRoom rfl
    exact h.trans (Kept.finish (safe_eachTransport (fun x => x.safe_halted) _)
      (quiet_eachTransport _ fun x => x.keeps_halted) s [] [])
  · exact .refl _ s

theorem completes_halt (p : Byte) (s : State) : Completes (.halt p) s := ⟨_, rfl, (kept_writePeriod s p).trans (kept_takeHalt _)⟩

theorem completes_pollPeriodWrite (p : Byte) (s : State) : Completes (.pollPeriodWrite p) s := ⟨_, rfl, kept_writePeriod s p⟩

theorem completes_registerWrite (reg : InertRegister) (w : Word) (s : State) : Completes (.registerWrite reg w) s := by
  cases reg with
  | evt => exact ⟨s, rfl, .refl _ s⟩
  | evtact => exact ⟨s, rfl, .refl _ s⟩
  | runctlReadOnly => exact ⟨_, rfl, kept_writePeriod s _⟩

theorem completes_evtclrWrite (w : Word) (s : State) : Completes (.evtclrWrite w) s := ⟨_, rfl, kept_modRoom rfl⟩

theorem completes_evtenWrite (w : Word) (s : State) : Completes (.evtenWrite w) s := ⟨_, rfl, kept_modRoom rfl⟩

theorem completes_partHalted (s : State) : Completes .partHalted s := by
  show ∃ u, execPartHalted s = .next u ∧ Kept _ s u
  unfold execPartHalted
  split
  · exact ⟨_, rfl, (kept_modRoom rfl).trans (.aside .setEvent rfl rfl rfl)⟩
  · exact ⟨s, rfl, .refl _ s⟩

/-! ### Sweeps, answers and status blocks -/

theorem completes_pollTimerExpiry (s : State) : Completes .pollTimerExpiry s := by
  show ∃ u, execPollTimerExpiry s = .next u ∧ Kept _ s u
  unfold execPollTimerExpiry
  split
  · exact ⟨_, rfl, (kept_requestSweep s).trans (kept_modRoom rfl)⟩
  · exact ⟨s, rfl, .refl _ s⟩

theorem completes_sweepWrite (w : Word) (s : State) : Completes (.sweepWrite w) s := by
  show ∃ u, execSweepWrite w s = .next u ∧ Kept _ s u
  unfold execSweepWrite
  split
  · exact ⟨_, rfl, kept_requestSweep s⟩
  · exact ⟨s, rfl, .refl _ s⟩

theorem kept_examine (s : State) (n : LaneNo) (link turn : Option MemRead) : Kept cells s (s.examine n link turn) := by
  unfold examine
  split
  · split
    · exact .refl _ s
    · exact .aside .setEvent rfl rfl rfl
    · split
      · exact .refl _ s
      · exact .aside .modLane rfl rfl rfl
  · exact .refl _ s

theorem kept_endSweep (s : State) : Kept cells s s.endSweep := by
  unfold endSweep
  split
  · exact Kept.trans (kept_modRoom rfl) (kept_modRoom rfl)
  · exact kept_modRoom rfl

theorem kept_foldl {α : Type} {f : State → α → State} (h : ∀ (s : State) (a : α), Kept [] s (f s a)) (s : State) (as : List α) :
    Kept [] s (as.foldl f s) := by
  induction as generalizing s with
  | nil => exact .refl [] s
  | cons a rest ih => exact (h s a).trans (ih _)

theorem completes_sweepEnd (links turns : List LaneRead) (s : State) : Completes (.sweepEnd links turns) s := by
  show ∃ u, execSweepEnd links turns s = .next u ∧ Kept _ s u
  unfold execSweepEnd
  split
  · exact ⟨_, rfl, (kept_foldl (f := fun s n => s.examine n (readFor links n) (readFor turns n))
      (fun s n => kept_examine s n _ _) s allLanes).trans (kept_endSweep _)⟩
  · exact ⟨s, rfl, .refl _ s⟩

theorem written_hostWrite (s : State) (r : BusWrite) (cells : List Host.Cell) :
    ∃ w : List Host.Cell, (∀ c ∈ w, c ∈ cells) ∧ (s.hostWrite r cells).hostMem = writeCells w s.hostMem :=
  ⟨landedCells r cells, fun _ => mem_of_mem_landedCells, rfl⟩

/-- What follows a write and changes no memory leaves the queue and the memory as the write left them. -/
theorem written_then (s : State) (r : BusWrite) (cells : List Host.Cell) (q : (s.hostWrite r cells).Quiet u) :
    u.pending = s.pending ∧ ∃ w : List Host.Cell, (∀ c ∈ w, c ∈ cells) ∧ u.hostMem = writeCells w s.hostMem := by
  obtain ⟨w, hw, hm⟩ := written_hostWrite s r cells
  exact ⟨q.pending, w, hw, by rw [q.hostMem]; exact hm⟩

/-- A write that ends with nothing but the Room Interface changed beside it. -/
theorem kept_hostWrite (s : State) (r : BusWrite) (cells : List Host.Cell) (h : (s.hostWrite r cells).Safe [] u [])
    (ht : u.transports = s.transports) (hp : u.pending = s.pending) (hm : u.hostMem = (s.hostWrite r cells).hostMem) :
    Kept cells s u := by
  obtain ⟨w, hw, e⟩ := written_hostWrite s r cells
  exact ⟨Safe.hostWrite.trans h, hp, ⟨w, hw, hm.trans e⟩, (KeepsWait.of_transports ht).waitLaw⟩

theorem completes_answerWriteDone (r : BusWrite) (s : State) : Completes (.answerWriteDone r) s := by
  show ∃ u, execAnswerWriteDone r s = .next u ∧ Kept _ s u
  unfold execAnswerWriteDone
  split
  · exact ⟨s, rfl, .refl _ s⟩
  · next w _ =>
    have h1 : (s.hostWrite r s.answerInFlight).Safe [] ((s.hostWrite r s.answerInFlight).modRoom fun r => { r with answer := none }) [] :=
      .modRoom rfl
    cases r with
    | ok => exact ⟨_, rfl, kept_hostWrite s .ok _ (h1.trans .setEvent) rfl rfl rfl⟩
    | busError n =>
      exact ⟨_, rfl, kept_hostWrite s (.busError n) _
        ((h1.trans .setEvent).trans (.modRoom (setupRead_setOwed _ w.block (some w)))) rfl rfl rfl⟩

theorem completes_owedAnswerWrite (b : CommandBlock) (turn : MemRead) (s : State) : Completes (.owedAnswerWrite b turn) s := by
  have served : ∀ w, Kept [] s (s.serveOwed b w turn) := fun w => by
    have hs := safe_serveOwed (l := []) s b w turn
    cases turn <;> exact .aside hs rfl rfl rfl
  show ∃ u, execOwedAnswerWrite b turn s = .next u ∧ Kept _ s u
  unfold execOwedAnswerWrite
  split
  · split
    · next w _ => exact ⟨_, rfl, (served w).trans (kept_modRoom rfl)⟩
    · exact ⟨s, rfl, .refl _ s⟩
  · exact ⟨s, rfl, .refl _ s⟩

theorem completes_statusBlockWriteDone (t : TransportNo) (r : BusWrite) (s : State) : Completes (.statusBlockWriteDone t r) s := by
  show ∃ u, execStatusBlockWriteDone t r s = .next u ∧ Kept _ s u
  unfold execStatusBlockWriteDone
  split
  · exact ⟨s, rfl, .refl _ s⟩
  · next owed _ =>
    refine ⟨_, rfl, kept_hostWrite s r _ (Safe.setEvent.trans (safe_statusEnded t _ owed)) ?_ ?_ ?_⟩
    all_goals unfold statusEnded; cases owed <;> rfl

/-! ### Transport commands -/

theorem kept_sweepPast (s : State) (n : Nat) : Kept cells s (s.sweepPast n) := kept_modRoom rfl

theorem kept_sweepFails (s : State) (n : Nat) : Kept cells s (s.sweepFails n) :=
  .aside (Safe.setEvent.trans (safe_sweepPast _ n)) rfl rfl rfl

theorem kept_answer (s : State) (b : CommandBlock) (c : Answer) (n : Word) : Kept cells s (s.answer b c n) := kept_modRoom rfl

/-- What a command keeps it keeps with its answer given. -/
theorem State.Kept.andAnswer {b : CommandBlock} {c : Answer} {n : Word} (h : Kept cells s u) : Kept cells s (u.answer b c n) :=
  ⟨h.safe.trans (safe_answer u b c n), h.pending, h.written, h.waits⟩

/-- The reads of a sweep in a control block (R167, R168). -/
theorem completes_readControl (s : State) (t : TransportNo) (block : MemRead) (k : ControlCommand) {act : Word → State → State}
    (h : ∀ n v, Kept cells v (act n v)) : ∃ u, s.readControl t block k act = .next u ∧ Kept cells s u := by
  unfold readControl
  split
  · split
    · exact ⟨_, rfl, kept_sweepFails s _⟩
    · split
      · exact ⟨_, rfl, (kept_sweepPast s _).trans (h _ _)⟩
      · exact ⟨s, rfl, .refl _ s⟩
  · exact ⟨s, rfl, .refl _ s⟩

theorem completes_command (s : State) (t : TransportNo) (block : MemRead) (k : ControlCommand) {act : State → Answer × State}
    (h : ∀ v, Kept cells v (act v).2) : ∃ u, s.command t block k act = .next u ∧ Kept cells s u :=
  completes_readControl s t block k fun _ v => (h v).andAnswer

theorem State.Kept.finished (h : s.Safe [] v []) (q : s.Quiet v) (before : State) (forced : List TransportNo) :
    Kept cells s (v.finish before forced) := Kept.finish h q before [] forced

/-- A command taken in one state of its transport, with the end of its step; BUSY elsewhere (R22). -/
theorem kept_taken {p : Prop} [Decidable p] {a b : Answer} (h : p → s.Safe [] v []) (q : p → s.Quiet v) :
    Kept cells s (if p then (a, v.finish s []) else (b, s)).2 := by
  split
  · dsimp only
    next hp => exact Kept.finished (h hp) (q hp) s []
  · exact .refl _ s

theorem completes_enable (t : TransportNo) (block : MemRead) (s : State) : Completes (.enable t block) s := by
  show ∃ u, execEnable t block s = .next u ∧ Kept _ s u
  refine completes_readControl s t block .enable fun n v => ?_
  split
  · exact kept_answer _ _ _ _
  · split
    · next hoff =>
      refine ⟨⟨rfl, fun b => b, fun c => ⟨c.core, fun i k e => ?_⟩, fun p => ⟨p.pool, p.reserved, p.records⟩⟩, rfl,
        ⟨[], fun _ hc => by simp at hc, rfl⟩, id⟩
      cases e
      exact hoff
    · exact kept_answer _ _ _ _

theorem completes_setupReadDone (t : TransportNo) (setup : MemRead) (s : State) : Completes (.setupReadDone t setup) s := by
  show ∃ u, execSetupReadDone t setup s = .next u ∧ Kept _ s u
  unfold execSetupReadDone
  split
  · next i n hr =>
    have clear : Kept [] s (s.modRoom fun r => { r with setupRead := none }) :=
      .aside (.same rfl rfl rfl rfl fun _ e => by cases e) rfl rfl rfl
    split
    · next e =>
      subst e
      refine ⟨_, rfl, Kept.trans ?_ (kept_answer _ _ _ _)⟩
      unfold judgeSetup
      split
      · exact clear.trans (.aside .setEvent rfl rfl rfl)
      · split
        · exact clear
        · next b _ =>
          dsimp only
          exact Kept.finishWrite (safe_load i s b hr) rfl ⟨[], fun _ hc => by simp at hc, rfl⟩
            (s.modRoom fun r => { r with setupRead := none }) [] []
    · exact ⟨s, rfl, .refl _ s⟩
  · exact ⟨s, rfl, .refl _ s⟩

theorem completes_disable (t : TransportNo) (block : MemRead) (s : State) : Completes (.disable t block) s :=
  completes_command s t block .disable fun _ => kept_taken (fun h => .modTr_nil (Transport.safe_disabled _ h))
    fun _ => Quiet.modTr fun x => x.keeps_disabled

theorem completes_pause (t : TransportNo) (block : MemRead) (s : State) : Completes (.pause t block) s :=
  completes_command s t block .pause fun _ => kept_taken (fun h => .modTr_nil (Transport.safe_paused _ h))
    fun _ => Quiet.modTr fun x => x.keeps_paused

theorem completes_resume (t : TransportNo) (block : MemRead) (s : State) : Completes (.resume t block) s := by
  have resumed : ∀ x : Transport, x.state = .paused → x.Safe [] ({ x with retries := 0 } : Transport).enterRunning := fun x h =>
    (Transport.SameContents.safeSame (y := { x with retries := 0 }) {} {}).trans_nil (Transport.safe_enterRunning _ (.inr h))
  exact completes_command s t block .resume fun v => kept_taken
    (fun h => .modTr_nil (f := fun x => ({ x with retries := 0 } : Transport).enterRunning) (resumed _ h))
    fun _ => Quiet.modTr fun x => Transport.keeps_enterRunning _

theorem completes_abort (t : TransportNo) (block : MemRead) (s : State) : Completes (.abort t block) s := by
  show ∃ u, execAbort t block s = .next u ∧ Kept _ s u
  refine completes_command s t block .abort fun v => ?_
  split
  · next h =>
    dsimp only
    exact Kept.finished (.modTr_nil (f := fun x => { x with state := .draining, purpose := .abort })
      (Transport.safe_drain _ (by decide) h)) (Quiet.modTr fun x => ⟨rfl, rfl⟩) v []
  · next h =>
    dsimp only
    exact Kept.finished (.modTr_nil
      (f := fun x => ({ x with state := .draining, purpose := .abort } : Transport).motorOff.freshEntry)
      (Transport.safe_drainPaused _ (by decide) h)) (Quiet.modTr fun x =>
        Transport.KeepsPath.trans (y := ({ x with state := .draining, purpose := .abort } : Transport).motorOff)
          (Transport.keeps_motorOff { x with state := .draining, purpose := .abort }) (Transport.keeps_freshEntry _)) v []
  · next h => exact kept_taken (fun _ => safe_abortHeld t v h) fun _ => quiet_abortHeld v t
  all_goals exact .refl _ v

theorem completes_rule (s : State) (t : TransportNo) (block : MemRead) (k : Ruling) (gives : Bool)
    {f : Transport → SheetRecord → Transport} (hk : ∀ (x : Transport) r, x.KeepsPath (f x r))
    (hf : ∀ x : Transport, ∀ r ∈ x.track, x.Safe (if gives then r.pages else []) (f x r) ∧ (f x r).state = x.state) :
    ∃ u, s.rule t block k gives f = .next u ∧ Kept cells s u := by
  refine completes_command s t block (.rule k) fun v => ?_
  dsimp only
  split
  · next ha =>
    have hheld : (v.tr t).state = .held := by
      unfold Transport.judgeRule at ha
      by_contra h
      rw [if_pos h] at ha
      cases ha
    dsimp only
    exact Kept.finished (safe_ruling t v gives hheld hf)
      ((Quiet.modTr (f := (·.removeWithdrawn)) fun _ => ⟨rfl, rfl⟩).trans (quiet_dispose _ t gives hk fun x => x.keeps_leaveHeld)) v []
  · exact .refl _ v

theorem keeps_release (m : RulingMark) (x : Transport) (r : SheetRecord) : x.KeepsPath (x.release m r) := ⟨rfl, rfl⟩

theorem completes_ruleAccept (t : TransportNo) (block : MemRead) (s : State) : Completes (.ruleAccept t block) s :=
  completes_rule s t block .accept false (keeps_release .accepted) fun x r _ => ⟨Transport.safe_release x .accepted r, rfl⟩

theorem completes_ruleReview (t : TransportNo) (block : MemRead) (s : State) : Completes (.ruleReview t block) s :=
  completes_rule s t block .review false (keeps_release .review) fun x r _ => ⟨Transport.safe_release x .review r, rfl⟩

theorem completes_ruleRefeed (t : TransportNo) (block : MemRead) (s : State) : Completes (.ruleRefeed t block) s :=
  completes_rule s t block .refeed true (f := Transport.refeed) (fun _ _ => ⟨rfl, rfl⟩) fun x _ hr =>
    ⟨Transport.safe_refeed x hr, rfl⟩

theorem completes_ruleDiscard (t : TransportNo) (block : MemRead) (s : State) : Completes (.ruleDiscard t block) s :=
  completes_rule s t block .discard true (f := Transport.discardOffender) (fun _ _ => ⟨rfl, rfl⟩) fun x _ hr =>
    ⟨Transport.safe_discardOffender x hr, rfl⟩

theorem completes_ruleClear (t : TransportNo) (block : MemRead) (s : State) : Completes (.ruleClear t block) s :=
  completes_rule s t block .clear false (f := fun x _ => x) (fun x _ => .refl x) fun x _ _ => ⟨.refl x, rfl⟩

theorem completes_unknownCommand (t : TransportNo) (block : MemRead) (s : State) : Completes (.unknownCommand t block) s :=
  completes_command s t block .unknown fun v => .refl _ v

/-! ### Tickets -/

theorem kept_batch (s : State) (t : TransportNo) (b : BatchContext) : Kept cells s (s.modTr t fun x => { x with batch := b }) :=
  kept_modTr (Transport.safe_batch _ b) ⟨rfl, rfl⟩

theorem kept_setEvent (s : State) (e : Event) : Kept cells s (s.setEvent e) := .aside .setEvent rfl rfl rfl

theorem completes_ticketTake (t : TransportNo) (link turn : MemRead) (s : State) : Completes (.ticketTake t link turn) s := by
  show ∃ u, execTicketTake t link turn s = .next u ∧ Kept _ s u
  unfold execTicketTake
  split
  · refine ⟨_, rfl, Kept.trans ?_ (kept_sweepPast _ _)⟩
    unfold noteCandidate
    dsimp only
    split
    · exact (kept_batch s t _).trans (kept_setEvent _ _)
    · exact kept_batch s t _
  · exact ⟨s, rfl, .refl _ s⟩

theorem kept_endTake (s : State) (t : TransportNo) (a : Addr) (o : TakeOutcome) (h : (s.tr t).state = .ready) :
    Kept cells s (s.endTake t a o) := by
  cases o with
  | abandoned => exact (kept_batch s t _).trans (kept_setEvent _ _)
  | refused reason => exact kept_batch s t _
  | start k main alt routes lane =>
    exact Kept.finishWrite (.modTr_nil (f := fun x => x.startBatch (x.newBatch a k main alt routes lane))
      (Transport.safe_startBatch _ _ h)) rfl ⟨[], fun _ hc => by simp at hc, rfl⟩ s [] []

theorem completes_ticketTakeDone (t : TransportNo) (ticket main alt route : MemRead) (s : State) :
    Completes (.ticketTakeDone t ticket main alt route) s := by
  show ∃ u, execTicketTakeDone t ticket main alt route s = .next u ∧ Kept _ s u
  unfold execTicketTakeDone
  split
  · exact ⟨s, rfl, .refl _ s⟩
  · split
    · next h => exact ⟨_, rfl, kept_endTake s t _ _ h⟩
    · exact ⟨s, rfl, .refl _ s⟩

theorem kept_outcomeWritten (s : State) (r : BusWrite) (cells : List Host.Cell) (t : TransportNo) (w : OutcomeWrite) {u : State}
    (hu : u = (s.hostWrite r cells).modTr t fun x => { x with batch := x.batch.finished w }) (forced : List TransportNo) :
    Kept cells s (u.finish s forced) ∧ Kept cells s ((u.setEvent .memfault).finish s forced) := by
  have h1 : s.Safe [] u [] := hu ▸ Safe.hostWrite.trans (.modTr_nil (Transport.safe_batch _ _))
  have q : (s.hostWrite r cells).Quiet u := hu ▸ Quiet.modTr fun _ => ⟨rfl, rfl⟩
  have q2 := written_then s r cells (q.trans (.setEvent (e := .memfault)))
  exact ⟨Kept.finishWrite h1 (written_then s r cells q).1 (written_then s r cells q).2 s [] forced,
    Kept.finishWrite (h1.trans .setEvent) q2.1 q2.2 s [] forced⟩

theorem completes_outcomeWriteDone (t : TransportNo) (r : BusWrite) (s : State) : Completes (.outcomeWriteDone t r) s := by
  show ∃ u, execOutcomeWriteDone t r s = .next u ∧ Kept _ s u
  unfold execOutcomeWriteDone
  split
  · exact ⟨s, rfl, .refl _ s⟩
  · next w hw =>
    have hcells : writtenCells (.outcomeWriteDone t r) s = outcomeCells w := by
      show s.outcomeInFlight t = _
      unfold outcomeInFlight
      rw [hw]; rfl
    rw [hcells]
    cases r with
    | ok => exact ⟨_, rfl, (kept_outcomeWritten s .ok _ t w rfl [t]).1⟩
    | busError n => exact ⟨_, rfl, (kept_outcomeWritten s (.busError n) _ t w rfl [t]).2⟩

/-! ### Lanes -/

theorem completes_roomCommand (s : State) (block : MemRead) (k : RoomCommand) {act : Nat → State → Answer × State}
    (h : ∀ n v, Kept cells v (act n v).2) : ∃ u, s.roomCommand block k act = .next u ∧ Kept cells s u := by
  unfold State.roomCommand
  split
  · split
    · exact ⟨_, rfl, kept_sweepFails s _⟩
    · split
      · exact ⟨_, rfl, (kept_sweepPast s _).trans (Kept.andAnswer (h _ _))⟩
      · exact ⟨s, rfl, .refl _ s⟩
  · exact ⟨s, rfl, .refl _ s⟩

theorem completes_laneRestart (block : MemRead) (s : State) : Completes (.laneRestart block) s := by
  show ∃ u, execLaneRestart block s = .next u ∧ Kept _ s u
  refine completes_roomCommand s block .laneRestart fun n v => ?_
  split
  · exact .refl _ v
  · split
    · exact .refl _ v
    · dsimp only
      exact .aside .modLane rfl rfl rfl

theorem completes_laneRestartReadDone (n : LaneNo) (record : MemRead) (s : State) : Completes (.laneRestartReadDone n record) s := by
  have q : s.Quiet (s.restartEnded n record) := by
    unfold restartEnded
    split
    · exact Quiet.modLane.trans .setEvent
    · exact Quiet.modLane.trans (quiet_eachTransport _ fun x => x.keeps_modHeadPiece _)
  exact kept_guarded (fun _ => safe_restartEnded s n record) (fun _ => q) s [] []

theorem quiet_closeLane (s : State) (n : LaneNo) : s.Quiet (s.closeLane n) := by
  unfold closeLane
  dsimp only
  split
  · exact .refl s
  · exact Quiet.ite .modLane (Quiet.ite .modLane .modLane)

theorem completes_laneClose (block : MemRead) (s : State) : Completes (.laneClose block) s := by
  show ∃ u, execLaneClose block s = .next u ∧ Kept _ s u
  refine completes_roomCommand s block .laneClose fun n v => ?_
  split
  · exact .refl _ v
  · next k _ =>
    split
    · exact .refl _ v
    · dsimp only
      exact Kept.finished (safe_closeLane v k) (quiet_closeLane v k) v []

theorem completes_roomUnknownCommand (s : State) : Completes .roomUnknownCommand s := by
  show ∃ u, execRoomUnknownCommand s = .next u ∧ Kept _ s u
  unfold execRoomUnknownCommand
  split
  · exact ⟨_, rfl, (kept_sweepPast s _).trans (kept_answer _ _ _ _)⟩
  · exact ⟨s, rfl, .refl _ s⟩

theorem completes_binTakeDone (n : LaneNo) (link bin : MemRead) (s : State) : Completes (.binTakeDone n link bin) s :=
  ⟨_, rfl, Kept.finished (safe_binTakeEnded s n link bin) (s.quiet_binTakeEnded n link bin) s []⟩

/-- The end of an entry's write (R136, R142). -/
theorem written_entryDone (s : State) (r : BusWrite) : (s.entryDone r).pending = s.pending ∧
    ∃ w : List Host.Cell, (∀ c ∈ w, c ∈ s.entryInFlight) ∧ (s.entryDone r).hostMem = writeCells w s.hostMem := by
  have none : s.pending = s.pending ∧ ∃ w : List Host.Cell, (∀ c ∈ w, c ∈ s.entryInFlight) ∧ s.hostMem = writeCells w s.hostMem :=
    ⟨rfl, [], fun _ hc => by simp at hc, rfl⟩
  unfold entryDone
  split
  · next t ht =>
    split
    · exact none
    · next e p hp =>
      split
      · exact none
      · next b hb =>
        have hcells : s.entryInFlight = entryCells t e p b := by
          unfold entryInFlight
          rw [ht]; dsimp only; rw [hp]; dsimp only; rw [hb, Option.elim_some]
        rw [hcells]
        cases r with
        | ok => exact written_then s .ok _ (quiet_entryWritten _ t e p b)
        | busError n => exact written_then s (.busError n) _ (quiet_entryFault _ t p b)
  all_goals exact none

theorem completes_entryWriteDone (r : BusWrite) (s : State) : Completes (.entryWriteDone r) s := by
  obtain ⟨hp, hw⟩ := written_entryDone s r
  exact ⟨_, rfl, Kept.finishWrite (safe_entryDone s r) hp hw s [] []⟩

/-- The end of a hand-back's writes (R138, R143). -/
theorem written_handBackEnded (s : State) (n : LaneNo) (r : BusWrite) : (s.handBackEnded n r).pending = s.pending ∧
    ∃ w : List Host.Cell, (∀ c ∈ w, c ∈ s.handBackInFlight n) ∧ (s.handBackEnded n r).hostMem = writeCells w s.hostMem := by
  unfold handBackEnded
  split
  · next h b hh hb =>
    have hcells : s.handBackInFlight n = handBackCells b n (s.lane n).sequence h := by
      unfold handBackInFlight
      simp only [hh, hb]
    rw [hcells]
    have q : (s.hostWrite r (handBackCells b n (s.lane n).sequence h)).Quiet (match r with
        | .ok => ((s.hostWrite r (handBackCells b n (s.lane n).sequence h)).modLane n (·.handedBack b.addr)).setEvent (.lane n)
        | .busError _ => ((s.hostWrite r (handBackCells b n (s.lane n).sequence h)).modLane n Lane.handBackFailed).setEvent .memfault) := by
      split
      · exact Quiet.modLane.trans .setEvent
      · exact Quiet.modLane.trans .setEvent
    exact written_then s r _ ((q.trans (quiet_meetRequests _ n)).trans (quiet_afterHandBack _ n))
  · exact ⟨rfl, [], fun _ hc => by simp at hc, rfl⟩

theorem completes_handBackDone (n : LaneNo) (r : BusWrite) (s : State) : Completes (.handBackDone n r) s := by
  obtain ⟨hp, hw⟩ := written_handBackEnded s n r
  exact ⟨_, rfl, Kept.finishWrite (safe_handBackEnded s n r) hp hw s [] []⟩

theorem completes_flushTimerExpiry (n : LaneNo) (s : State) : Completes (.flushTimerExpiry n) s :=
  kept_guarded (fun _ => .modLane) (fun _ => Quiet.modLane) s [] []

/-! ### Every command -/

/-- No command ends the run, and each keeps what a step keeps. -/
theorem completes (c : Instr) (s : State) : Completes c s := by
  cases c with
  | powerOn l0 l1 l2 l3 => exact completes_powerOn l0 l1 l2 l3 s
  | encoderCount t line adc => exact completes_encoderCount t line adc s
  | uncountedEncoderEdge t line => exact completes_uncountedEncoderEdge t line s
  | encoderSkip t => exact completes_encoderSkip t s
  | sensorRawEdge t sn => exact completes_sensorRawEdge t sn s
  | debounceHoldExpiry t sn => exact completes_debounceHoldExpiry t sn s
  | reflectiveTransition t => exact completes_reflectiveTransition t s
  | pickMiss t => exact completes_pickMiss t s
  | leadWindowEndPassed t st => exact completes_leadWindowEndPassed t st s
  | trailDeadlinePassed t st => exact completes_trailDeadlinePassed t st s
  | runInDone t => exact completes_runInDone t s
  | gapMet t => exact completes_gapMet t s
  | captureWindowStart t sd => exact completes_captureWindowStart t sd s
  | captureWindowEnd t sd => exact completes_captureWindowEnd t sd s
  | markWindowEnd t => exact completes_markWindowEnd t s
  | stallTimerExpiry t => exact completes_stallTimerExpiry t s
  | runOffTimerExpiry t => exact completes_runOffTimerExpiry t s
  | packetWaitExpiry t sd => exact completes_packetWaitExpiry t sd s
  | flushTimerExpiry n => exact completes_flushTimerExpiry n s
  | pollTimerExpiry => exact completes_pollTimerExpiry s
  | linePacket t sd bytes => exact completes_linePacket t sd bytes s
  | rbaseWrite high w => exact completes_rbaseWrite high w s
  | start p => exact completes_start p s
  | startHeaderReadDone header => exact completes_startHeaderReadDone header s
  | halt p => exact completes_halt p s
  | softReset p => exact completes_softReset p s
  | pollPeriodWrite p => exact completes_pollPeriodWrite p s
  | sweepWrite w => exact completes_sweepWrite w s
  | evtclrWrite w => exact completes_evtclrWrite w s
  | evtenWrite w => exact completes_evtenWrite w s
  | registerWrite reg w => exact completes_registerWrite reg w s
  | sweepEnd links turns => exact completes_sweepEnd links turns s
  | enable t block => exact completes_enable t block s
  | setupReadDone t setup => exact completes_setupReadDone t setup s
  | disable t block => exact completes_disable t block s
  | pause t block => exact completes_pause t block s
  | resume t block => exact completes_resume t block s
  | abort t block => exact completes_abort t block s
  | ruleAccept t block => exact completes_ruleAccept t block s
  | ruleReview t block => exact completes_ruleReview t block s
  | ruleRefeed t block => exact completes_ruleRefeed t block s
  | ruleDiscard t block => exact completes_ruleDiscard t block s
  | ruleClear t block => exact completes_ruleClear t block s
  | unknownCommand t block => exact completes_unknownCommand t block s
  | laneRestart block => exact completes_laneRestart block s
  | laneRestartReadDone n record => exact completes_laneRestartReadDone n record s
  | laneClose block => exact completes_laneClose block s
  | roomUnknownCommand => exact completes_roomUnknownCommand s
  | owedAnswerWrite b turn => exact completes_owedAnswerWrite b turn s
  | answerWriteDone r => exact completes_answerWriteDone r s
  | ticketTake t link turn => exact completes_ticketTake t link turn s
  | ticketTakeDone t ticket main alt route => exact completes_ticketTakeDone t ticket main alt route s
  | binTakeDone n link bin => exact completes_binTakeDone n link bin s
  | entryWriteDone r => exact completes_entryWriteDone r s
  | handBackDone n r => exact completes_handBackDone n r s
  | statusBlockWriteDone t r => exact completes_statusBlockWriteDone t r s
  | partHalted => exact completes_partHalted s
  | outcomeWriteDone t r => exact completes_outcomeWriteDone t r s

end Sys2Proof.Machine
end

/-! PROOFS. What every command keeps, carried from the commands to a step: memory, bounds, pages and control states. -/

section

namespace Sys2Proof.Machine

open State

/-- Settles O1. -/
theorem stepTakesFront : Obligations.StepTakesFront := by
  refine ⟨fun c rest s => rfl, fun s h => ?_⟩
  unfold step
  rw [h]

/-- Settles O2. -/
theorem everyCommandCompletes : Obligations.EveryCommandCompletes := by
  intro c s
  obtain ⟨u, hu, hk⟩ := completes c s
  exact ⟨u, hu, hk.pending, hk.safe.dram⟩

/-- A command that answers a next state has kept what every command keeps. -/
theorem kept_of_exec {c : Instr} {s u : State} (h : exec c s = .next u) : Kept (writtenCells c s) s u := by
  obtain ⟨v, hv, hk⟩ := completes c s
  rw [hv] at h
  exact Host.Outcome.next.inj h ▸ hk

/-- A step leaves the state alone, or runs a command on the state with the rest of the queue. -/
theorem step_eq_or_exec {s u : State} (h : step s = .next u) : u = s ∨ ∃ c rest, exec c { s with pending := rest } = .next u := by
  unfold step at h
  split at h
  · exact .inl (Host.Outcome.next.inj h).symm
  · next c rest _ => exact .inr ⟨c, rest, h⟩

/-- A property of states that does not read the queue and that every command keeps is kept by every step. -/
theorem step_keeps {P : State → Prop} (hq : ∀ s rest, P s → P { s with pending := rest })
    (hk : ∀ cells s u, Kept cells s u → P s → P u) {s u : State} (hs : P s) (h : step s = .next u) : P u := by
  rcases step_eq_or_exec h with e | ⟨c, rest, hx⟩
  · exact e ▸ hs
  · exact hk _ _ _ (kept_of_exec hx) (hq s rest hs)

/-- Settles O4: what a step writes, it writes cell by cell into the canonical list. -/
theorem memoryStaysCanonical : Obligations.MemoryStaysCanonical := by
  intro s u hs h
  refine step_keeps (P := fun s => Memory.wf s.hostMem) (fun _ _ h => h) (fun cells s u k hs => ?_) hs h
  obtain ⟨w, _, hm⟩ := k.written
  rw [hm]
  exact Memory.wf_writeCells w hs

/-- Settles O5. -/
theorem controlLawKept : Obligations.ControlLawKept := by
  intro s u hs h
  refine step_keeps (P := State.ControlLaw) (fun _ _ h => h) (fun cells s u k hs => ?_) hs h
  obtain ⟨hc, hw⟩ := state_controlLaw_iff.mp hs
  exact state_controlLaw_iff.mpr ⟨k.safe.control hc, k.waits hw⟩

/-- Settles O6. -/
theorem boundsKept : Obligations.BoundsKept := by
  intro s u hs h
  exact step_keeps (P := State.Bounded) (fun _ _ h => h) (fun _ _ _ k => k.safe.bounded) hs h

/-- Settles O7. -/
theorem pageLawKept : Obligations.PageLawKept := by
  intro s u hs h
  exact step_keeps (P := State.PageLaw) (fun _ _ h => h)
    (fun _ _ _ k hs => pageLaw_iff.mpr (k.safe.pages (pageLaw_iff.mp hs))) hs h

/-- Settles O9. -/
theorem memoryFrame : Obligations.MemoryFrame := by
  intro c s u h a ha
  obtain ⟨w, hw, hm⟩ := (kept_of_exec h).written
  rw [hm]
  exact readCell_writeCells_of_unnamed _ fun x hx => ha x (hw x hx)

end Sys2Proof.Machine
end

/-! PROOFS. The law of the counts is not kept from every state that obeys it: an EXIT trail makes a PICKED record DONE, which no
ENTRY lead has counted (R39, R60, R106). -/

section

namespace Sys2Proof.Machine

open State

/-- The store of a part just powered on is all free (R119). -/
theorem free_newStore : ({} : HoldStore).free = List.range ({} : HoldStore).total := by
  unfold HoldStore.total
  simp only [DramSize.pages]

/-- A record that is still PICKED, though its EXIT lead and its MARK trail are there: no run reaches it, and the laws of the
control states, the pages and the counts allow it. -/
def pickedPastExit : SheetRecord :=
  { id := 0, pickPos := 0, selector := .main, life := .picked, exit := { lead := some 0 }, mark := { trail := some 0 } }

/-- A RUNNING transport with that record alone, whose EXIT sensor has a change to no paper pending. -/
def exitTrailPending : Transport :=
  { state := .running, motor := .driving, track := [pickedPastExit], nextId := 1,
    pos := { stallTimer := some 1, exit := { raw := false, level := true, pending := some { latch := 0, hold := 1 } } } }

/-- The part with transport 0 so, about to take the end of the hold time of that change. -/
def uncountedTrail : State :=
  { State.reset.setTr 0 exitTrailPending with pending := [.debounceHoldExpiry 0 (.station .exit)] }

theorem transports_uncountedTrail (P : Transport → Prop) (h0 : P exitTrailPending) (h : P {}) (t : TransportNo) : P (uncountedTrail.tr t) :=
  match t with
  | 0 => h0
  | 1 => h
  | 2 => h
  | 3 => h

theorem controlLaw_uncountedTrail : uncountedTrail.ControlLaw :=
  ⟨transports_uncountedTrail _ (by unfold Transport.ControlLaw; decide) (by unfold Transport.ControlLaw; decide), fun _ _ h => nomatch h⟩

theorem pageLaw_uncountedTrail : uncountedTrail.PageLaw := by
  refine ⟨?_, Nat.zero_le _, transports_uncountedTrail _ ?_ ?_⟩
  · have h : uncountedTrail.holding = [] := by decide
    have hf : uncountedTrail.hold.free = List.range uncountedTrail.hold.total := free_newStore
    rw [h, List.append_nil, hf]
  all_goals
    unfold Transport.PageLaw SideRecord.empty SideRecord.imageless
    refine ⟨by decide, by decide, by decide, ?_, ?_⟩ <;> exact fun _ _ h => nomatch h

theorem countLaw_uncountedTrail : uncountedTrail.CountLaw :=
  transports_uncountedTrail _
    ⟨by decide, by decide, by decide, by decide, ⟨by decide, fun ⟨_, h, _⟩ => nomatch h⟩, by decide⟩
    ⟨by decide, by decide, by decide, by decide, ⟨by decide, fun ⟨_, h, _⟩ => nomatch h⟩, by decide⟩

/-- After the step the record is DONE and counted in the track, and the count of picked sheets is still 0. -/
theorem step_uncountedTrail : ∃ u, step uncountedTrail = .next u ∧ (u.tr 0).inTrack = 1 ∧ (u.tr 0).batch.counters = {} :=
  ⟨_, rfl, by decide +kernel, by decide +kernel⟩

/-- Refutes O8: an EXIT trail counts no sheet as picked, and makes a record that is still PICKED one of those counted. -/
theorem not_countLawKept : ¬ Obligations.CountLawKept := by
  intro h
  obtain ⟨u, hu, hin, hc⟩ := step_uncountedTrail
  have hlaw := (h _ u controlLaw_uncountedTrail pageLaw_uncountedTrail countLaw_uncountedTrail hu 0).1
  rw [hin, hc] at hlaw
  exact absurd (hlaw (by decide)) (by decide)

end Sys2Proof.Machine
end

/-! PROOFS. The state after a reset (09 section 9.2): what each block holds and that the laws hold there. -/

section

namespace Sys2Proof.Machine

open State

theorem tr_reset (t : TransportNo) : State.reset.tr t = {} := by
  simp [State.reset, tr]

theorem lane_reset (n : LaneNo) : State.reset.lane n = {} := by
  simp [State.reset, lane]

theorem bounded_reset : State.reset.Bounded := fun t => by
  rw [tr_reset]
  exact (Transport.safe_reset {} rfl rfl).1

theorem controlLaw_reset : State.reset.ControlLaw :=
  ⟨fun t => by rw [tr_reset]; unfold Transport.ControlLaw; decide, fun _ _ h => nomatch h⟩

theorem pageLaw_reset : State.reset.PageLaw := by
  refine ⟨?_, Nat.zero_le _, fun t => by rw [tr_reset]; exact (Transport.safe_reset {} rfl rfl).2.2⟩
  have hh : State.reset.holding = [] := by decide
  have hf : State.reset.hold.free = List.range State.reset.hold.total := free_newStore
  rw [hh, List.append_nil, hf]

theorem countLaw_reset : State.reset.CountLaw := fun t => by
  rw [tr_reset]
  exact ⟨by decide, by decide, by decide, by decide, ⟨by decide, fun ⟨_, h, _⟩ => nomatch h⟩, by decide⟩

/-- Settles O3. -/
theorem resetState : Obligations.ResetState := by
  have hfree : State.reset.hold.freePages = State.reset.hold.total := by
    have hf : State.reset.hold.free = List.range State.reset.hold.total := free_newStore
    unfold HoldStore.freePages
    rw [hf, List.length_range]
    rfl
  refine ⟨fun t => ?_, hfree, rfl, rfl, rfl, rfl, rfl, fun n => ?_, rfl, rfl, rfl, rfl, rfl, fun r hr => ?_, by decide, rfl,
    controlLaw_reset, bounded_reset, pageLaw_reset, countLaw_reset⟩
  · rw [tr_reset]
    exact ⟨rfl, rfl, rfl, rfl, rfl, rfl, rfl, rfl, rfl, rfl, rfl, rfl, rfl, rfl, rfl, rfl, rfl, rfl, rfl, rfl, rfl, rfl, rfl, rfl, rfl,
      rfl, rfl, rfl, rfl, rfl, rfl, rfl, fun sd => by cases sd <;> exact ⟨rfl, rfl, rfl, rfl⟩⟩
  · rw [lane_reset]
    exact ⟨rfl, rfl, rfl, rfl, rfl, rfl, rfl, rfl, rfl, rfl⟩
  · cases r with
    | runctl => exact absurd rfl hr
    | rbaseL => rfl
    | rbaseH => rfl
    | sweep => rfl
    | evt => rfl
    | evten => rfl
    | evtact => rfl
    | evtclr => rfl

theorem tr_afterReset (s : State) (units : TransportNo → PositionUnit) (a b : Word) (n : Nat) (t : TransportNo) :
    (s.afterReset units a b n).tr t = { pos := units t } := by
  simp [tr, afterReset]

theorem lane_afterReset (s : State) (units : TransportNo → PositionUnit) (a b : Word) (n : Nat) (k : LaneNo) :
    (s.afterReset units a b n).lane k = {} := by
  simp [lane, afterReset]

/-- No event is set after a reset, so none asserts the line. -/
theorem interrupt_afterReset (s : State) (units : TransportNo → PositionUnit) (a b : Word) (n : Nat) :
    (s.afterReset units a b n).interrupt = false := by
  simp [interrupt, evtact, afterReset]

/-- Settles O12. -/
theorem resets : Obligations.Resets :=
  ⟨fun _ _ _ _ s => ⟨_, rfl, fun t => tr_afterReset s _ _ _ _ t, rfl, fun n => lane_afterReset s _ _ _ _ n, rfl, rfl,
      interrupt_afterReset s _ _ _ _⟩,
    fun _ s => ⟨_, rfl, fun t => tr_afterReset s _ _ _ _ t, rfl, fun n => lane_afterReset s _ _ _ _ n, rfl, rfl,
      interrupt_afterReset s _ _ _ _⟩⟩

end Sys2Proof.Machine
end

/-! PROOFS. The end of a step (95_what_each_step_holds.md): what its stages leave alone, that no head which can settle is left, and
the status writes it requests. -/

section

namespace Sys2Proof.Machine

namespace Transport

variable {x y z : Transport}

/-- What no stage of the end of a step changes in a transport; of one that is neither RUNNING nor DRAINING the control state and
the motor too. -/
structure EndKept (x y : Transport) : Prop where
  units : y.front = x.front ∧ y.back = x.back ∧ y.marks = x.marks
  reference : y.dfu.reference = x.dfu.reference
  run : y.dfu.run = x.dfu.run
  picking : y.retries = x.retries ∧ y.runOn = x.runOn
  batch : y.batch.candidate = x.batch.candidate ∧ y.batch.take = x.batch.take ∧ y.batch.ticket = x.batch.ticket ∧
    y.batch.snapshot = x.batch.snapshot ∧ y.batch.active = x.batch.active
  still : x.state ≠ .running → x.state ≠ .draining →
    y.state = x.state ∧ y.purpose = x.purpose ∧ y.stopReason = x.stopReason ∧ y.motor = x.motor ∧ y.clutch = x.clutch ∧
      y.haltRequest = x.haltRequest ∧ y.coverWait = x.coverWait ∧ y.dfu = x.dfu ∧
      y.pos = x.pos ∧ y.runInEnd = x.runInEnd ∧ y.track.Sublist x.track ∧ y.runOffTimer = x.runOffTimer ∧
      (x.track = [] → y.batch.counters = x.batch.counters)

theorem EndKept.refl (x : Transport) : x.EndKept x :=
  ⟨⟨rfl, rfl, rfl⟩, rfl, rfl, ⟨rfl, rfl⟩, ⟨rfl, rfl, rfl, rfl, rfl⟩,
    fun _ _ => ⟨rfl, rfl, rfl, rfl, rfl, rfl, rfl, rfl, rfl, rfl, .refl _, rfl, fun _ => rfl⟩⟩

theorem EndKept.trans (h : x.EndKept y) (g : y.EndKept z) : x.EndKept z := by
  obtain ⟨⟨u1, u2, u3⟩, r, n, ⟨p1, p2⟩, ⟨b1, b2, b3, b4, b5⟩, st⟩ := h
  obtain ⟨⟨u1', u2', u3'⟩, r', n', ⟨p1', p2'⟩, ⟨b1', b2', b3', b4', b5'⟩, st'⟩ := g
  refine ⟨⟨u1'.trans u1, u2'.trans u2, u3'.trans u3⟩, r'.trans r, n'.trans n, ⟨p1'.trans p1, p2'.trans p2⟩,
    ⟨b1'.trans b1, b2'.trans b2, b3'.trans b3, b4'.trans b4, b5'.trans b5⟩, fun hr hd => ?_⟩
  obtain ⟨c1, c2, c3, c4, c5, c6, c7, c8, c9, c10, c11, c12, c13⟩ := st hr hd
  obtain ⟨c1', c2', c3', c4', c5', c6', c7', c8', c9', c10', c11', c12', c13'⟩ := st' (by rwa [c1]) (by rwa [c1])
  exact ⟨c1'.trans c1, c2'.trans c2, c3'.trans c3, c4'.trans c4, c5'.trans c5, c6'.trans c6, c7'.trans c7, c8'.trans c8,
    c9'.trans c9, c10'.trans c10, c11'.trans c11, c12'.trans c12,
    fun h => (c13' (List.sublist_nil.mp (h ▸ c11))).trans (c13 h)⟩

/-- The records in the track stay, the new ones are PICKED, and no piece is queued. -/
structure TailKept (x y : Transport) : Prop extends x.EndKept y where
  track : ∃ l, y.track = x.track ++ l ∧ ∀ r ∈ l, r.life = .picked
  queue : y.queue.length = x.queue.length

theorem TailKept.refl (x : Transport) : x.TailKept x :=
  ⟨.refl x, ⟨[], (List.append_nil _).symm, fun _ h => by cases h⟩, rfl⟩

theorem TailKept.trans (h : x.TailKept y) (g : y.TailKept z) : x.TailKept z := by
  obtain ⟨l, hl, hp⟩ := h.track
  obtain ⟨m, hm, hq⟩ := g.track
  refine ⟨h.toEndKept.trans g.toEndKept, ⟨l ++ m, by rw [hm, hl, List.append_assoc], fun r hr => ?_⟩, g.queue.trans h.queue⟩
  exact (List.mem_append.mp hr).elim (hp r) (hq r)

/-- The head of the track, if there is one, does not settle. -/
def Unsettleable (x : Transport) : Prop := ∀ r rest, x.track = r :: rest → x.canSettle r = false

theorem canSettle_of_picked {r : SheetRecord} (h : r.life = .picked) : x.canSettle r = false := by
  simp [canSettle, h]

theorem TailKept.unsettleable (h : x.TailKept y) (hx : x.Unsettleable) : y.Unsettleable := by
  obtain ⟨l, hl, hp⟩ := h.track
  intro r rest hr
  cases ht : x.track with
  | nil =>
    rw [ht, List.nil_append] at hl
    exact canSettle_of_picked (hp r (by rw [← hl, hr]; exact List.mem_cons_self))
  | cons q qs =>
    rw [ht, hr, List.cons_append] at hl
    obtain ⟨rfl, _⟩ := List.cons.inj hl
    have := hx r qs ht
    unfold canSettle at this ⊢
    rwa [h.queue]

theorem TailKept.of_running (hs : x.state = .running ∨ x.state = .draining) (hu : y.front = x.front ∧ y.back = x.back ∧ y.marks = x.marks)
    (hd : y.dfu.reference = x.dfu.reference ∧ y.dfu.run = x.dfu.run) (hp : y.retries = x.retries ∧ y.runOn = x.runOn)
    (hb : y.batch.candidate = x.batch.candidate ∧ y.batch.take = x.batch.take ∧ y.batch.ticket = x.batch.ticket ∧
      y.batch.snapshot = x.batch.snapshot ∧ y.batch.active = x.batch.active)
    (ht : y.track = x.track) (hq : y.queue = x.queue) : x.TailKept y :=
  ⟨⟨hu, hd.1, hd.2, hp, hb, fun hr hd => (hs.elim hr hd).elim⟩, ⟨[], by rw [ht, List.append_nil], fun _ h => by cases h⟩, by rw [hq]⟩

/-- A change of the batch context that leaves the ticket and the candidate alone, and of the pick-wait reason. -/
theorem tailKept_batch (x : Transport) {b : BatchContext} {w : PickWait}
    (hb : b.candidate = x.batch.candidate ∧ b.take = x.batch.take ∧ b.ticket = x.batch.ticket ∧
      b.snapshot = x.batch.snapshot ∧ b.active = x.batch.active) (hc : b.counters = x.batch.counters) :
    x.TailKept { x with batch := b, pickWait := w } :=
  ⟨⟨⟨rfl, rfl, rfl⟩, rfl, rfl, ⟨rfl, rfl⟩, hb,
      fun _ _ => ⟨rfl, rfl, rfl, rfl, rfl, rfl, rfl, rfl, rfl, rfl, .refl _, rfl, fun _ => hc⟩⟩,
    ⟨[], (List.append_nil _).symm, fun _ h => by cases h⟩, rfl⟩

theorem tailKept_mayPick {n : Nat} (h : x.MayPick n y) : x.TailKept y := by
  rcases h with rfl | ⟨he, rfl⟩
  · exact .refl _
  · exact ⟨⟨⟨rfl, rfl, rfl⟩, rfl, rfl, ⟨rfl, rfl⟩, ⟨rfl, rfl, rfl, rfl, rfl⟩, fun hr => (hr (eligible_iff.mp he).1).elim⟩,
      ⟨[_], rfl, fun r hr => List.mem_singleton.mp hr ▸ rfl⟩, rfl⟩

theorem endCondition_cases (x : Transport) : x.endCondition = x ∨
    ((x.state = .running ∨ x.state = .draining) ∧ x.endCondition = { x with state := .draining, purpose := .endBatch }) := by
  unfold endCondition
  split
  · next h => exact .inr ⟨.inl h, rfl⟩
  · split
    · next h => exact .inr ⟨.inr h.1, by rw [← h.1]⟩
    · exact .inl rfl

theorem tailKept_endTests (x : Transport) : x.TailKept x.endTests := by
  unfold endTests
  split
  · rcases x.endCondition_cases with h | ⟨hs, h⟩
    · rw [h]; exact .refl x
    · rw [h]; exact .of_running hs ⟨rfl, rfl, rfl⟩ ⟨rfl, rfl⟩ ⟨rfl, rfl⟩ ⟨rfl, rfl, rfl, rfl, rfl⟩ rfl rfl
  · exact .refl x

/-- A DRAINING transport that leaves DRAINING, its motor off or running off. -/
theorem tailKept_leaving (hs : x.state = .draining) {st : TransportState} {p : Purpose} {c h : Bool}
    (g : ({ x with state := st, purpose := p, coverWait := c, haltRequest := h } : Transport).MotorOnly y) : x.TailKept y := by
  obtain ⟨mo, cl, a, ro, t, d, rfl, hr, hu⟩ := g
  exact .of_running (.inr hs) ⟨rfl, rfl, rfl⟩ ⟨hr, hu⟩ ⟨rfl, rfl⟩ ⟨rfl, rfl, rfl, rfl, rfl⟩ rfl rfl

theorem tailKept_pauseDone (x : Transport) : x.TailKept x.pauseDone := by
  unfold pauseDone
  split
  · next h => exact tailKept_leaving h.1 (motorOnly_beginRunOff _)
  · exact .refl x

theorem tailKept_leaveDraining (h : x.state = .draining) : x.TailKept x.leaveDraining := by
  unfold leaveDraining
  dsimp only
  split
  · exact tailKept_leaving h (motorOnly_motorOff _)
  · exact tailKept_leaving h (motorOnly_beginRunOff _)

theorem tailKept_laneClosed (x : Transport) (n : LaneNo) : x.TailKept (x.laneClosed n) := by
  unfold laneClosed
  split
  · exact tailKept_batch x ⟨rfl, rfl, rfl, rfl, rfl⟩ rfl
  all_goals exact .refl x

theorem tailKept_touch (x : Transport) (n : LaneNo) : x.TailKept (x.touch n) := by
  unfold touch
  split
  · exact .refl x
  · exact tailKept_batch x ⟨rfl, rfl, rfl, rfl, rfl⟩ rfl

end Transport

theorem BatchContext.settle_kept (b : BatchContext) (r : SheetRecord) :
    (b.settle r).candidate = b.candidate ∧ (b.settle r).take = b.take ∧ (b.settle r).ticket = b.ticket ∧
      (b.settle r).snapshot = b.snapshot ∧ (b.settle r).active = b.active := by
  unfold settle
  dsimp only
  split
  · exact ⟨rfl, rfl, rfl, rfl, rfl⟩
  · next d _ => cases d <;> exact ⟨rfl, rfl, rfl, rfl, rfl⟩
  · exact ⟨rfl, rfl, rfl, rfl, rfl⟩

theorem Transport.endKept_settleRecord (x : Transport) (unused : LaneNo → Bool) (r : SheetRecord) (h : x.track ≠ []) :
    x.EndKept (x.settleRecord unused r).transport :=
  ⟨⟨rfl, rfl, rfl⟩, rfl, rfl, ⟨rfl, rfl⟩, x.batch.settle_kept r,
    fun _ _ => ⟨rfl, rfl, rfl, rfl, rfl, rfl, rfl, rfl, rfl, rfl, List.tail_sublist _, rfl, fun h' => absurd h' h⟩⟩

/-- A lane's state, cursor, bin, flush time, sequence number and restart are as they were. -/
def Lane.BinKept (l m : Lane) : Prop :=
  m.state = l.state ∧ m.cursor = l.cursor ∧ m.bin = l.bin ∧ m.flushTime = l.flushTime ∧ m.sequence = l.sequence ∧
    m.restart = l.restart

theorem Lane.BinKept.refl (l : Lane) : l.BinKept l := ⟨rfl, rfl, rfl, rfl, rfl, rfl⟩

theorem Lane.BinKept.trans {l m k : Lane} (h : l.BinKept m) (g : m.BinKept k) : l.BinKept k := by
  obtain ⟨h1, h2, h3, h4, h5, h6⟩ := h
  obtain ⟨g1, g2, g3, g4, g5, g6⟩ := g
  exact ⟨g1.trans h1, g2.trans h2, g3.trans h3, g4.trans h4, g5.trans h5, g6.trans h6⟩

namespace State

open Transport

variable {s u v : State} {t : TransportNo}

/-- Every transport is changed within R, every lane keeps its bin, and EVT gains SPACE at most. -/
structure Within (R : Transport → Transport → Prop) (s u : State) : Prop where
  transports : ∀ i, R (s.tr i) (u.tr i)
  lanes : ∀ n, (s.lane n).BinKept (u.lane n)
  events : s.EventsKept u

theorem Within.trans {R : Transport → Transport → Prop} (hR : ∀ {x y z : Transport}, R x y → R y z → R x z)
    (h : Within R s u) (g : Within R u v) : Within R s v :=
  ⟨fun i => hR (h.transports i) (g.transports i), fun n => (h.lanes n).trans (g.lanes n), h.events.trans g.events⟩

theorem Within.mono {R Q : Transport → Transport → Prop} (hR : ∀ {x y : Transport}, R x y → Q x y) (h : Within R s u) : Within Q s u :=
  ⟨fun i => hR (h.transports i), h.lanes, h.events⟩

theorem Within.of_outside {R : Transport → Transport → Prop} (o : s.OutsideKept u) (h : ∀ i, R (s.tr i) (u.tr i)) : Within R s u :=
  ⟨h, fun n => by rw [lane, lane, o.lanes]; exact .refl _, o.events⟩

theorem Within.foldl {R : Transport → Transport → Prop} (hr : ∀ x, R x x) (hR : ∀ {x y z : Transport}, R x y → R y z → R x z)
    {α : Type} {f : State → α → State} (h : ∀ (s : State) (a : α), Within R s (f s a)) (s : State) (l : List α) :
    Within R s (l.foldl f s) := by
  induction l generalizing s with
  | nil => exact .of_outside (.refl s) fun _ => hr _
  | cons a rest ih => exact (h s a).trans hR (ih _)

abbrev Tail (s u : State) : Prop := Within TailKept s u

theorem Tail.refl (s : State) : s.Tail s := .of_outside (.refl s) fun _ => .refl _

theorem Tail.next (h : s.Tail u) (g : u.Tail v) : s.Tail v := h.trans TailKept.trans g

theorem Tail.ite {p : Prop} [Decidable p] (h : s.Tail u) (g : s.Tail v) : s.Tail (if p then u else v) := by
  split
  · exact h
  · exact g

theorem Tail.foldl {α : Type} {f : State → α → State} (h : ∀ (s : State) (a : α), s.Tail (f s a)) (s : State) (l : List α) :
    s.Tail (l.foldl f s) := Within.foldl TailKept.refl TailKept.trans h s l

theorem Tail.modTr {f : Transport → Transport} (h : (s.tr t).TailKept (f (s.tr t))) : s.Tail (s.modTr t f) :=
  .of_outside .modTr fun i => by
    rw [tr_modTr]; split
    · next e => exact e ▸ h
    · exact .refl _

theorem Tail.setWriter {w : Writer} : s.Tail (s.setWriter w) := ⟨fun _ => .refl _, fun _ => .refl _, .inl rfl⟩

theorem Tail.modLane {n : LaneNo} {f : Lane → Lane} (h : ∀ l : Lane, l.BinKept (f l)) : s.Tail (s.modLane n f) :=
  ⟨fun _ => .refl _, fun k => by
    by_cases e : k = n
    · subst e; rw [lane_modLane_self]; exact h _
    · rw [show (s.modLane n f).lane k = s.lane k from s.lane_setLane_of_ne _ e]; exact .refl _, .inl rfl⟩

theorem Tail.modRoom {f : RoomInterface → RoomInterface} (h : (f s.room).evt = s.room.evt) : s.Tail (s.modRoom f) :=
  ⟨fun _ => .refl _, fun _ => .refl _, .inl h⟩

/-! ### The stages -/

theorem tail_serveList (s : State) : s.Tail s.serveList :=
  .of_outside (outside_serveWaiting _ _) fun i => tailKept_mayPick (s.mayPick_serveList i)

theorem tail_returnPages (s : State) (pages : List Nat) (n : Nat) : s.Tail (s.returnPages pages n) :=
  .of_outside (outside_returnPages _ _ _) fun i => tailKept_mayPick (s.mayPick_returnPages pages n i)

theorem tail_askAdmission (s : State) (t : TransportNo) : s.Tail (s.askAdmission t) := by
  unfold askAdmission
  split
  · next h =>
    rw [Bool.and_eq_true] at h
    exact Tail.ite (.of_outside (outside_grant _ _ _) fun i => tailKept_mayPick (s.mayPick_grant t i _ h.1))
      (.of_outside .setHold fun _ => .refl _)
  · exact .refl s

theorem tail_pickStage (s : State) : s.Tail s.pickStage :=
  ((tail_serveList s).next (Tail.foldl tail_askAdmission _ _)).next
    (Tail.foldl (fun _ _ => .modTr (tailKept_batch _ ⟨rfl, rfl, rfl, rfl, rfl⟩ rfl)) _ _)

theorem tail_eachTransport {f : Transport → Transport} (h : ∀ x : Transport, x.TailKept (f x)) (s : State) : s.Tail (s.eachTransport f) :=
  Tail.foldl (fun _ _ => .modTr (h _)) s _

theorem binKept_beginHandBack (l : Lane) (p : Bool) : l.BinKept (l.beginHandBack p) := ⟨rfl, rfl, rfl, rfl, rfl, rfl⟩

theorem tail_requestClosure (s : State) (t : TransportNo) (n : LaneNo) : s.Tail (s.requestClosure t n) := by
  unfold requestClosure
  dsimp only
  have h1 : s.Tail (s.modLane n fun l => { l with requests := l.requests ++ [t] }) := .modLane fun _ => ⟨rfl, rfl, rfl, rfl, rfl, rfl⟩
  exact Tail.ite (Tail.ite h1 (h1.next (.modLane fun l => binKept_beginHandBack l false))) (.modTr (tailKept_laneClosed _ n))

theorem tail_goOnClosing (s : State) (t : TransportNo) : s.Tail (s.goOnClosing t) := by
  unfold goOnClosing
  split
  · next h =>
    split
    · exact .modTr (tailKept_batch _ ⟨rfl, rfl, rfl, rfl, rfl⟩ rfl)
    · exact .modTr ((tailKept_batch (b := { (s.tr t).batch with closure := .notAsked }) _ ⟨rfl, rfl, rfl, rfl, rfl⟩ rfl).trans
        (tailKept_leaveDraining h))
    all_goals exact .refl s
  · exact .refl s

theorem tail_endBatch (s : State) (t : TransportNo) : s.Tail (s.endBatch t) :=
  (Tail.ite ((Tail.modTr (f := fun x => { x with batch := { x.batch with closure := .asked x.batch.lanesTouched } })
      (tailKept_batch (s.tr t) ⟨rfl, rfl, rfl, rfl, rfl⟩ rfl)).next
    (Tail.foldl (fun s n => tail_requestClosure s t n) _ _)) (.refl s)).next (tail_goOnClosing _ t)

theorem tail_continueTurn (s : State) (t : TransportNo) : s.Tail (s.continueTurn t) := by
  unfold continueTurn
  split
  · exact .setWriter
  · next e p _ =>
    split
    · exact .setWriter
    · refine Tail.ite (Tail.next (Tail.next (.modLane (f := fun l => { l with flushTimer := none }) fun _ => ⟨rfl, rfl, rfl, rfl, rfl, rfl⟩)
        (.modTr (f := fun x => if p.firstWritten then x else x.touch p.lane) ?_)) .setWriter)
        (Tail.next (.modLane fun l => binKept_beginHandBack l false) .setWriter)
      split
      · exact .refl _
      · exact tailKept_touch _ _

theorem tail_lookForWork (s : State) : s.Tail s.lookForWork := by
  unfold lookForWork
  split
  · exact .refl s
  · split
    · exact .refl s
    · next t _ =>
      unfold beginTurn
      split
      · exact .refl s
      · next e p _ =>
        dsimp only
        exact Tail.ite (Tail.next (Tail.next .setWriter
          (.modLane (f := fun l => { l with binTake := true }) fun _ => ⟨rfl, rfl, rfl, rfl, rfl, rfl⟩)) .setWriter)
          (Tail.next .setWriter (tail_continueTurn _ _))

theorem tail_haltQuiet (s : State) : s.Tail s.haltQuiet := by
  unfold haltQuiet
  exact .ite (.modRoom rfl) (.refl s)

theorem tail_requestStatuses (s : State) (t : TransportNo) (n : Nat) : s.Tail (s.requestStatuses t n) := by
  induction n generalizing s with
  | zero => exact .refl s
  | succ n ih =>
    have h : s.Tail (s.requestStatus t) := by
      unfold requestStatus
      refine .modRoom ?_
      split <;> rfl
    exact h.next (ih _)

theorem tail_requestReports (s before : State) (path : List State) (forced : List TransportNo) :
    s.Tail (s.requestReports before path forced) := Tail.foldl (fun s t => tail_requestStatuses s t _) s _

/-- What follows the settlements. -/
theorem tail_afterSettlements (s before : State) (path : List State) (forced : List TransportNo) :
    s.settleAll.Tail (s.finishVia before path forced) :=
  ((((tail_eachTransport tailKept_endTests s.settleAll).next (tail_pickStage _)).next (tail_eachTransport tailKept_pauseDone _)).next
    (((Tail.foldl tail_endBatch _ _).next (tail_lookForWork _)).next (tail_haltQuiet _))).next (tail_requestReports _ _ _ _)

/-! ### The settlements -/

/-- A settlement puts the settled transport in place, and then returns pages. -/
theorem tail_settleHead (s : State) (t : TransportNo) (r : SheetRecord) :
    (s.setTr t ((s.tr t).settleRecord (fun n => (s.lane n).state == .unused) r).transport).Tail (s.settleHead t r) :=
  (tail_returnPages _ _ _).next (tail_returnPages _ _ _)

theorem within_settleHead (s : State) (t : TransportNo) (r : SheetRecord) (h : (s.tr t).track ≠ []) : Within EndKept s (s.settleHead t r) := by
  have h1 : Within EndKept s (s.setTr t ((s.tr t).settleRecord (fun n => (s.lane n).state == .unused) r).transport) := by
    refine .of_outside (OutsideKept.modTr (f := fun _ => _)) fun i => ?_
    rw [tr_setTr]; split
    · next e => exact e ▸ Transport.endKept_settleRecord _ _ _ (e ▸ h)
    · exact .refl _
  exact h1.trans EndKept.trans ((tail_settleHead s t r).mono (·.toEndKept))

theorem within_settleTransport (s : State) (t : TransportNo) (n : Nat) : Within EndKept s (s.settleTransport t n) := by
  induction n generalizing s with
  | zero => exact .of_outside (.refl s) fun _ => .refl _
  | succ n ih =>
    unfold settleTransport
    split
    · exact .of_outside (.refl s) fun _ => .refl _
    · next r _ hr =>
      split
      · exact (within_settleHead s t r (by rw [hr]; exact List.cons_ne_nil _ _)).trans EndKept.trans (ih _)
      · exact .of_outside (.refl s) fun _ => .refl _

theorem within_settleAll (s : State) : Within EndKept s s.settleAll :=
  Within.foldl EndKept.refl EndKept.trans (fun s t => within_settleTransport s t _) s _

/-- After a settlement the track is what stood behind the head, with records picked since. -/
theorem track_settleHead (s : State) (t : TransportNo) {r : SheetRecord} {rest : List SheetRecord} (h : (s.tr t).track = r :: rest) :
    ∃ l, ((s.settleHead t r).tr t).track = rest ++ l ∧ ∀ q ∈ l, q.life = .picked := by
  obtain ⟨l, hl, hp⟩ := ((tail_settleHead s t r).transports t).track
  refine ⟨l, ?_, hp⟩
  rw [tr_setTr_self] at hl
  exact hl.trans (by rw [show ((s.tr t).settleRecord _ r).transport.track = (s.tr t).track.tail from rfl, h, List.tail_cons])

/-- The other transports keep their tracks' heads at a settlement. -/
theorem tailKept_settleHead (s : State) {t i : TransportNo} (r : SheetRecord) (hi : i ≠ t) :
    (s.tr i).TailKept ((s.settleHead t r).tr i) := by
  have h := (tail_settleHead s t r).transports i
  rw [tr_setTr_of_ne _ _ hi] at h
  exact h

theorem tailKept_settleTransport (s : State) {t i : TransportNo} (n : Nat) (hi : i ≠ t) :
    (s.tr i).TailKept ((s.settleTransport t n).tr i) := by
  induction n generalizing s with
  | zero => exact .refl _
  | succ n ih =>
    unfold settleTransport
    split
    · exact .refl _
    · next r _ _ =>
      split
      · exact (tailKept_settleHead s r hi).trans (ih _)
      · exact .refl _

/-- With at most n records besides the newly PICKED ones, n tests leave no head that can settle. -/
theorem unsettleable_settleTransport (s : State) (t : TransportNo) (n : Nat)
    (h : ∃ l p, (s.tr t).track = l ++ p ∧ l.length ≤ n ∧ ∀ r ∈ p, r.life = .picked) : ((s.settleTransport t n).tr t).Unsettleable := by
  induction n generalizing s with
  | zero =>
    obtain ⟨l, p, ht, hl, hp⟩ := h
    rw [List.length_eq_zero_iff.mp (Nat.le_zero.mp hl), List.nil_append] at ht
    intro r rest hr
    exact canSettle_of_picked (hp r (by rw [← ht]; exact hr ▸ List.mem_cons_self))
  | succ n ih =>
    unfold settleTransport
    split
    · next h0 => intro r rest hr; rw [h0] at hr; cases hr
    · next r rest h0 =>
      split
      · obtain ⟨l, p, ht, hl, hp⟩ := h
        obtain ⟨k, hk, hkp⟩ := track_settleHead s t h0
        refine ih _ ?_
        cases l with
        | nil =>
          rw [h0, List.nil_append] at ht
          refine ⟨[], rest ++ k, by rw [hk, List.nil_append], Nat.zero_le _, fun q hq => ?_⟩
          exact (List.mem_append.mp hq).elim (fun hq => hp q (ht ▸ List.mem_cons_of_mem _ hq)) (hkp q)
        | cons a as =>
          rw [h0, List.cons_append] at ht
          obtain ⟨_, rfl⟩ := List.cons.inj ht
          refine ⟨as, p ++ k, by rw [hk, List.append_assoc], Nat.le_of_succ_le_succ hl, fun q hq => ?_⟩
          exact (List.mem_append.mp hq).elim (hp q) (hkp q)
      · next hc => intro q qs hq; rw [h0] at hq; obtain ⟨rfl, _⟩ := List.cons.inj hq; simpa using hc

theorem unsettleable_settleOne (s : State) (t : TransportNo) : ((s.settleTransport t (s.tr t).track.length).tr t).Unsettleable :=
  unsettleable_settleTransport s t _ ⟨_, [], (List.append_nil _).symm, Nat.le_refl _, fun _ h => by cases h⟩

/-- The settlements leave no head that can settle: a transport once examined is changed by picks alone. -/
theorem unsettleable_foldl (ts : List TransportNo) (s : State) (i : TransportNo) (h : i ∈ ts ∨ (s.tr i).Unsettleable) :
    ((ts.foldl (fun s t => s.settleTransport t (s.tr t).track.length) s).tr i).Unsettleable := by
  induction ts generalizing s with
  | nil => exact h.resolve_left (by simp)
  | cons t rest ih =>
    refine ih _ ?_
    by_cases e : i = t
    · subst e; exact .inr (unsettleable_settleOne s i)
    · exact h.imp (fun h => (List.mem_cons.mp h).resolve_left e) (tailKept_settleTransport s _ e).unsettleable

theorem unsettleable_settleAll (s : State) (i : TransportNo) : (s.settleAll.tr i).Unsettleable :=
  unsettleable_foldl _ s i (.inl (mem_allTransports i))

/-- What the whole end of a step leaves alone. -/
theorem within_finishVia (s before : State) (path : List State) (forced : List TransportNo) :
    Within EndKept s (s.finishVia before path forced) :=
  (within_settleAll s).trans EndKept.trans ((tail_afterSettlements s before path forced).mono (·.toEndKept))

theorem allOff_iff : s.allOff = true ↔ ∀ t, (s.tr t).state = .off := by
  unfold allOff
  simp [List.all_eq_true, mem_allTransports]

end State

theorem SideRecord.settled_iff (x : SideRecord) : x.settled = true ↔ x.capture ≠ .waiting ∧ x.capture ≠ .capturing := by
  unfold SideRecord.settled
  cases x.capture <;> decide

theorem Transport.canSettle_iff (x : Transport) (r : SheetRecord) : x.canSettle r = true ↔
    r.life = .done ∧ r.verdict.decided = true ∧ r.markResult ≠ .pending ∧
      (∀ sd, (r.side sd).capture ≠ .waiting ∧ (r.side sd).capture ≠ .capturing) ∧ x.queue.length < 32 := by
  have hsides : (∀ sd, (r.side sd).capture ≠ .waiting ∧ (r.side sd).capture ≠ .capturing) ↔
      r.front.settled = true ∧ r.back.settled = true := by
    rw [SideRecord.settled_iff, SideRecord.settled_iff]
    exact ⟨fun h => ⟨h .front, h .back⟩, fun h sd => by cases sd; exacts [h.1, h.2]⟩
  rw [hsides]
  unfold Transport.canSettle
  simp [and_assoc]

/-- The stages transport by transport, in the order of their numbers. -/
theorem State.foldl_allTransports (f : State → TransportNo → State) (v : State) :
    allTransports.foldl f v = f (f (f (f v 0) 1) 2) 3 := rfl

open State in
/-- Settles O10. -/
theorem consequencesFrame : Obligations.ConsequencesFrame := by
  intro s before path forced
  have hall := within_finishVia s before path forced
  refine ⟨s.quiet_finishVia before path forced, hall.events, fun t => ?_, hall.lanes, ?_, fun h => ?_, fun h => ?_, fun t r rest hr hc => ?_⟩
  · obtain ⟨⟨u1, u2, u3⟩, r, n, ⟨p1, p2⟩, ⟨b1, b2, b3, b4, b5⟩, st⟩ := hall.transports t
    refine ⟨u1, u2, u3, r, n, p1, p2, b1, b2, b3, b4, b5, fun hr hd => ?_⟩
    obtain ⟨c1, c2, c3, c4, c5, c6, c7, c8, -⟩ := st hr hd
    exact ⟨c1, c2, c3, c4, c5, c6, c7, c8, waitLaw_finishVia s before path forced t (by rwa [c1])⟩
  · unfold finishVia settleStage drainStage closeStage eachTransport modTr
    simp only [foldl_allTransports]
  · unfold haltQuiet
    exact if_pos ⟨h.1, allOff_iff.mpr h.2⟩
  · unfold haltQuiet
    exact if_neg fun g => h ⟨g.1, allOff_iff.mp g.2⟩
  · have hu := ((tail_afterSettlements s before path forced).transports t).unsettleable (unsettleable_settleAll s t) r rest hr
    rw [(Transport.canSettle_iff _ _).mpr hc] at hu
    cases hu

end Sys2Proof.Machine
end

/-! PROOFS. The status writes that the end of a step requests (R48, R171): how often the control state changed along its states. -/

section

namespace Sys2Proof.Machine

/-- What one request does to a transport's status write and its change number (R171). -/
def askedOnce : StatusWrite × Word → StatusWrite × Word
  | (.idle, n) => (.inFlight false, n + 1)
  | (.inFlight _, n) => (.inFlight true, n)

/-- Of n requests the first begins the write, and the others leave one owed (R171). -/
theorem askedOnce_iterate (n : Nat) (k : Word) :
    askedOnce^[n] (.idle, k) = if n = 0 then (.idle, k) else if n = 1 then (.inFlight false, k + 1) else (.inFlight true, k + 1) := by
  have owed : ∀ n b, askedOnce^[n] (.inFlight b, k + 1) = (.inFlight (b || decide (0 < n)), k + 1) := fun n => by
    induction n with
    | zero => intro b; simp
    | succ n ih => intro b; rw [Function.iterate_succ_apply]; exact (ih true).trans (by simp)
  cases n with
  | zero => rfl
  | succ n =>
    rw [Function.iterate_succ_apply]
    refine (owed n false).trans ?_
    rcases Nat.eq_zero_or_pos n with rfl | h
    · rfl
    · simp [h, Nat.ne_of_gt h]

namespace State

variable {t i : TransportNo}

/-- The status write of a transport with its change number. -/
def statusOf (s : State) (t : TransportNo) : StatusWrite × Word := (s.room.status[t], s.room.change[t])

theorem statusOf_requestStatus_of_ne (s : State) (h : i ≠ t) : (s.requestStatus t).statusOf i = s.statusOf i := by
  have hv : t.val ≠ i.val := fun e => h (Fin.ext e.symm)
  unfold requestStatus statusOf
  rw [modRoom_room]
  split <;> simp [hv]

theorem statusOf_requestStatus (s : State) (t : TransportNo) : (s.requestStatus t).statusOf t = askedOnce (s.statusOf t) := by
  unfold requestStatus statusOf
  rw [modRoom_room]
  split
  · next h => rw [h]; simp [askedOnce]
  · next h => rw [h]; simp [askedOnce]

theorem statusOf_requestStatuses (s : State) (t i : TransportNo) (n : Nat) :
    (s.requestStatuses t n).statusOf i = if i = t then askedOnce^[n] (s.statusOf t) else s.statusOf i := by
  induction n generalizing s with
  | zero => split <;> simp_all [requestStatuses]
  | succ n ih =>
    refine (ih (s.requestStatus t)).trans ?_
    split
    · rw [statusOf_requestStatus, Function.iterate_succ_apply]
    · next h => exact s.statusOf_requestStatus_of_ne h

/-- The end of a step requests the status writes of each transport on its own. -/
theorem statusOf_requestReports (s before : State) (path : List State) (forced : List TransportNo) (t : TransportNo) :
    (s.requestReports before path forced).statusOf t = askedOnce^[requestsOf t before path forced] (s.statusOf t) := by
  unfold requestReports
  rw [foldl_allTransports]
  simp only [statusOf_requestStatuses]
  fin_cases t <;> simp

end State

theorem Transport.controlChanged_iff (x y : Transport) :
    x.controlChanged y = true ↔ x.state ≠ y.state ∨ x.stopReason ≠ y.stopReason ∨ x.purpose ≠ y.purpose := by
  unfold controlChanged
  simp [or_assoc]

/-- The changes of a transport's control state, counted along a path. -/
theorem controlChanges_eq (t : TransportNo) (a : State) (path : List State) : controlChanges t (a :: path) =
    ((a :: path).zip path).countP fun p => (p.1.tr t).controlChanged (p.2.tr t) := by
  induction path generalizing a with
  | nil => rfl
  | cons b rest ih =>
    rw [List.zip_cons_cons, List.countP_cons, ← ih b, Nat.add_comm]
    rfl

/-- The requests of a step: k changes of the control state, or else a change of the pick-wait reason, and one forced. -/
theorem requestsOf_cases {t : TransportNo} {before : State} {path : List State} {forced : List TransportNo} {k : Nat}
    (hk : controlChanges t (before :: path) = k) :
    let waits := ((path.getLastD before).tr t).pickWait = (before.tr t).pickWait
    (k = 0 → t ∉ forced → waits → requestsOf t before path forced = 0) ∧
    (k = 0 → t ∉ forced → ¬waits → requestsOf t before path forced = 1) ∧
    (k = 1 → t ∉ forced → requestsOf t before path forced = 1) ∧
    (2 ≤ k ∨ (t ∈ forced ∧ 1 ≤ k) → 2 ≤ requestsOf t before path forced) := by
  unfold requestsOf
  generalize path.getLastD before = last
  dsimp only
  rw [hk]
  refine ⟨?_, ?_, ?_, ?_⟩
  · rintro rfl hf hw
    simp [one, hf, hw]
  · rintro rfl hf hw
    simp [one, hf, Ne.symm hw]
  · rintro rfl hf
    simp [one, hf]
  · rintro (h | ⟨hf, h⟩)
    · rw [if_neg (by omega)]; omega
    · rw [if_neg (by omega)]
      simp [one, hf]; omega

/-- Settles O11. -/
theorem reportsRequested : Obligations.ReportsRequested := by
  intro s before path forced t hidle
  have hst := s.statusOf_requestReports before path forced t
  rw [show s.statusOf t = (.idle, s.room.change[t]) from Prod.ext hidle rfl, askedOnce_iterate] at hst
  obtain ⟨c0, cw, c1, c2⟩ := requestsOf_cases (forced := forced) (controlChanges_eq t before path)
  have none : requestsOf t before path forced = 0 → _ := fun h => Prod.mk.inj (hst.trans (if_pos h))
  have once : requestsOf t before path forced = 1 → _ := fun h => Prod.mk.inj (hst.trans ((if_neg (by omega)).trans (if_pos h)))
  have twice : 2 ≤ requestsOf t before path forced → _ :=
    fun h => Prod.mk.inj (hst.trans ((if_neg (by omega)).trans (if_neg (by omega))))
  simp only [← Transport.controlChanged_iff]
  refine ⟨fun h hf hw => none (c0 (List.countP_eq_zero.mpr h) hf hw), fun h hf hw => once (cw (List.countP_eq_zero.mpr h) hf hw),
    fun ⟨a, q, b, hs, hq, hab⟩ hf => once (c1 ?_ hf), fun h => twice (c2 (h.imp ?_ ?_))⟩
  · rw [hs, List.countP_append, List.countP_cons, List.countP_eq_zero.mpr fun r hr => hab r (List.mem_append_left _ hr),
      List.countP_eq_zero.mpr fun r hr => hab r (List.mem_append_right _ hr), if_pos hq]
  · rintro ⟨a, p, b, q, c, hs, hp, hq⟩
    rw [hs, List.countP_append, List.countP_cons, List.countP_append, List.countP_cons, if_pos hp, if_pos hq]
    omega
  · rintro ⟨hf, p, hp, hc⟩
    exact ⟨hf, List.countP_pos_iff.mpr ⟨p, hp, hc⟩⟩

end Sys2Proof.Machine
end

/-! PROOFS. A counted edge of the encoder: what it leaves alone, the expiries it raises, and where its sample goes (01 sections 1.1
and 1.2, 04 section 4.3). -/

section

namespace Sys2Proof.Machine

/-! ### The sample -/

namespace Transport

variable (x : Transport)

/-- y is x with its Double-Feed Unit and the verdicts of its records changed, R as it was. -/
def SamplesOnly (x y : Transport) : Prop :=
  ∃ (d : DoubleFeedUnit) (g : SheetRecord → Verdict), d.reference = x.dfu.reference ∧
    y = { x with dfu := d, track := x.track.map fun r => { r with verdict := g r } }

theorem samplesOnly_dfu {d : DoubleFeedUnit} (h : d.reference = x.dfu.reference) : x.SamplesOnly { x with dfu := d } :=
  ⟨d, (·.verdict), h, by rw [List.map_id']⟩

theorem endRun_eq (r : SheetRecord) (x : Transport) (p q : Pos) : r.endRun x p q = { r with verdict := (r.endRun x p q).verdict } := by
  unfold SheetRecord.endRun
  split <;> rfl

theorem samplesOnly_runSample (r : SheetRecord) (a : Nat) (q : Pos) : x.SamplesOnly (x.runSample r a q) := by
  unfold runSample
  split
  · split
    · exact x.samplesOnly_dfu rfl
    · exact x.samplesOnly_dfu rfl
  · next p _ _ =>
    split
    · have hm : (x.track.map fun k => if k.id = r.id then k.endRun x p q else k) =
          x.track.map fun k => { k with verdict := if k.id = r.id then (k.endRun x p q).verdict else k.verdict } :=
        List.map_congr_left fun k _ => by
          split
          · exact endRun_eq k x p q
          · rfl
      exact ⟨{ x.dfu with run := .outside }, _, rfl, congrArg (fun l => { x with track := l, dfu := { x.dfu with run := .outside } }) hm⟩
    · exact x.samplesOnly_dfu rfl
  · exact x.samplesOnly_dfu rfl

theorem samplesOnly_gapSample (a : Nat) : x.SamplesOnly (x.gapSample a) := by
  unfold gapSample
  split
  · exact x.samplesOnly_dfu rfl
  · split <;> exact x.samplesOnly_dfu rfl

theorem samplesOnly_routeSample (a : Nat) (q : Pos) : x.SamplesOnly (x.routeSample a q) := by
  unfold routeSample
  split
  · split
    · split <;> exact x.samplesOnly_dfu rfl
    · split
      · split
        · next r _ =>
          split
          · exact x.samplesOnly_dfu rfl
          · exact x.samplesOnly_runSample r a q
        · exact x.samplesOnly_dfu rfl
      · exact x.samplesOnly_gapSample a
    · exact x.samplesOnly_dfu rfl
    · exact x.samplesOnly_dfu rfl
  · exact x.samplesOnly_dfu rfl

theorem samplesOnly_sampleCount (a : Nat) : x.SamplesOnly (x.sampleCount a) := by
  unfold sampleCount
  split
  · exact x.samplesOnly_dfu rfl
  · split
    · exact x.samplesOnly_dfu rfl
    · exact samplesOnly_routeSample { x with dfu := { x.dfu with step := 0 } } a _

/-! ### The count -/

/-- The transport after the counter's move, its expiries raised where the count goes forward. -/
def moved (x : Transport) (line : EncLine) (forward : Bool) : Transport :=
  if forward then (x.moveCounter line true).raiseExpiries x.pos.counter else x.moveCounter line false

theorem count_eq (line : EncLine) (adc : BitVec 10) (forward : Bool) :
    x.count line adc forward = if forward then (x.moved line true).sampleCount adc.toNat else x.moved line false := by
  cases forward <;> rfl

theorem samplesOnly_count (line : EncLine) (adc : BitVec 10) (forward : Bool) : (x.moved line forward).SamplesOnly (x.count line adc forward) := by
  rw [count_eq]
  cases forward with
  | false => exact samplesOnly_dfu _ rfl
  | true => exact samplesOnly_sampleCount _ _

/-- What a count does to a record before its sample. -/
def passRecord (p : Pos) (forward : Bool) (r : SheetRecord) : SheetRecord := if forward then r.pass p else r

theorem moved_eq (line : EncLine) (forward : Bool) : x.moved line forward =
    { x with
      pos := { x.pos.flip line with
                counter := if forward then x.pos.counter + 1 else x.pos.counter - 1
                stallTimer := x.pos.stallTimer.map fun _ => x.cfg.stallTime }
      track := x.track.map (passRecord x.pos.counter forward)
      runInEnd := if forward then x.runInEnd.pass x.pos.counter else x.runInEnd
      marks := if forward then { x.marks with windowEnd := x.marks.windowEnd.pass x.pos.counter } else x.marks } := by
  cases forward with
  | false =>
    rw [show passRecord x.pos.counter false = id from rfl, List.map_id]
    rfl
  | true => rfl

theorem sensor_flip (line : EncLine) (sn : Sensor) (n : Pos) (a : Option Nat) :
    ({ x.pos.flip line with counter := n, stallTimer := a } : PositionUnit).sensor sn = x.pos.sensor sn := by
  cases line <;> cases sn with
  | station st => cases st <;> rfl
  | trayEmpty => rfl
  | coverOpen => rfl

theorem kernel_passRecord (p : Pos) (forward : Bool) (r : SheetRecord) : (passRecord p forward r).kernel = r.kernel := by
  cases forward <;> rfl

end Transport

/-! ### The command -/

section

variable {s u : State} {t : TransportNo} {line : EncLine} {adc : BitVec 10}

/-- A counted edge counts in its transport, and then lets both Capture Units take their lines. -/
theorem encoderCount_of_counts (adc : BitVec 10) (h : (s.tr t).pos.counts line) : ∃ u, exec (.encoderCount t line adc) s = .next u ∧
    (s.modTr t (·.count line adc ((s.tr t).pos.goesForward line))).CapturesOnly u t :=
  ⟨_, if_pos h, (State.capturesOnly_captureCount _ _ _ _).trans (State.capturesOnly_captureCount _ _ _ _)⟩

theorem encoderCount_of_not_counts (h : ¬(s.tr t).pos.counts line) : exec (.encoderCount t line adc) s = .next s := if_neg h

/-- The records of a transport after a counted edge, but for their sides. -/
theorem sideless_encoderCount (h : exec (.encoderCount t line adc) s = .next u) (hc : (s.tr t).pos.counts line) :
    ∃ l f b, u.tr t = { (s.tr t).count line adc ((s.tr t).pos.goesForward line) with track := l, front := f, back := b } ∧
      (u.tr t).track.map SheetRecord.sideless =
        ((s.tr t).count line adc ((s.tr t).pos.goesForward line)).track.map SheetRecord.sideless := by
  obtain ⟨v, hv, k⟩ := encoderCount_of_counts adc hc
  obtain rfl := Host.Outcome.next.inj (hv.symm.trans h)
  obtain ⟨l, f, b, e⟩ := k.shape
  rw [State.tr_modTr_self] at e
  exact ⟨l, f, b, e, by have := k.sideless; rwa [State.tr_modTr_self] at this⟩

end

theorem kernel_count (x : Transport) (line : EncLine) (adc : BitVec 10) (forward : Bool) :
    (x.count line adc forward).track.map SheetRecord.kernel = x.track.map SheetRecord.kernel := by
  obtain ⟨d, g, -, e⟩ := x.samplesOnly_count line adc forward
  rw [e, Transport.moved_eq, List.map_map, List.map_map]
  exact List.map_congr_left fun r _ => Transport.kernel_passRecord _ _ r

/-- Settles O14. -/
theorem encoderCountFrame : Obligations.EncoderCountFrame := by
  refine ⟨fun s u t line adc h => ?_, fun s t => rfl⟩
  by_cases hc : (s.tr t).pos.counts line
  · obtain ⟨v, hv, k⟩ := encoderCount_of_counts adc hc
    obtain rfl := Host.Outcome.next.inj (hv.symm.trans h)
    obtain ⟨l, f, b, e⟩ := k.shape
    have hk := k.kernel
    rw [State.tr_modTr_self] at e hk
    refine ⟨fun i hi => (k.others i hi).trans (State.tr_setTr_of_ne _ _ hi), State.OutsideKept.modTr.trans k.outside, ?_⟩
    dsimp only
    rw [hk, kernel_count, e]
    obtain ⟨d, g, hd, e2⟩ := (s.tr t).samplesOnly_count line adc ((s.tr t).pos.goesForward line)
    rw [e2, Transport.moved_eq]
    refine ⟨rfl, rfl, rfl, rfl, rfl, rfl, rfl, rfl, rfl, rfl, rfl, rfl, rfl, rfl, rfl, ?_, fun sn => Transport.sensor_flip _ line sn _ _,
      ?_, ?_, fun _ => rfl, rfl⟩
    · rw [Transport.moved_eq] at hd
      exact hd
    · cases line <;> rfl
    · cases line <;> rfl
  · rw [encoderCount_of_not_counts hc] at h
    obtain rfl := Host.Outcome.next.inj h
    exact ⟨fun _ _ => rfl, .refl s, rfl, rfl, rfl, rfl, rfl, rfl, rfl, rfl, rfl, rfl, rfl, rfl, rfl, rfl, rfl, rfl, fun _ => rfl, rfl, rfl,
      fun g => absurd g hc, rfl⟩

/-! ### Expiries -/

/-- Every armed position of a record and its gap are passed by a forward count, and by no other. -/
theorem passRecord_expiries (p : Pos) (forward : Bool) (r : SheetRecord) :
    let q := Transport.passRecord p forward r
    q.id = r.id ∧ (∀ st, (q.at st).leadEnd = (if forward then (r.at st).leadEnd.pass p else (r.at st).leadEnd) ∧
      (q.at st).trailEnd = if forward then (r.at st).trailEnd.pass p else (r.at st).trailEnd) ∧
    q.gap = (if forward then r.gap.pass p else r.gap) ∧
    ∀ sd, (q.side sd).windowStart = (if forward then (r.side sd).windowStart.pass p else (r.side sd).windowStart) ∧
      (q.side sd).windowEnd = if forward then (r.side sd).windowEnd.pass p else (r.side sd).windowEnd := by
  cases forward with
  | false => exact ⟨rfl, fun _ => ⟨rfl, rfl⟩, rfl, fun _ => ⟨rfl, rfl⟩⟩
  | true => exact ⟨rfl, fun st => by cases st <;> exact ⟨rfl, rfl⟩, rfl, fun sd => by cases sd <;> exact ⟨rfl, rfl⟩⟩

/-- What the outline of a record tells of its expiries. -/
theorem expiries_of_outline {q r : SheetRecord} (h : q.outline = r.outline) : q.id = r.id ∧ (∀ st, q.at st = r.at st) ∧ q.gap = r.gap ∧
    ∀ sd, (q.side sd).windowStart = (r.side sd).windowStart ∧ (q.side sd).windowEnd = (r.side sd).windowEnd := by
  have at' : ∀ (r : SheetRecord) st, r.outline.at st = r.at st := fun r st => by cases st <;> rfl
  have ws : ∀ (r : SheetRecord) sd, (r.outline.side sd).windowStart = (r.side sd).windowStart := fun r sd => by cases sd <;> rfl
  have we : ∀ (r : SheetRecord) sd, (r.outline.side sd).windowEnd = (r.side sd).windowEnd := fun r sd => by cases sd <;> rfl
  refine ⟨(congrArg SheetRecord.id h :), fun st => ?_, (congrArg SheetRecord.gap h :), fun sd => ⟨?_, ?_⟩⟩
  · rw [← at' q, h, at']
  · rw [← ws q, h, ws]
  · rw [← we q, h, we]

/-- Settles O15. -/
theorem passingRaisesExpiries : Obligations.PassingRaisesExpiries := by
  intro s t line adc hp hc
  obtain ⟨u, hu, k⟩ := encoderCount_of_counts adc hc
  refine ⟨u, hu, ?_⟩
  intro c forward after
  have armed : ∀ a, after a = if forward then a.pass c else a := fun a => by
    dsimp only [after]
    cases forward
    · rfl
    · cases a <;> rfl
  obtain ⟨l, f, b, e⟩ := k.shape
  have hpc := (Transport.safe_count (s.tr t) line adc ((s.tr t).pos.goesForward line)).pageLaw hp
  have ho := k.outline
  rw [State.tr_modTr_self] at e ho
  have ho := (ho hpc).2
  obtain ⟨d, g, hd, e2⟩ := (s.tr t).samplesOnly_count line adc ((s.tr t).pos.goesForward line)
  rw [Transport.moved_eq] at e2
  refine ⟨?_, ?_, fun r hr => ?_⟩
  · rw [e, e2, armed]
  · rw [e, e2, armed]
    dsimp only
    show (if forward then _ else _ : MarkUnit).windowEnd = _
    cases forward <;> rfl
  · have hm : { Transport.passRecord (s.tr t).pos.counter ((s.tr t).pos.goesForward line) r with
        verdict := g (Transport.passRecord (s.tr t).pos.counter ((s.tr t).pos.goesForward line) r) } ∈
        ((s.tr t).count line adc ((s.tr t).pos.goesForward line)).track := by
      rw [e2]
      exact List.mem_map_of_mem (List.mem_map_of_mem hr)
    obtain ⟨q, hq, hqo⟩ := List.mem_map.mp (ho ▸ List.mem_map_of_mem (f := SheetRecord.outline) hm)
    obtain ⟨o1, o2, o3, o4⟩ := expiries_of_outline hqo
    obtain ⟨p1, p2, p3, p4⟩ := passRecord_expiries (s.tr t).pos.counter ((s.tr t).pos.goesForward line) r
    refine ⟨q, hq, o1.trans p1, fun st => ?_, (o3.trans p3).trans ?_, fun sd => ?_⟩
    · rw [o2 st, armed, armed, ← (p2 st).1, ← (p2 st).2]
      cases st <;> exact ⟨rfl, rfl⟩
    · show (if forward then r.gap.pass c else r.gap) = _
      cases forward
      · rfl
      · cases r.gap <;> rfl
    · rw [(o4 sd).1, (o4 sd).2, armed, armed, ← (p4 sd).1, ← (p4 sd).2]
      cases sd <;> exact ⟨rfl, rfl⟩

end Sys2Proof.Machine
end

/-! PROOFS. The sample step and where a sample goes (04 section 4.3, Table 4-4). -/

section

namespace Sys2Proof.Machine

namespace Transport

variable (x : Transport)

theorem isActive_iff : x.isActive = true ↔ x.state = .running ∨ x.state = .draining := by
  unfold isActive
  simp

/-! ### Where a sample goes -/

theorem routeSample_of_off (a : Nat) (q : Pos) (h : ¬(x.state = .running ∨ x.state = .draining) ∨ x.motor = .standing ∨ x.motor = .runOff) :
    x.routeSample a q = x := by
  unfold routeSample
  split
  · next hact =>
    rcases h with h | h | h
    · exact absurd (x.isActive_iff.mp hact) h
    · rw [h]
    · rw [h]
  · rfl

theorem routeSample_of_runIn (a : Nat) (q : Pos) (h : x.state = .running ∨ x.state = .draining) (hm : x.motor = .runIn) :
    x.routeSample a q = if x.pos.df.level then x else { x with dfu := { x.dfu with runIn := x.dfu.runIn.add a } } := by
  unfold routeSample
  rw [if_pos (x.isActive_iff.mpr h), hm]

theorem routeSample_of_gap (a : Nat) (q : Pos) (h : x.state = .running ∨ x.state = .draining) (hm : x.motor = .driving)
    (hl : x.pos.df.level = false) : x.routeSample a q = x.gapSample a := by
  unfold routeSample
  rw [if_pos (x.isActive_iff.mpr h), hm]
  simp [hl]

theorem routeSample_of_paper (a : Nat) (q : Pos) (h : x.state = .running ∨ x.state = .draining) (hm : x.motor = .driving)
    (hl : x.pos.df.level = true) :
    x.routeSample a q = x.recordAtDF.elim x fun r => if r.verdict.ampUnavailable then x else x.runSample r a q := by
  unfold routeSample
  rw [if_pos (x.isActive_iff.mpr h), hm]
  simp only [hl, if_true]
  cases x.recordAtDF <;> rfl

theorem runSample_of_none (r : SheetRecord) (a : Nat) (q : Pos) (h : x.dfu.run = .none) : x.runSample r a q = x := by
  unfold runSample
  rw [h]
  split <;> simp_all

theorem runSample_of_outside {r : SheetRecord} {eIn eOut : Nat} (a : Nat) (q : Pos) (h : x.dfu.run = .outside)
    (ht : r.verdict.thresholds = some (eIn, eOut)) :
    x.runSample r a q = { x with dfu := { x.dfu with run := if a < eIn then .inside q else .outside } } := by
  unfold runSample
  rw [h, ht]
  dsimp only
  split
  · rfl
  · rw [← h]

theorem runSample_of_inside {r : SheetRecord} {eIn eOut : Nat} {p : Pos} (a : Nat) (q : Pos) (h : x.dfu.run = .inside p)
    (ht : r.verdict.thresholds = some (eIn, eOut)) :
    x.runSample r a q = if eOut < a then { x.modRecord r.id (·.endRun x p q) with dfu := { x.dfu with run := .outside } } else x := by
  unfold runSample
  rw [h, ht]

/-! ### The unit and the verdicts after a count -/

/-- The Double-Feed Unit and the verdicts of the records. -/
def sampled (x : Transport) : DoubleFeedUnit × List Verdict := (x.dfu, x.track.map (·.verdict))

theorem verdict_passRecord (p : Pos) (forward : Bool) (r : SheetRecord) : (passRecord p forward r).verdict = r.verdict := by
  cases forward <;> rfl

theorem sampled_moved (line : EncLine) (forward : Bool) : (x.moved line forward).sampled = x.sampled := by
  rw [moved_eq]
  unfold sampled
  dsimp only
  rw [List.map_map]
  exact congrArg _ (List.map_congr_left fun r _ => verdict_passRecord _ _ r)

theorem sampled_mk {y : Transport} {d : DoubleFeedUnit} (h : y.sampled = (d, x.track.map (·.verdict))) :
    y.dfu = d ∧ y.track.map (·.verdict) = x.track.map (·.verdict) := ⟨congrArg Prod.fst h, congrArg Prod.snd h⟩

theorem recordAtDF_moved (line : EncLine) :
    (x.moved line true).recordAtDF = x.recordAtDF.map (·.pass x.pos.counter) := by
  rw [moved_eq]
  exact List.find?_map

/-- The transport that a sample meets: the counter moved on, the expiries raised, the sample step begun anew. -/
def atSample (x : Transport) (line : EncLine) : Transport :=
  { x.moved line true with dfu := { (x.moved line true).dfu with step := 0 } }

theorem df_flip (line : EncLine) : (x.pos.flip line).df = x.pos.df := by cases line <;> rfl

theorem sampleCount_of_setup {c : Setup} (h : x.setup = some c) (a : Nat) : x.sampleCount a =
    if x.dfu.step + 1 < c.sampleDistance then { x with dfu := { x.dfu with step := x.dfu.step + 1 } }
    else ({ x with dfu := { x.dfu with step := 0 } } : Transport).routeSample a x.pos.counter := by
  unfold sampleCount
  split
  · next h0 => rw [h] at h0; cases h0
  · next u h0 => rw [h] at h0; cases h0; rfl

theorem sampled_moved_dfu (line : EncLine) (d : DoubleFeedUnit) :
    ({ x.moved line true with dfu := d } : Transport).sampled = (d, x.track.map (·.verdict)) :=
  Prod.ext rfl (congrArg Prod.snd (x.sampled_moved line true) :)

theorem count_of_step {c : Setup} (line : EncLine) (adc : BitVec 10) (h : x.setup = some c) (hd : x.dfu.step + 1 < c.sampleDistance) :
    (x.count line adc true).sampled = ({ x.dfu with step := x.dfu.step + 1 }, x.track.map (·.verdict)) := by
  rw [count_eq, if_pos rfl, (x.moved line true).sampleCount_of_setup (c := c) h, if_pos (show (x.moved line true).dfu.step + 1 < _ from hd)]
  exact x.sampled_moved_dfu line _

theorem count_of_sample {c : Setup} (line : EncLine) (adc : BitVec 10) (h : x.setup = some c) (hd : c.sampleDistance ≤ x.dfu.step + 1) :
    x.count line adc true = (x.atSample line).routeSample adc.toNat (x.pos.counter + 1) := by
  rw [count_eq, if_pos rfl, (x.moved line true).sampleCount_of_setup (c := c) h,
    if_neg (Nat.not_lt.mpr (show c.sampleDistance ≤ (x.moved line true).dfu.step + 1 from hd))]
  rfl

theorem sampled_atSample (line : EncLine) : (x.atSample line).sampled = ({ x.dfu with step := 0 }, x.track.map (·.verdict)) :=
  x.sampled_moved_dfu line _

theorem recordAtDF_atSample (line : EncLine) : (x.atSample line).recordAtDF = x.recordAtDF.map (·.pass x.pos.counter) :=
  x.recordAtDF_moved line

/-- A run is judged by the setup, the profile and the DF lead, which a count leaves. -/
theorem endRun_pass (r : SheetRecord) (line : EncLine) (p q : Pos) :
    ((r.pass x.pos.counter).endRun (x.atSample line) p q).id = r.id ∧
      ((r.pass x.pos.counter).endRun (x.atSample line) p q).verdict = (r.endRun x p q).verdict := by
  have hj : judgeRun (x.atSample line) ((x.atSample line).profileOf r.selector) (r.df.lead.getD 0) p q =
      judgeRun x (x.profileOf r.selector) (r.df.lead.getD 0) p q := rfl
  constructor
  · rw [endRun_eq]; rfl
  · unfold SheetRecord.endRun
    rw [show (r.pass x.pos.counter).selector = r.selector from rfl, show (r.pass x.pos.counter).df.lead = r.df.lead from rfl, hj]
    split <;> rfl

end Transport

/-- After a counted edge the unit and the verdicts are those that the count in the transport gives. -/
theorem sampled_encoderCount {s u : State} {t : TransportNo} {line : EncLine} {adc : BitVec 10}
    (h : exec (.encoderCount t line adc) s = .next u) (hc : (s.tr t).pos.counts line) :
    (u.tr t).sampled = ((s.tr t).count line adc ((s.tr t).pos.goesForward line)).sampled ∧
      ∀ r ∈ ((s.tr t).count line adc ((s.tr t).pos.goesForward line)).track, ∃ q ∈ (u.tr t).track, q.id = r.id ∧ q.verdict = r.verdict := by
  obtain ⟨l, f, b, e, hs⟩ := sideless_encoderCount h hc
  refine ⟨Prod.ext (show (u.tr t).dfu = _ from (congrArg Transport.dfu e :)) ?_, fun r hr => ?_⟩
  · have := congrArg (List.map SheetRecord.verdict) hs
    rwa [List.map_map, List.map_map] at this
  · obtain ⟨q, hq, hqr⟩ := List.mem_map.mp (hs ▸ List.mem_map_of_mem (f := SheetRecord.sideless) hr)
    exact ⟨q, hq, (congrArg SheetRecord.id hqr :), (congrArg SheetRecord.verdict hqr :)⟩

open Transport in
/-- Settles O16. -/
theorem sampleStep : Obligations.SampleStep := by
  intro s u t line adc c hset hcounts hexec
  obtain ⟨hsam, hrec⟩ := sampled_encoderCount hexec hcounts
  intro x d e q zero add kept inMotion atDF
  have result : ∀ {d'}, (x.count line adc (x.pos.goesForward line)).sampled = (d', x.track.map (·.verdict)) → e = d' ∧ kept :=
    fun h => x.sampled_mk (hsam.trans h)
  refine ⟨fun hf => result ?_, fun hf hstep => result ?_, fun hf hstep => ?_⟩
  · rw [hf]
    exact x.sampled_moved line false
  · rw [hf]
    exact x.count_of_step line adc hset hstep
  · have hcount : x.count line adc (x.pos.goesForward line) = (x.atSample line).routeSample adc.toNat q := by
      rw [hf]; exact x.count_of_sample line adc hset hstep
    rw [show (s.tr t).count line adc ((s.tr t).pos.goesForward line) = _ from hcount] at hsam hrec
    rw [hcount] at result
    have hz := x.sampled_atSample line
    have hdf : (x.atSample line).pos.df = x.pos.df := x.df_flip line
    refine ⟨fun h => result ?_, fun hm hr => ?_, fun hm hd hl => ?_, fun hm hd hl => ⟨fun hat => result ?_, fun r hat => ⟨?_, ?_⟩⟩⟩
    · rw [(x.atSample line).routeSample_of_off _ _ h]; exact hz
    · refine (result ?_).symm
      rw [(x.atSample line).routeSample_of_runIn _ _ hm hr, hdf]
      split
      · exact hz
      · exact x.sampled_moved_dfu line _
    · refine (result ?_).symm
      rw [(x.atSample line).routeSample_of_gap _ _ hm hd (hdf ▸ hl)]
      unfold gapSample
      rw [hdf]
      split
      · exact hz
      · by_cases hx : 0 < d.trailExclusion
        · rw [if_pos hx, if_pos (show 0 < (x.atSample line).dfu.trailExclusion from hx)]
          exact x.sampled_moved_dfu line _
        · rw [if_neg hx, if_neg (show ¬0 < (x.atSample line).dfu.trailExclusion from hx)]
          exact x.sampled_moved_dfu line _
    · rw [(x.atSample line).routeSample_of_paper _ _ hm hd (hdf ▸ hl), x.recordAtDF_atSample line, show x.recordAtDF = none from hat]
      exact hz
    · intro h
      refine result ?_
      rw [(x.atSample line).routeSample_of_paper _ _ hm hd (hdf ▸ hl), x.recordAtDF_atSample line, show x.recordAtDF = some r from hat]
      dsimp only [Option.map_some, Option.elim_some]
      split
      · exact hz
      · next ha => rw [(x.atSample line).runSample_of_none _ _ _ (h.resolve_left ha)]; exact hz
    · intro eIn eOut ha ht
      have hroute : (x.atSample line).routeSample adc.toNat q = (x.atSample line).runSample (r.pass x.pos.counter) adc.toNat q := by
        rw [(x.atSample line).routeSample_of_paper _ _ hm hd (hdf ▸ hl), x.recordAtDF_atSample line, show x.recordAtDF = some r from hat]
        exact if_neg (by rw [show (r.pass x.pos.counter).verdict = r.verdict from rfl, ha]; decide)
      rw [hroute] at result hrec hsam
      refine ⟨fun hrun => (result ?_).symm, fun p hrun => ⟨fun hle => result ?_, fun hlt => ⟨?_, ?_⟩⟩⟩
      · rw [(x.atSample line).runSample_of_outside (r := r.pass x.pos.counter) _ _ hrun ht]
        exact x.sampled_moved_dfu line _
      · rw [(x.atSample line).runSample_of_inside (r := r.pass x.pos.counter) _ _ hrun ht, if_neg (Nat.not_lt.mpr hle)]
        exact hz
      · have he : e = ((x.atSample line).runSample (r.pass x.pos.counter) adc.toNat q).dfu := congrArg Prod.fst hsam
        rw [he, (x.atSample line).runSample_of_inside (r := r.pass x.pos.counter) _ _ hrun ht, if_pos hlt]
        rfl
      · have hr : r ∈ x.track := List.mem_of_find?_eq_some hat
        obtain ⟨k, hk, hid, hv⟩ := hrec ((r.pass x.pos.counter).endRun (x.atSample line) p q) (by
          rw [(x.atSample line).runSample_of_inside (r := r.pass x.pos.counter) _ _ hrun ht, if_pos hlt]
          exact List.mem_map.mpr ⟨_, List.mem_map_of_mem hr, if_pos rfl⟩)
        exact ⟨k, hk, hid.trans (x.endRun_pass r line p q).1, hv.trans (x.endRun_pass r line p q).2⟩

end Sys2Proof.Machine
end

/-! PROOFS. The line trigger and the pages of a stored line (06 sections 6.2, 6.3 and 6.6). -/

section

namespace Sys2Proof.Machine

/-! ### Replacing twice -/

theorem State.setTr_setTr (s : State) (t : TransportNo) (x y : Transport) : (s.setTr t x).setTr t y = s.setTr t y := by
  simp [State.setTr]

theorem State.modTr_modTr (s : State) (t : TransportNo) (f g : Transport → Transport) :
    (s.modTr t f).modTr t g = s.modTr t fun x => g (f x) := by
  show (s.setTr t _).setTr t (g ((s.setTr t _).tr t)) = _
  rw [State.setTr_setTr, State.tr_setTr_self]
  rfl

theorem Transport.setUnit_setUnit (x : Transport) (sd : Side) (u w : CaptureUnit) : (x.setUnit sd u).setUnit sd w = x.setUnit sd w := by
  cases sd <;> rfl

/-! ### The line trigger -/

namespace State

variable {s : State} {t : TransportNo} {sd : Side} {r : SheetRecord}

theorem captureCount_of_not_inside (h : ∀ id, ((s.tr t).unit sd).activity ≠ .capturing id false) (f : Bool) :
    s.captureCount t sd f = s := by
  unfold captureCount
  dsimp only
  split
  · next i _ ha _ => exact absurd ha (h i)
  · rfl

/-- A count for a unit inside the window of its side, whose end is not passed (R109). -/
theorem captureCount_of_inside (h : (s.tr t).record r.id = some r) (ha : ((s.tr t).unit sd).activity = .capturing r.id false) (f : Bool) :
    s.captureCount t sd f =
      if (r.side sd).windowEnd = .raised then s
      else if !f then s.modTr t fun x => x.setUnit sd
        { (s.tr t).unit sd with rewind := rewindPlus ((s.tr t).unit sd).rewind r.id (s.tr t).pos.counter }
      else if 0 < ((s.tr t).unit sd).rewind then s.modTr t fun x => x.setUnit sd
        { (s.tr t).unit sd with rewind := ((s.tr t).unit sd).rewind - 1 }
      else if ((s.tr t).profileOf r.selector).pitch ≤ ((s.tr t).unit sd).accumulator + 65536 then
        (s.modTr t fun x => x.setUnit sd { (s.tr t).unit sd with
          accumulator := ((s.tr t).unit sd).accumulator + 65536 - ((s.tr t).profileOf r.selector).pitch }).triggerLine t sd
      else s.modTr t fun x => x.setUnit sd { (s.tr t).unit sd with accumulator := ((s.tr t).unit sd).accumulator + 65536 } := by
  have hc : (s.tr t).capturedRecord sd = some r := (Transport.capturedRecord_eq ha).trans h
  unfold captureCount
  dsimp only
  split
  · next i q _ hq =>
    rw [hc] at hq
    cases hq
    rfl
  · next h0 => exact (h0 _ _ ha hc).elim

/-- A trigger of a unit whose outstanding count does not reach 32768. -/
theorem triggerLine_setUnit (u : CaptureUnit) (h : u.outstanding + 1 ≠ 32768) :
    (s.modTr t fun x => x.setUnit sd u).triggerLine t sd = s.setTr t ((s.tr t).setUnit sd { u with trigger := u.trigger + 1 }) := by
  unfold triggerLine
  dsimp only
  rw [tr_modTr_self, Transport.unit_setUnit_self, if_neg h, modTr_modTr]
  simp only [modTr, Transport.unit_setUnit_self, Transport.setUnit_setUnit]

/-- A trigger that would make 32768 lines outstanding repairs the oldest one first (R113). -/
theorem triggerLine_repairs (h : (s.tr t).capturedRecord sd = some r) (ho : ((s.tr t).unit sd).outstanding + 1 = 32768) :
    ∃ z w, LinesTaken s t sd r 1 1 (s.repairLine t sd) z w ∧
      (s.triggerLine t sd).tr t = (s.tr t).putSide r.id sd (fun _ => z) { w with trigger := w.trigger + 1 } := by
  obtain ⟨z, w, hz, -⟩ := linesTaken_repairLine h
  refine ⟨z, w, hz, ?_⟩
  unfold triggerLine
  dsimp only
  rw [if_pos ho, tr_modTr_self, hz.tr, Transport.unit_putSide_self]
  unfold Transport.putSide
  rw [Transport.setUnit_setUnit]

end State

theorem Transport.capturedRecord_setUnit (x : Transport) (sd : Side) {u : CaptureUnit} (h : u.activity = (x.unit sd).activity) :
    (x.setUnit sd u).capturedRecord sd = x.capturedRecord sd := by
  unfold capturedRecord record
  rw [unit_setUnit_self, h, setUnit_track]

/-! ### The pages -/

/-- EVT.SPACE is set where the free pages come below the mark (R125). -/
theorem State.refreshMark_evt (s : State) : s.refreshMark.room.evt =
    if s.hold.freePages < s.hold.lowMark ∧ s.hold.below = false then s.room.evt ||| 0x2000#16 else s.room.evt := by
  unfold refreshMark
  dsimp only
  by_cases h : s.hold.freePages < s.hold.lowMark ∧ s.hold.below = false
  · rw [if_pos h, if_pos (by simp [h.1, h.2])]; rfl
  · rw [if_neg h, if_neg (by simpa using h)]; rfl

/-- Where a page is taken from the free pages, one fewer is free, and the condition below the mark is worked out afresh. -/
theorem State.takeFreePage (s : State) {page : Nat} {rest : List Nat} (hf : s.hold.free = page :: rest) (h : 0 < s.hold.freePages) :
    let u := (s.setHold { s.hold with free := rest }).refreshMark
    u.hold.free = rest ∧ u.hold.freePages + 1 = s.hold.freePages ∧
      (u.hold.below = true ↔ s.hold.freePages - 1 < s.hold.lowMark) ∧
      u.room.evt = if s.hold.freePages - 1 < s.hold.lowMark ∧ s.hold.below = false then s.room.evt ||| 0x2000#16 else s.room.evt := by
  have hp : ({ s.hold with free := rest } : HoldStore).freePages + 1 = s.hold.freePages := by
    unfold HoldStore.freePages at h ⊢
    rw [hf, List.length_cons] at h ⊢
    dsimp only
    omega
  have hp' : s.hold.freePages - 1 = ({ s.hold with free := rest } : HoldStore).freePages := by omega
  rw [hp']
  dsimp only
  refine ⟨by rw [refreshMark_hold]; rfl, by rw [refreshMark_hold]; exact hp, by rw [refreshMark_hold]; exact decide_eq_true_iff, ?_⟩
  exact refreshMark_evt _

/-- Settles O31. -/
theorem lineTriggerAndPages : Obligations.LineTriggerAndPages := by
  refine ⟨fun s t line adc h => if_pos h, fun s t sd r => ⟨State.captureCount_of_not_inside, fun h ha => ⟨fun hr f => ?_, fun hr => ?_⟩⟩,
    fun s y line => ?_⟩
  · rw [State.captureCount_of_inside h ha, if_pos hr]
  · refine ⟨fun hw => ?_, fun hw => ?_, fun hw hp => ?_, fun hw hp ho => ?_, fun hw hp ho => ?_⟩
    · rw [State.captureCount_of_inside h ha, if_neg hr, if_pos (by decide), rewindPlus, if_pos (by omega)]
      rfl
    · rw [State.captureCount_of_inside h ha, if_neg hr, if_neg (by decide), if_pos hw]
      rfl
    · rw [State.captureCount_of_inside h ha, if_neg hr, if_neg (by decide), if_neg (by omega), if_neg (by omega)]
      rfl
    · rw [State.captureCount_of_inside h ha, if_neg hr, if_neg (by decide), if_neg (by omega), if_pos hp]
      exact State.triggerLine_setUnit _ ho
    · rw [State.captureCount_of_inside h ha, if_neg hr, if_neg (by decide), if_neg (by omega), if_pos hp]
      set u' : CaptureUnit := { (s.tr t).unit sd with
        accumulator := ((s.tr t).unit sd).accumulator + 65536 - ((s.tr t).profileOf r.selector).pitch }
      have hc : ((s.modTr t fun x => x.setUnit sd u').tr t).capturedRecord sd = some r := by
        rw [State.tr_modTr_self, Transport.capturedRecord_setUnit (u := u') _ _ rfl, Transport.capturedRecord_eq ha, h]
      obtain ⟨z, w, hz, htr⟩ := State.triggerLine_repairs hc (by rw [State.tr_modTr_self, Transport.unit_setUnit_self]; exact ho)
      have hu := hz.unit
      have he := hz.expected
      have hm := (Transport.capturedRecord_some hc).1
      rw [State.tr_modTr_self, Transport.unit_setUnit_self] at hu he
      dsimp only
      rw [htr, Transport.unit_putSide_self]
      refine ⟨by rw [hu], he, by rw [hu], r.setSide sd z, ?_, SheetRecord.setSide_id .., ?_, ?_⟩
      · rw [Transport.putSide_track]
        exact List.mem_map.mpr ⟨r, hm, if_pos rfl⟩
      · rw [SheetRecord.side_setSide_self, hz.lines]
      · rw [SheetRecord.side_setSide_self, hz.repaired]
  · intro z full
    refine ⟨fun hc => if_pos hc, fun hc hf => ?_, fun page rest hc hf hfree => ⟨fun hr => ⟨?_, fun hp => ?_⟩, fun hr hp => ?_⟩, fun hc hf hr hp => ?_⟩
    · show s.storeLine y line = _
      unfold State.storeLine
      rw [if_neg (by simp [hc]), if_pos (Nat.not_lt.mp hf)]
    all_goals
      have hz : z = _ := (if_neg (by simp [hc])).trans (if_neg (Nat.not_le.mpr hf))
    · rw [hz, hfree]
      exact if_pos hr
    · rw [hz, hfree]
      dsimp only
      rw [if_pos hr]
      unfold HoldStore.freePages
      rw [hfree, List.length_cons]
      simp only [State.setHold_hold]
      omega
    · rw [hz, hfree]
      dsimp only
      rw [if_neg (by omega), if_pos hp]
      exact ⟨rfl, s.takeFreePage hfree hp⟩
    · rw [hz]
      split
      · rfl
      · rw [if_neg (by omega), if_neg (by omega)]

end Sys2Proof.Machine
end

/-! PROOFS. The capture windows and the line packets (06 sections 6.2, 6.3 and 6.5): when a side begins, takes its lines and
completes. -/

section

namespace Sys2Proof.Machine

namespace State

variable {s u v : State} {t : TransportNo} {sd : Side} {r : SheetRecord} {z : SideRecord} {w : CaptureUnit} {n m : Nat}

/-! ### What a return of pages changes in the transports -/

theorem serveList_of_no_request (s : State) (h : s.hold.waiting = []) (i : TransportNo) :
    s.serveList.tr i = s.tr i ∧ s.serveList.hold.waiting = [] := by
  unfold serveList
  rw [h]
  exact ⟨rfl, rfl⟩

theorem waiting_takeBack (s : State) (pages : List Nat) (n : Nat) : (s.takeBack pages n).hold.waiting = s.hold.waiting := by
  unfold takeBack
  rw [refreshMark_hold]
  rfl

/-- With no request waiting a return of pages changes no transport. -/
theorem returnPages_of_no_request (s : State) (pages : List Nat) (n : Nat) (h : s.hold.waiting = []) (i : TransportNo) :
    (s.returnPages pages n).tr i = s.tr i := by
  unfold returnPages
  obtain ⟨h1, h2⟩ := s.serveList_of_no_request h i
  rw [((s.serveList.takeBack pages n).serveList_of_no_request (by rw [waiting_takeBack]; exact h2) i).1, tr_takeBack, h1]

theorem onlyPicked_returnPages (s : State) (pages : List Nat) (n : Nat) (i : TransportNo) :
    (s.tr i).OnlyPicked ((s.returnPages pages n).tr i) ∧ (s.hold.waiting = [] → (s.returnPages pages n).tr i = s.tr i) :=
  ⟨(s.mayPick_returnPages pages n i).onlyPicked, fun h => s.returnPages_of_no_request pages n h i⟩

/-! ### A side completes -/

end State

/-- A side that completes: its blank result worked out, its reservation returned (R110, R118). -/
def SideRecord.completed (x : SideRecord) (p : Profile) (width : Nat) : SideRecord :=
  { x with capture := .complete, reserve := 0, windowEnd := .idle, blank := some (blankResult p width x) }

/-- A unit whose side has completed. -/
def CaptureUnit.done (u : CaptureUnit) : CaptureUnit := { u with activity := .idle, packetWait := false, inkHistory := [] }

namespace State

variable {s u v : State} {t : TransportNo} {sd : Side} {r : SheetRecord} {z : SideRecord} {w : CaptureUnit} {n m : Nat}

theorem completeSide_eq (h : (s.tr t).capturedRecord sd = some r) : s.completeSide t sd =
    (s.modTr t fun x => x.putSide r.id sd
      (fun _ => (r.side sd).completed ((s.tr t).profileOf r.selector) (s.tr t).cfg.width) (x.unit sd).done).returnPages []
        (r.side sd).reserve := completeSide_of_captured t sd h

/-- What becomes of its transport where lines are taken for a side and the side then completes. -/
structure SideDone (s : State) (t : TransportNo) (sd : Side) (r : SheetRecord) (z : SideRecord) (w : CaptureUnit) (v : State) : Prop where
  tr : (((s.tr t).putSide r.id sd (fun _ => z.completed ((s.tr t).profileOf r.selector) (s.tr t).cfg.width) w.done)).MayPick
    s.hold.total (v.tr t)
  others : s.OthersOnlyPick v t
  outside : s.OutsideKept v

theorem LinesTaken.completeSide (h : LinesTaken s t sd r n m u z w) (hc : (s.tr t).capturedRecord sd = some r) :
    s.SideDone t sd r z w (u.completeSide t sd) := by
  have hcu := h.captured hc
  have hcfg : (u.tr t).cfg = (s.tr t).cfg := by rw [h.tr, Transport.cfg_putSide]
  have hprof : (u.tr t).profileOf (r.setSide sd z).selector = (s.tr t).profileOf r.selector := by
    rw [h.tr, Transport.profileOf_putSide]; cases sd <;> rfl
  have hunit : (u.tr t).unit sd = w := by rw [h.tr, Transport.unit_putSide_self]
  have hd : u.hold.total = s.hold.total := congrArg DramSize.pages h.dram
  rw [completeSide_eq hcu, SheetRecord.side_setSide_self, SheetRecord.setSide_id, hcfg, hprof]
  set y := z.completed ((s.tr t).profileOf r.selector) (s.tr t).cfg.width
  refine ⟨?_, fun i hi => ?_, (h.outside.trans .modTr).trans (outside_returnPages _ _ _)⟩
  · have hm := mayPick_returnPages (u.modTr t fun x => x.putSide r.id sd (fun _ => y) (x.unit sd).done)
      [] z.reserve t
    rw [tr_modTr_self, hunit] at hm
    rw [show (u.tr t).putSide r.id sd (fun _ => y) w.done =
      (s.tr t).putSide r.id sd (fun _ => y) w.done by rw [h.tr, Transport.putSide_putSide],
      show (u.modTr t _).hold.total = s.hold.total from hd] at hm
    exact hm
  · have hp := onlyPicked_returnPages (u.modTr t fun x => x.putSide r.id sd (fun _ => y) (x.unit sd).done)
      [] z.reserve i
    have htr : (u.modTr t fun x => x.putSide r.id sd (fun _ => y) (x.unit sd).done).tr i = s.tr i :=
      (tr_setTr_of_ne _ _ hi).trans (h.others i hi)
    rw [htr] at hp
    exact ⟨hp.1, fun hw => hp.2 (h.waiting.trans hw)⟩

theorem sideDone_repairAndComplete (p : (s.tr t).PageLaw) (h : (s.tr t).capturedRecord sd = some r) :
    ∃ z w u, LinesTaken s t sd r ((s.tr t).unit sd).outstanding ((s.tr t).unit sd).outstanding u z w ∧
      s.SideDone t sd r z w (s.repairAndComplete t sd) := by
  obtain ⟨z, w, hz, -⟩ := linesTaken_repairLines p h ((s.tr t).unit sd).outstanding
  exact ⟨z, w, _, hz, hz.completeSide h⟩

/-- The record and the unit of a side that has completed. -/
theorem SideDone.record (d : s.SideDone t sd r z w v) (hr : r ∈ (s.tr t).track) : (v.tr t).unit sd = w.done ∧
    ∃ q ∈ (v.tr t).track, q.id = r.id ∧ q.side sd = z.completed ((s.tr t).profileOf r.selector) (s.tr t).cfg.width := by
  have hq : r.setSide sd (z.completed ((s.tr t).profileOf r.selector) (s.tr t).cfg.width) ∈
      ((s.tr t).putSide r.id sd (fun _ => z.completed ((s.tr t).profileOf r.selector) (s.tr t).cfg.width) w.done).track := by
    rw [Transport.putSide_track]
    exact List.mem_map.mpr ⟨r, hr, if_pos rfl⟩
  rcases d.tr with e | ⟨-, e⟩
  · rw [e]
    exact ⟨Transport.unit_putSide_self .., _, hq, SheetRecord.setSide_id .., SheetRecord.side_setSide_self ..⟩
  · rw [e]
    refine ⟨?_, _, List.mem_append_left _ hq, SheetRecord.setSide_id .., SheetRecord.side_setSide_self ..⟩
    exact (Transport.unit_putSide_self (s.tr t) r.id sd _ _ : _)

end State
end Sys2Proof.Machine
end

/-! PROOFS. The statements about capture windows and line packets. -/

section

namespace Sys2Proof.Machine

theorem CaptureUnit.expected_add_outstanding (c : CaptureUnit) : c.expected + BitVec.ofNat 16 c.outstanding = c.trigger := by
  unfold outstanding
  rw [BitVec.ofNat_toNat, BitVec.setWidth_eq]
  bv_omega

theorem CaptureUnit.outstanding_eq_zero_iff (c : CaptureUnit) : c.outstanding = 0 ↔ c.trigger = c.expected := by
  unfold outstanding
  constructor
  · intro h
    have := BitVec.eq_of_toNat_eq (x := c.trigger - c.expected) (y := 0) (by simpa using h)
    bv_omega
  · intro h
    simp [h]

theorem CaptureUnit.outstanding_lt (c : CaptureUnit) : c.outstanding < 2 ^ 16 := (c.trigger - c.expected).isLt

namespace State

variable {s u v : State} {t : TransportNo} {sd : Side} {r : SheetRecord} {z : SideRecord} {w : CaptureUnit} {n m : Nat}

theorem OthersOnlyPick.refl (s : State) (t : TransportNo) : s.OthersOnlyPick s t := fun _ _ => ⟨rfl, fun _ => rfl⟩

theorem OthersOnlyPick.of_eq (h : ∀ i, i ≠ t → u.tr i = s.tr i) : s.OthersOnlyPick u t := fun i hi => by
  rw [h i hi]; exact ⟨rfl, fun _ => rfl⟩

theorem OthersOnlyPick.modTr {f : Transport → Transport} (h : s.OthersOnlyPick u t) : s.OthersOnlyPick (u.modTr t f) t := fun i hi => by
  rw [show (u.modTr t f).tr i = u.tr i from tr_setTr_of_ne _ _ hi]
  exact h i hi

theorem triggerLine_eq (h : ((s.tr t).unit sd).outstanding + 1 ≠ 32768) :
    s.triggerLine t sd = s.modTr t fun x => x.setUnit sd { x.unit sd with trigger := (x.unit sd).trigger + 1 } := by
  unfold triggerLine
  dsimp only
  rw [if_neg h]

/-- A capture begins with one line triggered at once (R109). -/
theorem beginCapture_eq (id : Nat) (h : ((s.tr t).unit sd).outstanding + 1 ≠ 32768) : s.beginCapture t sd id = s.modTr t fun x =>
    x.putSide id sd (fun r => { r.side sd with capture := .capturing, windowStart := .idle })
      { x.unit sd with activity := .capturing id false, previous := none, inkHistory := [], rewind := 0, accumulator := 0,
                       trigger := (x.unit sd).trigger + 1 } := by
  unfold beginCapture
  rw [triggerLine_eq (by rw [tr_modTr_self, Transport.unit_setUnit_self]; exact h), modTr_modTr]
  simp only [Transport.unit_setUnit_self, Transport.setUnit_setUnit]
  rfl

/-- With no line outstanding any more a side whose window end has passed completes; else it goes on (R110). -/
theorem completeIfDrained_of_open (h : ∀ id, ((s.tr t).unit sd).activity ≠ .capturing id true) : s.completeIfDrained t sd = s := by
  unfold completeIfDrained
  split
  · next id ha => exact absurd ha (h id)
  · rfl
  · rfl

theorem completeIfDrained_of_ended {id : Nat} (h : ((s.tr t).unit sd).activity = .capturing id true) :
    s.completeIfDrained t sd = if ((s.tr t).unit sd).outstanding = 0 then s.completeSide t sd else s := by
  unfold completeIfDrained
  rw [h]

end State

namespace State

variable {s : State} {t : TransportNo} {sd : Side} {r : SheetRecord}

/-- A window start raised for a record that waits is taken for that record. -/
theorem exec_captureWindowStart (h : (s.tr t).track.find?
      (fun r => (r.side sd).capture == .waiting && (r.side sd).windowStart == .raised) = some r) :
    exec (.captureWindowStart t sd) s = .next ((s.captureStart t sd r.id).finish s []) := by
  show execCaptureWindowStart t sd s = _
  unfold execCaptureWindowStart
  rw [show (s.tr t).findRecord _ = some r from h]

theorem exec_captureWindowEnd (h : (s.tr t).track.find?
      (fun r => (r.side sd).capture == .capturing && (r.side sd).windowEnd == .raised) = some r) :
    exec (.captureWindowEnd t sd) s = .next ((s.captureEnd t sd r.id).finish s []) := by
  show execCaptureWindowEnd t sd s = _
  unfold execCaptureWindowEnd
  rw [show (s.tr t).findRecord _ = some r from h]

theorem captureStart_of_idle (id : Nat) (h : ((s.tr t).unit sd).activity = .idle) : s.captureStart t sd id = s.beginCapture t sd id := by
  unfold captureStart
  rw [h]

/-- A unit whose older side's window end has passed completes that side first (R109). -/
theorem captureStart_of_passed (id : Nat) {i : Nat} {ended : Bool} {q : SheetRecord} (ha : ((s.tr t).unit sd).activity = .capturing i ended)
    (hc : (s.tr t).capturedRecord sd = some q) (he : ended = true ∨ (q.side sd).windowEnd = .raised) :
    s.captureStart t sd id = (s.repairAndComplete t sd).beginCapture t sd id := by
  have hpassed : (s.tr t).windowPassed sd = true := by
    unfold Transport.windowPassed
    rw [ha]
    cases ended with
    | true => rfl
    | false =>
      dsimp only
      rw [hc]
      simpa using he
  unfold captureStart
  rw [ha]
  exact if_pos hpassed

/-- The end of a window with no line outstanding completes the side at once (R110). -/
theorem captureEnd_of_drained (hrec : (s.tr t).record r.id = some r) (ho : ((s.tr t).unit sd).outstanding = 0) :
    s.captureEnd t sd r.id = (s.modTr t fun x => x.putSide r.id sd
      (fun _ => (r.side sd).completed ((s.tr t).profileOf r.selector) (s.tr t).cfg.width) (x.unit sd).done).returnPages []
        (r.side sd).reserve := by
  have hput := Transport.record_putSide (sd := sd) (g := fun r => { r.side sd with windowEnd := .idle })
    (u := { (s.tr t).unit sd with activity := .capturing r.id true, packetWait := true }) hrec
  have hc : ((s.modTr t fun x => x.putSide r.id sd (fun r => { r.side sd with windowEnd := .idle })
      { x.unit sd with activity := .capturing r.id true, packetWait := true }).tr t).capturedRecord sd =
        some (r.setSide sd { r.side sd with windowEnd := .idle }) := by
    rw [tr_modTr_self, ← hput]
    refine Transport.capturedRecord_eq (e := true) ?_
    rw [Transport.unit_putSide_self]
  have hs : s.captureEnd t sd r.id = (s.modTr t fun x => x.putSide r.id sd (fun r => { r.side sd with windowEnd := .idle })
      { x.unit sd with activity := .capturing r.id true, packetWait := true }).completeSide t sd := by
    unfold captureEnd
    exact if_pos ho
  rw [hs, completeSide_eq hc, modTr_modTr, SheetRecord.setSide_id, SheetRecord.side_setSide_self, tr_modTr_self,
    Transport.profileOf_putSide, Transport.cfg_putSide]
  simp only [Transport.putSide_putSide, Transport.unit_putSide_self]
  cases sd <;> rfl

end State

open State in
/-- Settles O29. -/
theorem captureWindows : Obligations.CaptureWindows := by
  refine ⟨?_, ?_, ?_⟩
  · intro s t sd r x c hp hf
    refine ⟨fun ha ho => ?_, fun i q ended ha hq hid he => ?_⟩
    · have h0 : ((s.tr t).unit sd).outstanding = 0 := (CaptureUnit.outstanding_eq_zero_iff _).mpr ho
      rw [exec_captureWindowStart hf, captureStart_of_idle _ ha, beginCapture_eq _ (by omega)]
      rfl
    · have hc : x.capturedRecord sd = some q := hp.captured hq (hid ▸ ha)
      obtain ⟨z, w, u0, hz, hd⟩ := sideDone_repairAndComplete hp hc
      obtain ⟨hunit, q', hq', hid', hside⟩ := hd.record hq
      have htrig : w.trigger = c.trigger := hz.trigger
      have hexp : w.expected = w.trigger := by rw [hz.expected, htrig]; exact c.expected_add_outstanding
      have h0 : (((s.repairAndComplete t sd).tr t).unit sd).outstanding = 0 := by
        rw [hunit]; exact (CaptureUnit.outstanding_eq_zero_iff _).mpr hexp.symm
      have hne : q'.id ≠ r.id := by
        intro e
        have hwait := List.find?_some hf
        rw [hp.eq_of_id hq (List.mem_of_find?_eq_some hf) (e.symm.trans hid'), hp.capturing hc] at hwait
        simp at hwait
      refine ⟨_, by rw [exec_captureWindowStart hf, captureStart_of_passed _ ha hc he], ?_⟩
      rw [beginCapture_eq _ (by omega), tr_modTr_self, Transport.unit_putSide_self, hunit]
      refine ⟨hd.others.modTr, hd.outside.trans .modTr, rfl, by rw [← htrig]; rfl, ?_, q', ?_, hid'.trans hid, ?_, ?_, ?_⟩
      · show (w.trigger + 1 - w.expected).toNat = 1
        rw [hexp]
        bv_omega
      · rw [Transport.putSide_track]
        exact List.mem_map.mpr ⟨q', hq', if_neg hne⟩
      · rw [hside]; rfl
      · rw [hside]; exact hz.lines
      · rw [hside]; rfl
  · intro s t sd r x c side hp hf
    rw [exec_captureWindowEnd hf]
    refine ⟨fun ho => ?_, fun ho => ?_⟩
    · unfold captureEnd
      rw [if_neg fun h => ho ((CaptureUnit.outstanding_eq_zero_iff _).mp h)]
      rfl
    · rw [captureEnd_of_drained (hp.record_eq (List.mem_of_find?_eq_some hf)) ((CaptureUnit.outstanding_eq_zero_iff _).mpr ho)]
      rfl
  · intro s t sd r ended x c hp hw hr ha
    have hc : x.capturedRecord sd = some r := hp.captured hr ha
    obtain ⟨z, w, u0, hz, hd⟩ := sideDone_repairAndComplete hp hc
    obtain ⟨hunit, q, hq, hid, hside⟩ := hd.record hr
    have htrig : w.trigger = c.trigger := hz.trigger
    refine ⟨_, if_pos hw, hd.others, hd.outside, ?_⟩
    rw [hunit]
    refine ⟨rfl, rfl, ?_, htrig, q, hq, hid, ?_⟩
    · show w.expected = _
      rw [hz.expected]
      exact c.expected_add_outstanding
    rw [hside]
    refine ⟨rfl, rfl, hz.lines, hz.repaired, rfl, ?_⟩
    show z.damaged = true ↔ _
    have hpos : 0 < c.outstanding ↔ c.trigger ≠ c.expected := by
      rw [← not_iff_not, not_not, ← c.outstanding_eq_zero_iff]; omega
    rw [hz.damaged, Bool.or_eq_true, decide_eq_true_eq, ← hpos]

end Sys2Proof.Machine
end

/-! PROOFS. The line packets (06 section 6.3). -/

section

namespace Sys2Proof.Machine

namespace State

variable {s u v : State} {t : TransportNo} {sd : Side} {r : SheetRecord} {z : SideRecord} {w : CaptureUnit} {n m : Nat}

/-- The record and the unit of a side for which lines are taken. -/
theorem LinesTaken.record (h : LinesTaken s t sd r n m u z w) (hr : r ∈ (s.tr t).track) : (u.tr t).unit sd = w ∧
    ∃ q ∈ (u.tr t).track, q.id = r.id ∧ q.side sd = z := by
  rw [h.tr]
  refine ⟨Transport.unit_putSide_self .., r.setSide sd z, ?_, SheetRecord.setSide_id .., SheetRecord.side_setSide_self ..⟩
  rw [Transport.putSide_track]
  exact List.mem_map.mpr ⟨r, hr, if_pos rfl⟩

/-- Of the outstanding lines those not taken are left. -/
theorem LinesTaken.outstanding (h : LinesTaken s t sd r n m u z w) (hn : n ≤ ((s.tr t).unit sd).outstanding) :
    w.outstanding = ((s.tr t).unit sd).outstanding - n := by
  have hlt := ((s.tr t).unit sd).outstanding_lt
  have he := h.expected
  have ht := h.trigger
  unfold CaptureUnit.outstanding at *
  rw [he, ht]
  have hb : (BitVec.ofNat 16 n).toNat = n := by rw [BitVec.toNat_ofNat]; exact Nat.mod_eq_of_lt (by omega)
  rw [← hb] at hn ⊢
  bv_omega

/-- The lines of a packet taken, and the side completed when they were the last ones of a side whose window has ended. -/
structure Consumed (s : State) (t : TransportNo) (sd : Side) (r : SheetRecord) (ended : Bool) (n rep : Nat) (v : State) : Prop where
  others : s.OthersOnlyPick v t
  outside : s.OutsideKept v
  expected : ((v.tr t).unit sd).expected = ((s.tr t).unit sd).expected + BitVec.ofNat 16 n
  trigger : ((v.tr t).unit sd).trigger = ((s.tr t).unit sd).trigger
  record : ∃ q ∈ (v.tr t).track, q.id = r.id ∧ (q.side sd).lines = (r.side sd).lines + n ∧
    (q.side sd).repaired = (r.side sd).repaired + rep ∧
    (ended = true ∧ n = ((s.tr t).unit sd).outstanding →
      ((v.tr t).unit sd).activity = .idle ∧ (q.side sd).capture = .complete ∧ (q.side sd).reserve = 0) ∧
    (ended = false ∨ n ≠ ((s.tr t).unit sd).outstanding →
      ((v.tr t).unit sd).activity = ((s.tr t).unit sd).activity ∧ (q.side sd).capture = (r.side sd).capture)

theorem LinesTaken.consumed {ended : Bool} (h : LinesTaken s t sd r n m u z w) (hp : (s.tr t).PageLaw) (hr : r ∈ (s.tr t).track)
    (ha : ((s.tr t).unit sd).activity = .capturing r.id ended) (hn : n ≤ ((s.tr t).unit sd).outstanding) :
    s.Consumed t sd r ended n m (u.completeIfDrained t sd) ∧
      (((u.completeIfDrained t sd).tr t).unit sd).previous = w.previous := by
  have hc := hp.captured hr ha
  have hout := h.outstanding hn
  obtain ⟨hunit, q, hq, hid, hside⟩ := h.record hr
  have hact : ((u.tr t).unit sd).activity = .capturing r.id ended := by rw [hunit, h.activity, ha]
  by_cases hd : ended = true ∧ n = ((s.tr t).unit sd).outstanding
  · obtain ⟨rfl, hall⟩ := hd
    rw [completeIfDrained_of_ended hact, if_pos (by rw [hunit, hout]; omega)]
    have d := h.completeSide hc
    obtain ⟨hunit, q, hq, hid, hside⟩ := d.record hr
    refine ⟨⟨d.others, d.outside, by rw [hunit]; exact h.expected, by rw [hunit]; exact h.trigger, q, hq, hid, ?_⟩, by rw [hunit]; rfl⟩
    rw [hunit, hside]
    refine ⟨h.lines, h.repaired, fun _ => ⟨rfl, rfl, rfl⟩, fun hx => ?_⟩
    rcases hx with hx | hx
    · cases hx
    · exact absurd hall hx
  · have hs : u.completeIfDrained t sd = u := by
      cases ended with
      | false => exact completeIfDrained_of_open fun id e => by rw [hact] at e; cases e
      | true =>
        rw [completeIfDrained_of_ended hact, if_neg]
        rw [hunit, hout]
        have : n ≠ ((s.tr t).unit sd).outstanding := fun e => hd ⟨rfl, e⟩
        omega
    rw [hs]
    refine ⟨⟨.of_eq h.others, h.outside, by rw [hunit]; exact h.expected, by rw [hunit]; exact h.trigger, q, hq, hid, ?_⟩, by rw [hunit]⟩
    rw [hunit, hside]
    exact ⟨h.lines, h.repaired, fun hx => absurd hx hd, fun _ => ⟨h.activity, h.capture⟩⟩

theorem packet_of_capturing {id : Nat} {ended : Bool} (bytes : List Byte) (h : ((s.tr t).unit sd).activity = .capturing id ended) :
    s.packet t sd bytes = (s.judgePacket t sd bytes).completeIfDrained t sd := by
  unfold packet
  rw [h]

/-- A packet that a side with no line due discards. -/
theorem completeIfDrained_of_due {id : Nat} {ended : Bool} (ha : ((s.tr t).unit sd).activity = .capturing id ended)
    (h : ended = false ∨ ((s.tr t).unit sd).trigger ≠ ((s.tr t).unit sd).expected) : s.completeIfDrained t sd = s := by
  cases ended with
  | false => exact completeIfDrained_of_open fun id e => by rw [ha] at e; cases e
  | true =>
    rw [completeIfDrained_of_ended ha, if_neg]
    exact fun e => (h.resolve_left (by decide)) ((CaptureUnit.outstanding_eq_zero_iff _).mp e)

theorem judgePacket_of_bad_crc {bytes : List Byte} (h : packetChecks bytes = false) :
    s.judgePacket t sd bytes = if 0 < ((s.tr t).unit sd).outstanding then s.repairLine t sd else s := by
  unfold judgePacket
  simp [h]

theorem judgePacket_of_good_crc {bytes : List Byte} (h : packetChecks bytes = true) : s.judgePacket t sd bytes =
    let d := (BitVec.ofNat 16 (field bytes 0 2) - ((s.tr t).unit sd).expected).toNat
    if d < ((s.tr t).unit sd).outstanding then (s.repairLines t sd d).takePacketLine t sd bytes else s := by
  unfold judgePacket
  simp [h]

end State

open State in
/-- Settles O30. -/
theorem linePackets : Obligations.LinePackets := by
  intro s t sd bytes x c d white discarded
  refine ⟨fun ha => ?_, fun r ended hp hr ha => ?_⟩
  · show exec (.linePacket t sd bytes) s = _
    have hs : s.packet t sd bytes = s := by
      unfold packet
      rw [show ((s.tr t).unit sd).activity = .idle from ha]
    show Host.Outcome.next ((s.packet t sd bytes).finish s []) = _
    rw [hs]
  intro consumed
  have hc := hp.captured hr ha
  have hexec : exec (.linePacket t sd bytes) s = .next (((s.judgePacket t sd bytes).completeIfDrained t sd).finish s []) := by
    rw [← packet_of_capturing bytes ha]
    rfl
  have hdiscard : s.judgePacket t sd bytes = s → (ended = false ∨ c.trigger ≠ c.expected) → discarded := fun h1 h2 => by
    show exec (.linePacket t sd bytes) s = _
    rw [hexec, h1, completeIfDrained_of_due ha h2]
  have htake : ∀ {n rep z w prev}, LinesTaken s t sd r n rep (s.judgePacket t sd bytes) z w → n ≤ c.outstanding →
      w.previous = some prev → consumed n rep prev := fun hl hn hprev => by
    obtain ⟨k, hk⟩ := hl.consumed hp hr ha hn
    exact ⟨_, hexec, k.others, k.outside, k.expected, k.trigger, hk.trans hprev, k.record⟩
  have hpos : c.trigger ≠ c.expected → 0 < c.outstanding := fun h =>
    Nat.pos_of_ne_zero fun e => h (c.outstanding_eq_zero_iff.mp e)
  refine ⟨fun hbad ho => ?_, fun hbad ho he => ?_, fun hgood hd hx => ?_, fun hgood hd hw => ?_, fun hgood hd hw => ?_⟩
  · obtain ⟨z, w, hz, hprev⟩ := linesTaken_repairLine hc
    rw [← (judgePacket_of_bad_crc hbad).trans (if_pos (hpos ho))] at hz
    exact htake hz (hpos ho) hprev
  · refine hdiscard ((judgePacket_of_bad_crc hbad).trans (if_neg ?_)) (.inl he)
    exact fun h => absurd (c.outstanding_eq_zero_iff.mpr ho) (Nat.ne_of_gt h)
  · exact hdiscard ((judgePacket_of_good_crc hgood).trans (if_neg (Nat.not_lt.mpr hd))) hx
  all_goals
    obtain ⟨z, w, hz, hprev⟩ := linesTaken_repairLines hp hc d
    have hj : s.judgePacket t sd bytes = _ := (judgePacket_of_good_crc hgood).trans (if_pos hd)
    have hcfg : ((s.repairLines t sd d).tr t).cfg = x.cfg := by rw [hz.tr, Transport.cfg_putSide]
    unfold takePacketLine at hj
    rw [hcfg] at hj
  · obtain ⟨z', w', hz', hprev'⟩ := linesTaken_takeLine (isRepair := false)
      (pixels := pixelsOf ((bytes.drop 4).take (3 * field bytes 2 2))) (hz.captured hc)
    have hall := hz.trans hz'
    rw [← hj.trans (if_pos hw)] at hall
    exact htake hall hd (by rw [hprev', hw])
  · obtain ⟨z', w', hz', hprev'⟩ := linesTaken_repairLine (hz.captured hc)
    have hall := hz.trans hz'
    rw [← hj.trans (if_neg hw)] at hall
    rw [hcfg, hz.tr, Transport.unit_putSide_self, hprev] at hprev'
    exact htake hall hd hprev'

end Sys2Proof.Machine
end

/-! PROOFS. Stops (02 section 2.5): the transport HELD, its records sorted, and the captures that go on to completion. -/

section

namespace Sys2Proof.Machine

namespace Transport

variable {x y z : Transport} {sd so : Side} {r q : SheetRecord} {i : Nat}

/-! ### One side of the records and its unit changed -/

/-- y is x but for the given side of its records, and that side's unit. -/
def SideOnly (sd : Side) (x y : Transport) : Prop :=
  ∃ l u, y = ({ x with track := l } : Transport).setUnit sd u ∧ l.map (·.setSide sd {}) = x.track.map (·.setSide sd {})

theorem setUnit_self (x : Transport) (sd : Side) : x.setUnit sd (x.unit sd) = x := by cases sd <;> rfl

theorem SideOnly.refl (sd : Side) (x : Transport) : SideOnly sd x x := ⟨x.track, x.unit sd, (setUnit_self x sd).symm, rfl⟩

theorem SideOnly.trans (h : SideOnly sd x y) (g : SideOnly sd y z) : SideOnly sd x z := by
  obtain ⟨l, u, rfl, hl⟩ := h
  obtain ⟨m, w, rfl, hm⟩ := g
  refine ⟨m, w, by cases sd <;> rfl, hm.trans ?_⟩
  rw [setUnit_track]
  exact hl

theorem setSide_setSide (r : SheetRecord) (sd : Side) (z z' : SideRecord) : (r.setSide sd z).setSide sd z' = r.setSide sd z' := by
  cases sd <;> rfl

theorem sideOnly_putSide (x : Transport) (id : Nat) (sd : Side) (g : SheetRecord → SideRecord) (u : CaptureUnit) :
    SideOnly sd x (x.putSide id sd g u) := by
  refine ⟨_, u, rfl, ?_⟩
  rw [List.map_map]
  refine List.map_congr_left fun q _ => ?_
  rw [Function.comp_apply]
  split
  · exact setSide_setSide q sd _ _
  · rfl

theorem sideOnly_setUnit (x : Transport) (sd : Side) (u : CaptureUnit) : SideOnly sd x (x.setUnit sd u) := ⟨x.track, u, rfl, rfl⟩

theorem SideOnly.unit_of_ne (h : SideOnly so x y) (hs : sd ≠ so) : y.unit sd = x.unit sd := by
  obtain ⟨l, u, rfl, -⟩ := h
  rw [unit_setUnit_of_ne _ _ hs]
  cases sd <;> rfl

theorem SideOnly.state (h : SideOnly so x y) : y.state = x.state := by
  obtain ⟨l, u, rfl, -⟩ := h
  cases so <;> rfl

theorem sideless_of_setSide {sd : Side} (h : r.setSide sd {} = q.setSide sd {}) : r.sideless = q.sideless := by
  rw [← State.sideless_setSide r sd {}, h, State.sideless_setSide]

theorem side_of_setSide {sd so : Side} (h : r.setSide sd {} = q.setSide sd {}) (hs : so ≠ sd) : r.side so = q.side so := by
  rw [← SheetRecord.side_setSide_of_ne r {} hs, h, SheetRecord.side_setSide_of_ne q {} hs]

theorem SideOnly.sideless (h : SideOnly so x y) : y.track.map SheetRecord.sideless = x.track.map SheetRecord.sideless := by
  obtain ⟨l, u, rfl, hl⟩ := h
  have := congrArg (List.map SheetRecord.sideless) hl
  rw [setUnit_track]
  simpa only [List.map_map, Function.comp_def, State.sideless_setSide] using this

/-- The record with an id is found at the same place, its other side as it was. -/
theorem SideOnly.record (h : SideOnly sd x y) (hr : x.record i = some r) :
    ∃ q, y.record i = some q ∧ q.setSide sd {} = r.setSide sd {} := by
  obtain ⟨l, u, rfl, hl⟩ := h
  have hmap : ∀ m : List SheetRecord, (m.map (·.setSide sd {})).find? (fun q => q.id == i) =
      (m.find? fun q => q.id == i).map (·.setSide sd {}) := fun m => record_map (fun q => SheetRecord.setSide_id ..) m i
  have hx := hmap x.track
  rw [← hl, hmap l, show x.track.find? (fun q => q.id == i) = some r from hr, Option.map_some, Option.map_eq_some_iff] at hx
  unfold Transport.record
  rw [setUnit_track]
  exact hx

/-- Of a transport HELD by a stop, what stands there beside its sides and units. -/
theorem SideOnly.heldFields (h : SideOnly sd x y) : ∃ l f b, y = { x with track := l, front := f, back := b } := by
  obtain ⟨l, u, rfl, -⟩ := h
  cases sd
  · exact ⟨l, u, x.back, rfl⟩
  · exact ⟨l, x.front, u, rfl⟩

/-! ### The transport of a stop -/

theorem life_sorted (h : r.sorted = some q) : q.life = .done ∨ q.life = .parked ∨ q.life = .withdrawn := by
  obtain ⟨-, ⟨-, rfl⟩ | ⟨hg, rfl⟩⟩ := SheetRecord.sorted_eq_some h
  · exact .inr (.inr rfl)
  · show r.life = .done ∨ r.life = .parked ∨ r.life = .withdrawn
    unfold SheetRecord.givesUp at hg
    cases hl : r.life <;> simp_all

theorem sorted_of_kept (h : r.life = .done ∨ r.life = .parked) : r.sorted = some r.disarm := by
  unfold SheetRecord.sorted
  rcases h with h | h <;> rw [h]

theorem endFor_of_ne {u : CaptureUnit} {id i : Nat} {e : Bool} (h : u.activity = .capturing i e) (hne : i ≠ id) : u.endFor id = u := by
  unfold CaptureUnit.endFor
  rw [h]
  exact if_neg hne

theorem foldl_endCaptures_unit {l : List SheetRecord} {e : Bool} (h : (x.unit sd).activity = .capturing i e) (hl : ∀ r ∈ l, r.id ≠ i) :
    (l.foldl (fun y r => y.endCaptures r.id) x).unit sd = x.unit sd := by
  induction l generalizing x with
  | nil => rfl
  | cons r rest ih =>
    have hu : (x.endCaptures r.id).unit sd = x.unit sd := by
      cases sd <;> exact endFor_of_ne h (hl r List.mem_cons_self).symm
    rw [List.foldl_cons, ih (hu ▸ h) fun q hq => hl q (List.mem_cons_of_mem _ hq), hu]

/-- A unit that captures for a record which the stop keeps goes on. -/
theorem unit_stopped {reason : StopReason} (p : x.PageLaw) (hr : r ∈ x.track) (hl : r.life = .done ∨ r.life = .parked) {e : Bool}
    (h : (x.unit sd).activity = .capturing r.id e) : (x.stopped reason).unit sd = x.unit sd := by
  have hunit : x.motorOff.unit sd = x.unit sd := by
    obtain ⟨a, d, hm⟩ := x.motorOff_eq
    rw [hm]; cases sd <;> rfl
  have hkeep : ((x.track.filter (·.givesUp)).foldl (fun y r => y.endCaptures r.id) x.motorOff).unit sd = x.unit sd := by
    rw [foldl_endCaptures_unit (hunit ▸ h), hunit]
    intro q hq e
    obtain ⟨hq, hg⟩ := List.mem_filter.mp hq
    rw [p.eq_of_id hr hq e] at hg
    unfold SheetRecord.givesUp at hg
    rcases hl with hl | hl <;> rw [hl] at hg <;> cases hg
  rw [← hkeep]
  cases sd <;> rfl

theorem pageLaw_stopped (reason : StopReason) (ha : x.isActive = true) (p : x.PageLaw) : (x.stopped reason).PageLaw := by
  have h : (x.stopped .jamEarly).PageLaw := (x.safe_stopped ha (by decide)).pageLaw p
  exact h

theorem record_stopped (reason : StopReason) (ha : x.isActive = true) (p : x.PageLaw) (hr : r ∈ x.track)
    (hl : r.life = .done ∨ r.life = .parked) : (x.stopped reason).record r.id = some r.disarm := by
  have hm : r.disarm ∈ (x.stopped reason).track := List.mem_filterMap.mpr ⟨r, hr, sorted_of_kept hl⟩
  exact (pageLaw_stopped reason ha p).record_eq hm

theorem disarm_side (r : SheetRecord) (sd : Side) : r.disarm.side sd = (r.side sd).disarm := by cases sd <;> rfl

theorem windowEnd_disarm_of_capturing {z : SideRecord} (h : z.capture = .capturing) :
    z.disarm.windowEnd = .raised ↔ z.windowEnd = .raised := by
  unfold SideRecord.disarm
  simp only [h]
  cases z.windowEnd <;> simp [Armed.disarm]

end Transport

namespace State

open Transport

variable {s u v : State} {t : TransportNo} {sd so : Side} {r q : SheetRecord} {i : Nat}

/-! ### A return of pages beside a transport that is not RUNNING -/

theorem returnPages_of_not_running (s : State) (pages : List Nat) (n : Nat) (h : (s.tr t).state ≠ .running) :
    (s.returnPages pages n).tr t = s.tr t := (s.mayPick_returnPages pages n t).eq_of_state_ne h

theorem returnGivenUp_of_not_running (s : State) (r : SheetRecord) (h : (s.tr t).state ≠ .running) :
    (s.returnGivenUp r).tr t = s.tr t := by
  unfold returnGivenUp
  split
  · exact returnPages_of_not_running s _ _ h
  · exact (s.mayPick_returnSides r t).eq_of_state_ne h

theorem foldl_returnGivenUp_of_not_running (l : List SheetRecord) (s : State) (h : (s.tr t).state ≠ .running) :
    (l.foldl returnGivenUp s).tr t = s.tr t := by
  induction l generalizing s with
  | nil => rfl
  | cons r rest ih =>
    have e := s.returnGivenUp_of_not_running r h
    rw [List.foldl_cons, ih _ (e ▸ h), e]

/-! ### A window that a stop ends -/

theorem completeSide_of_not_running (s : State) (h : (s.tr t).state ≠ .running) :
    (s.completeSide t sd).tr t = match (s.tr t).capturedRecord sd with
      | none => (s.tr t).setUnit sd { (s.tr t).unit sd with activity := .idle, packetWait := false }
      | some r => (s.tr t).putSide r.id sd
        (fun _ => (r.side sd).completed ((s.tr t).profileOf r.selector) (s.tr t).cfg.width) ((s.tr t).unit sd).done := by
  split
  · next hc =>
    unfold completeSide
    dsimp only
    rw [hc]
    exact tr_modTr_self ..
  · next r hc =>
    rw [completeSide_eq hc, returnPages_of_not_running, tr_modTr_self]
    rw [tr_modTr_self]
    exact fun e => h ((sideOnly_putSide _ _ _ _ _).state.symm.trans e)

theorem sideOnly_completeSide (s : State) (h : (s.tr t).state ≠ .running) : SideOnly sd (s.tr t) ((s.completeSide t sd).tr t) := by
  rw [completeSide_of_not_running s h]
  split
  · exact sideOnly_setUnit _ _ _
  · exact sideOnly_putSide _ _ _ _ _

theorem captureEnd_eq (s : State) (t : TransportNo) (sd : Side) (id : Nat) : s.captureEnd t sd id =
    let s1 := s.modTr t fun x => x.putSide id sd (fun r => { r.side sd with windowEnd := .idle })
      { x.unit sd with activity := .capturing id true, packetWait := true }
    if ((s.tr t).unit sd).outstanding = 0 then s1.completeSide t sd else s1 := by
  unfold captureEnd
  rfl

theorem sideOnly_captureEnd (s : State) (id : Nat) (h : (s.tr t).state ≠ .running) :
    SideOnly sd (s.tr t) ((s.captureEnd t sd id).tr t) := by
  have h1 := sideOnly_putSide (s.tr t) id sd (fun r => { r.side sd with windowEnd := .idle })
    { (s.tr t).unit sd with activity := .capturing id true, packetWait := true }
  rw [captureEnd_eq]
  dsimp only
  split
  · refine h1.trans ?_
    have h2 := sideOnly_completeSide (sd := sd) (s.modTr t fun x => x.putSide id sd (fun r => { r.side sd with windowEnd := .idle })
      { x.unit sd with activity := .capturing id true, packetWait := true }) (t := t)
      (by rw [tr_modTr_self, h1.state]; exact h)
    rwa [tr_modTr_self] at h2
  · rw [tr_modTr_self]; exact h1

theorem sideOnly_endWindowAtStop (s : State) (h : (s.tr t).state ≠ .running) :
    SideOnly sd (s.tr t) ((s.endWindowAtStop t sd).tr t) := by
  unfold endWindowAtStop
  split
  · split
    · exact .refl _ _
    · exact sideOnly_captureEnd s _ h
  · exact .refl _ _
  · exact .refl _ _

/-- The transport of a stop after the records given up have returned what they held. -/
theorem takeStop_eq (ha : (s.tr t).isActive = true) (reason : StopReason) : ∃ v : State, v.tr t = (s.tr t).stopped reason ∧
    s.takeStop t reason = (v.endWindowAtStop t .front).endWindowAtStop t .back := by
  refine ⟨((s.tr t).track.filter (·.givesUp)).foldl returnGivenUp (s.modTr t (·.stopped reason)), ?_, by unfold takeStop; rw [if_pos ha]⟩
  rw [foldl_returnGivenUp_of_not_running, tr_modTr_self]
  rw [tr_modTr_self]
  obtain ⟨d, f, b, e, -⟩ := (s.tr t).stopped_eq reason
  rw [e]
  exact fun h => by cases h

theorem stopped_state (x : Transport) (reason : StopReason) : (x.stopped reason).state ≠ .running := fun h => by
  obtain ⟨d, f, b, e, -⟩ := x.stopped_eq reason
  rw [e] at h
  cases h

/-- R41: what a stop leaves. -/
theorem heldAfter_takeStop (ha : (s.tr t).isActive = true) (reason : StopReason) : s.HeldAfter (s.takeStop t reason) t reason := by
  obtain ⟨v, hv, e⟩ := takeStop_eq ha reason
  have hs := stopped_state (s.tr t) reason
  have h1 := sideOnly_endWindowAtStop (sd := .front) v (hv ▸ hs)
  have h2 := sideOnly_endWindowAtStop (sd := .back) (v.endWindowAtStop t .front) (by rw [h1.state, hv]; exact hs)
  have hl := (h2.sideless.trans h1.sideless)
  obtain ⟨l1, f1, b1, e1⟩ := h1.heldFields
  obtain ⟨l2, f2, b2, e2⟩ := h2.heldFields
  obtain ⟨d, f, b, es, hd, -⟩ := (s.tr t).stopped_eq reason
  rw [← e, hv] at hl
  rw [← e, e1, hv, es] at e2
  refine ⟨by rw [e2], by rw [e2], by rw [e2], ?_, ?_, ?_, ?_, fun q hq => ?_⟩
  · rw [e2]; exact ⟨rfl, rfl, rfl⟩
  · rw [e2]; exact ⟨rfl, rfl⟩
  · rw [e2]; exact ⟨rfl, rfl, rfl⟩
  · rw [e2]; exact ⟨rfl, hd⟩
  · obtain ⟨k, hk, hkq⟩ := List.mem_map.mp (hl ▸ List.mem_map_of_mem (f := SheetRecord.sideless) hq)
    obtain ⟨r, -, hr⟩ := List.mem_filterMap.mp hk
    have hlife : k.life = q.life := (congrArg SheetRecord.life hkq :)
    rw [← hlife]
    exact life_sorted hr

/-- The end of the step leaves a HELD transport so. -/
theorem HeldAfter.finishVia {reason : StopReason} (h : s.HeldAfter v t reason) (before : State) (path : List State)
    (forced : List TransportNo) : s.HeldAfter (v.finishVia before path forced) t reason := by
  have k := (within_finishVia v before path forced).transports t
  have hs := h.state
  obtain ⟨c1, c2, c3, c4, c5, c6, c7, c8, c9, c10, c11, -⟩ := k.still (by rw [hs]; decide) (by rw [hs]; decide)
  have hw := waitLaw_finishVia v before path forced t (by rw [c1, hs]; decide)
  refine ⟨c1.trans hs, c3.trans h.reason, c2.trans h.purpose, ?_, ⟨hw, c7.trans h.waits.2⟩, ?_, ?_, fun r hr => h.track r (c11.subset hr)⟩
  · rw [c4, c5, c9]; exact h.motor
  · rw [k.picking.2, k.picking.1, c10]; exact h.runs
  · rw [k.units.2.2, c8]; exact h.units

theorem HeldAfter.of_eq {reason : StopReason} (h : s.HeldAfter v t reason) (hp : (s.tr t).purpose = (u.tr t).purpose)
    (hr : (s.tr t).dfu.reference = (u.tr t).dfu.reference) : u.HeldAfter v t reason :=
  ⟨h.state, h.reason, h.purpose.trans hp, h.motor, h.waits, h.runs, ⟨h.units.1, h.units.2.trans hr⟩, h.track⟩

end State
end Sys2Proof.Machine
end

/-! PROOFS. The captures that a stop lets go on (03 section 3.4), the stops by an expiry, and the pick miss (02 section 2.4). -/

section

namespace Sys2Proof.Machine

namespace Transport

variable {x y : Transport} {sd so : Side} {r q : SheetRecord} {i : Nat}

theorem record_putSide_of_ne {id : Nat} {g : SheetRecord → SideRecord} {u : CaptureUnit} (h : x.record i = some r) (hne : i ≠ id) :
    (x.putSide id sd g u).record i = some r := by
  unfold record at h ⊢
  rw [putSide_track, record_map (fun q => by split <;> simp), h, Option.map_some, if_neg]
  rw [(mem_of_record h).2]
  exact hne

theorem record_setUnit (x : Transport) (sd : Side) (u : CaptureUnit) (i : Nat) : (x.setUnit sd u).record i = x.record i := by
  unfold record
  rw [setUnit_track]

end Transport

namespace State

open Transport

variable {s u v : State} {t : TransportNo} {sd so : Side} {r q : SheetRecord} {i : Nat}

/-- A record keeps its pages where a side completes. -/
theorem record_completeSide (h : (s.tr t).state ≠ .running) (hr : (s.tr t).record i = some r) :
    ∃ q, ((s.completeSide t sd).tr t).record i = some q ∧ (q.side sd).pages = (r.side sd).pages := by
  rw [completeSide_of_not_running s h]
  split
  · exact ⟨r, (record_setUnit _ _ _ _).trans hr, rfl⟩
  · next k hc =>
    by_cases e : i = k.id
    · subst e
      have hk := (capturedRecord_some hc).2.1
      obtain rfl : k = r := Option.some.inj (hk.symm.trans hr)
      exact ⟨_, record_putSide hr, by rw [SheetRecord.side_setSide_self]; rfl⟩
    · exact ⟨r, record_putSide_of_ne hr e, rfl⟩

theorem record_captureEnd (id : Nat) (h : (s.tr t).state ≠ .running) (hr : (s.tr t).record i = some r) :
    ∃ q, ((s.captureEnd t sd id).tr t).record i = some q ∧ (q.side sd).pages = (r.side sd).pages := by
  have h1 : ∃ q, ((s.modTr t fun x => x.putSide id sd (fun r => { r.side sd with windowEnd := .idle })
      { x.unit sd with activity := .capturing id true, packetWait := true }).tr t).record i = some q ∧
      (q.side sd).pages = (r.side sd).pages := by
    rw [tr_modTr_self]
    by_cases e : i = id
    · subst e
      exact ⟨_, record_putSide hr, by rw [SheetRecord.side_setSide_self]⟩
    · exact ⟨r, record_putSide_of_ne hr e, rfl⟩
  rw [captureEnd_eq]
  dsimp only
  split
  · obtain ⟨q, hq, hp⟩ := h1
    obtain ⟨k, hk, hkp⟩ := record_completeSide (sd := sd) (by rw [tr_modTr_self, (sideOnly_putSide _ _ _ _ _).state]; exact h) hq
    exact ⟨k, hk, hkp.trans hp⟩
  · exact h1

/-- A stop's ends of windows leave every record its pages, and all of it but the given side. -/
theorem record_endWindowAtStop (h : (s.tr t).state ≠ .running) (hr : (s.tr t).record i = some r) :
    ∃ q, ((s.endWindowAtStop t sd).tr t).record i = some q ∧ q.setSide sd {} = r.setSide sd {} ∧
      (q.side sd).pages = (r.side sd).pages := by
  obtain ⟨q, hq, hs⟩ := (sideOnly_endWindowAtStop (sd := sd) s h).record hr
  refine ⟨q, hq, hs, ?_⟩
  have hp : ∃ q, ((s.endWindowAtStop t sd).tr t).record i = some q ∧ (q.side sd).pages = (r.side sd).pages := by
    unfold endWindowAtStop
    split
    · split
      · exact ⟨r, hr, rfl⟩
      · exact record_captureEnd _ h hr
    · exact ⟨r, hr, rfl⟩
    · exact ⟨r, hr, rfl⟩
  obtain ⟨k, hk, hkp⟩ := hp
  obtain rfl : q = k := Option.some.inj (hq.symm.trans hk)
  exact hkp

theorem windowPassed_of_capturing {x : Transport} (ha : (x.unit sd).activity = .capturing i false) (hr : x.record i = some r) :
    x.windowPassed sd = true ↔ (r.side sd).windowEnd = .raised := by
  unfold Transport.windowPassed
  rw [ha]
  dsimp only
  rw [capturedRecord_eq ha, hr]
  simp

theorem endWindowAtStop_of_capturing (ha : ((s.tr t).unit sd).activity = .capturing i false) :
    s.endWindowAtStop t sd = if (s.tr t).windowPassed sd then s else s.captureEnd t sd i := by
  unfold endWindowAtStop
  rw [ha]

/-- The three ends of a capture at a stop: its window end was passed, a line is outstanding, or it completes (R58, R60). -/
theorem endWindowAtStop_kept (ha : ((s.tr t).unit sd).activity = .capturing i false) (hr : (s.tr t).record i = some r)
    (hs : (s.tr t).state ≠ .running) : let y := (s.endWindowAtStop t sd).tr t
    let c := (s.tr t).unit sd
    ((r.side sd).windowEnd = .raised → y.unit sd = c) ∧
    ((r.side sd).windowEnd ≠ .raised → c.trigger ≠ c.expected → y.unit sd = { c with activity := .capturing i true, packetWait := true }) ∧
    ((r.side sd).windowEnd ≠ .raised → c.trigger = c.expected → (y.unit sd).activity = .idle ∧
      ∃ q, y.record i = some q ∧ (q.side sd).capture = .complete) := by
  have hw := windowPassed_of_capturing ha hr
  have hid := (mem_of_record hr).2
  dsimp only
  rw [endWindowAtStop_of_capturing ha]
  refine ⟨fun h => ?_, fun h ho => ?_, fun h ho => ?_⟩
  · rw [if_pos (hw.mpr h)]
  · rw [if_neg (fun e => h (hw.mp e)), captureEnd_eq]
    dsimp only
    rw [if_neg (fun e => ho ((CaptureUnit.outstanding_eq_zero_iff _).mp e)), tr_modTr_self, unit_putSide_self]
  · subst hid
    rw [if_neg (fun e => h (hw.mp e)), captureEnd_of_drained hr ((CaptureUnit.outstanding_eq_zero_iff _).mpr ho),
      returnPages_of_not_running _ _ _ (by rw [tr_modTr_self, (sideOnly_putSide _ _ _ _ _).state]; exact hs), tr_modTr_self,
      unit_putSide_self]
    exact ⟨rfl, _, record_putSide hr, by rw [SheetRecord.side_setSide_self]; rfl⟩

/-- After a stop no unit is left inside the window of a side but where its end was passed. -/
theorem activity_endWindowAtStop (h : (((s.endWindowAtStop t sd).tr t).unit sd).activity = .capturing i false)
    (hs : (s.tr t).state ≠ .running) : ((s.tr t).unit sd).activity = .capturing i false ∧ (s.tr t).windowPassed sd = true := by
  have hdone : ∀ v : State, (v.tr t).state ≠ .running → (((v.completeSide t sd).tr t).unit sd).activity = .idle := fun v hv => by
    rw [completeSide_of_not_running v hv]
    split
    · rw [unit_setUnit_self]
    · rw [unit_putSide_self]; rfl
  cases ha : ((s.tr t).unit sd).activity with
  | idle =>
    unfold endWindowAtStop at h
    rw [ha] at h
    rw [show ((s.tr t).unit sd).activity = _ from h] at ha
    cases ha
  | capturing id ended =>
    cases ended with
    | true =>
      unfold endWindowAtStop at h
      rw [ha] at h
      rw [show ((s.tr t).unit sd).activity = _ from h] at ha
      cases ha
    | false =>
      rw [endWindowAtStop_of_capturing ha] at h
      split at h
      · next hw =>
        rw [ha] at h
        exact ⟨h, hw⟩
      · rw [captureEnd_eq] at h
        dsimp only at h
        split at h
        · rw [hdone _ (by rw [tr_modTr_self, (sideOnly_putSide _ _ _ _ _).state]; exact hs)] at h
          cases h
        · rw [tr_modTr_self, unit_putSide_self] at h
          cases h

/-- One side of a stop: its window ends in a state where that side and its unit are as the sorting of the records left them, and
what comes after leaves both alone. -/
theorem takeStop_side (ha : (s.tr t).isActive = true) (reason : StopReason) (sd : Side) : ∃ a : State, (a.tr t).state ≠ .running ∧
    (a.tr t).unit sd = ((s.tr t).stopped reason).unit sd ∧
    (∀ i r, ((s.tr t).stopped reason).record i = some r → ∃ q, (a.tr t).record i = some q ∧ q.side sd = r.side sd) ∧
    ((s.takeStop t reason).tr t).unit sd = ((a.endWindowAtStop t sd).tr t).unit sd ∧
    ∀ i r, ((a.endWindowAtStop t sd).tr t).record i = some r →
      ∃ q, ((s.takeStop t reason).tr t).record i = some q ∧ q.side sd = r.side sd := by
  obtain ⟨v, hv, e⟩ := takeStop_eq ha reason
  have hs : (v.tr t).state ≠ .running := hv ▸ stopped_state (s.tr t) reason
  have h1 := sideOnly_endWindowAtStop (sd := .front) v hs
  have hs1 : ((v.endWindowAtStop t .front).tr t).state ≠ .running := by rw [h1.state]; exact hs
  have h2 := sideOnly_endWindowAtStop (sd := .back) (v.endWindowAtStop t .front) hs1
  rw [e, ← hv]
  cases sd with
  | front =>
    refine ⟨v, hs, rfl, fun i r hr => ⟨r, hr, rfl⟩, h2.unit_of_ne (by decide), fun i r hr => ?_⟩
    obtain ⟨q, hq, hqs⟩ := h2.record hr
    exact ⟨q, hq, side_of_setSide hqs (by decide)⟩
  | back =>
    refine ⟨v.endWindowAtStop t .front, hs1, h1.unit_of_ne (by decide), fun i r hr => ?_, rfl, fun i r hr => ⟨r, hr, rfl⟩⟩
    obtain ⟨q, hq, hqs⟩ := h1.record hr
    exact ⟨q, hq, side_of_setSide hqs (by decide)⟩

/-- A record that a stop keeps, but for its sides, and its pages. -/
theorem record_takeStop (ha : (s.tr t).isActive = true) (reason : StopReason) (hr : ((s.tr t).stopped reason).record i = some r) :
    ∃ q, ((s.takeStop t reason).tr t).record i = some q ∧ q.sideless = r.sideless ∧ q.pages = r.pages := by
  obtain ⟨v, hv, e⟩ := takeStop_eq ha reason
  have hs : (v.tr t).state ≠ .running := hv ▸ stopped_state (s.tr t) reason
  obtain ⟨q, hq, hqs, hqp⟩ := record_endWindowAtStop (sd := .front) hs (hv ▸ hr)
  have hs1 : ((v.endWindowAtStop t .front).tr t).state ≠ .running := by
    rw [(sideOnly_endWindowAtStop v hs).state]; exact hs
  obtain ⟨k, hk, hks, hkp⟩ := record_endWindowAtStop (sd := .back) hs1 hq
  refine ⟨k, by rw [e]; exact hk, (sideless_of_setSide hks).trans (sideless_of_setSide hqs), ?_⟩
  have hf : k.side .front = q.side .front := side_of_setSide hks (by decide)
  have hb : q.side .back = r.side .back := side_of_setSide hqs (by decide)
  show (k.side .front).pages ++ (k.side .back).pages = (r.side .front).pages ++ (r.side .back).pages
  rw [hf, hkp, hqp, hb]

/-- The captures that a stop lets go on, of the records it keeps. -/
theorem captures_takeStop (ha : (s.tr t).isActive = true) (hp : (s.tr t).PageLaw) (reason : StopReason) (hr : r ∈ (s.tr t).track)
    (hl : r.life = .done ∨ r.life = .parked) (hc : ((s.tr t).unit sd).activity = .capturing r.id false) :
    let c := (s.tr t).unit sd
    let u := s.takeStop t reason
    ((r.side sd).windowEnd = .raised → (u.tr t).unit sd = c) ∧
    ((r.side sd).windowEnd ≠ .raised → c.trigger ≠ c.expected →
      (u.tr t).unit sd = { c with activity := .capturing r.id true, packetWait := true }) ∧
    ((r.side sd).windowEnd ≠ .raised → c.trigger = c.expected → ((u.tr t).unit sd).activity = .idle ∧
      ∃ q ∈ (u.tr t).track, q.id = r.id ∧ (q.side sd).capture = .complete ∧ (q.side sd).pages = (r.side sd).pages) := by
  obtain ⟨a, hs, hunit, hrec, hu, hafter⟩ := takeStop_side ha reason sd
  have hstop := unit_stopped (reason := reason) hp hr hl hc
  obtain ⟨k, hk, hks⟩ := hrec _ _ (record_stopped reason ha hp hr hl)
  have hact : ((a.tr t).unit sd).activity = .capturing r.id false := by rw [hunit, hstop, hc]
  obtain ⟨k1, k2, k3⟩ := endWindowAtStop_kept hact hk hs
  have hw : (k.side sd).windowEnd = .raised ↔ (r.side sd).windowEnd = .raised := by
    rw [hks, disarm_side]
    exact windowEnd_disarm_of_capturing (hp.capturing (hp.captured hr hc))
  rw [hw, ← hu, hunit, hstop] at k1
  rw [ne_eq, hw, ← hu, hunit, hstop] at k2 k3
  refine ⟨k1, k2, fun h ho => ?_⟩
  obtain ⟨h1, q, hq, hqc⟩ := k3 h ho
  obtain ⟨w, hwr, hwc⟩ := hafter _ _ hq
  obtain ⟨hm, hid⟩ := mem_of_record hwr
  refine ⟨h1, w, hm, hid, by rw [hwc]; exact hqc, ?_⟩
  obtain ⟨q', hq', -, hpg⟩ := record_endWindowAtStop (sd := sd) hs hk
  obtain rfl : q = q' := Option.some.inj (hq.symm.trans hq')
  rw [hwc, hpg, hks, disarm_side]
  rfl

/-! ### The expiries -/

theorem lateLead_isSome {x : Transport} {st : Station} :
    (x.lateLead st).isSome ↔ ∃ r ∈ x.track, r.life ≠ .withdrawn ∧ (r.at st).leadEnd = .raised := by
  unfold Transport.lateLead Transport.findRecord
  simp

theorem lateTrail_isSome {x : Transport} {st : Station} :
    (x.lateTrail st).isSome ↔ ∃ r ∈ x.track, r.life ≠ .withdrawn ∧ (r.at st).trailEnd = .raised := by
  unfold Transport.lateTrail Transport.findRecord
  simp

theorem heldAfter_finish (ha : (s.tr t).isActive = true) (reason : StopReason) :
    s.HeldAfter ((s.takeStop t reason).finish s []) t reason := (heldAfter_takeStop ha reason).finishVia _ _ _

end State

open State in
/-- Settles O23. -/
theorem expiryStops : Obligations.ExpiryStops := by
  refine ⟨fun s t ha => ⟨fun st hst hr hp => ?_, fun st hr hp => ?_, fun hst => ?_⟩, fun s t st hp => ⟨?_, ?_, ?_, ?_⟩, ?_⟩
  · have hp' : (s.tr t).pendingAt st = false := by unfold Transport.pendingAt; rw [hp]; rfl
    exact ⟨_, if_pos ⟨hst, lateLead_isSome.mpr hr, hp'⟩, heldAfter_finish ha _⟩
  · have hp' : (s.tr t).pendingAt st = false := by unfold Transport.pendingAt; rw [hp]; rfl
    exact ⟨_, if_pos ⟨lateTrail_isSome.mpr hr, hp'⟩, heldAfter_finish ha _⟩
  · refine ⟨_, ?_, heldAfter_finish ha .stall⟩
    show execStallTimerExpiry t s = _
    unfold execStallTimerExpiry
    dsimp only
    rw [if_pos hst, if_pos ha]
  · refine if_neg fun h => ?_
    rw [show (s.tr t).pendingAt st = true from hp] at h
    cases h.2.2
  · refine if_neg fun h => ?_
    rw [show (s.tr t).pendingAt st = true from hp] at h
    cases h.2
  · rintro rfl
    show execPickMiss t s = _
    unfold execPickMiss
    dsimp only
    split
    · rw [show (s.tr t).pendingAt .entry = true from hp]
      simp
    · rfl
  · rintro rfl hl
    refine if_neg fun h => ?_
    have : (s.tr t).markHeld = true := by
      unfold Transport.markHeld
      rw [show (s.tr t).pos.mark.pending.isSome = true from hp, hl]
      rfl
    rw [this] at h
    cases h.2
  · intro s t sd reason r ha hp hr hl hc
    exact captures_takeStop ha hp reason hr hl hc

end Sys2Proof.Machine
end

section
/-! PROOFS. The arithmetic of the Double-Feed Unit and of the conversions. -/

namespace Sys2Proof.Machine

/-! ### The gap update and the thresholds -/

theorem stepReference_eq (reference m : Nat) : ((stepReference reference m : Nat) : Int) =
    reference + ((64 * m : Int) - reference).tdiv 8 := by
  unfold stepReference
  refine Int.toNat_of_nonneg ?_
  have h := Int.mul_tdiv_add_tmod ((64 * m : Int) - reference) 8
  rcases Int.le_total 0 ((64 * m : Int) - reference) with hs | hs
  · have := Int.tdiv_nonneg hs (by decide : (0 : Int) ≤ 8); omega
  · have hd := Int.neg_tdiv (a := (reference : Int) - 64 * m) (b := 8)
    rw [show -((reference : Int) - 64 * m) = 64 * m - reference by omega] at hd
    have := Int.tdiv_eq_ediv_of_nonneg (b := 8) (by omega : (0 : Int) ≤ (reference : Int) - 64 * m)
    omega

/-- The eighth of a distance is truncated toward 0, so R never passes the mean. -/
theorem stepReference_cases (reference m : Nat) :
    (reference ≤ 64 * m → stepReference reference m = reference + (64 * m - reference) / 8) ∧
    (64 * m ≤ reference → stepReference reference m = reference - (reference - 64 * m) / 8) := by
  have h := stepReference_eq reference m
  refine ⟨fun hle => ?_, fun hle => ?_⟩
  · rw [Int.tdiv_eq_ediv_of_nonneg (by omega)] at h; omega
  · have hd := Int.neg_tdiv (a := (reference : Int) - 64 * m) (b := 8)
    rw [show -((reference : Int) - 64 * m) = 64 * m - reference by omega,
      Int.tdiv_eq_ediv_of_nonneg (by omega : (0 : Int) ≤ (reference : Int) - 64 * m)] at hd
    omega

theorem gapUpdate_reference (d : DoubleFeedUnit) : d.gapUpdate.reference =
    if 4 ≤ d.gap.count then stepReference d.reference (d.gap.sum / d.gap.count) else d.reference := rfl

theorem thresholdsOf_bounds {reference qIn qOut : Nat} (hr : reference ≤ 65472) (hio : qIn < qOut) (ho : qOut ≤ 255) :
    reference * qIn / 16384 ≤ 1015 ∧ reference * qOut / 16384 ≤ 1019 := by
  have h1 : reference * qIn ≤ 65472 * 254 := Nat.mul_le_mul hr (by omega)
  have h2 : reference * qOut ≤ 65472 * 255 := Nat.mul_le_mul hr ho
  omega

/-- Settles O26. -/
theorem referenceAndThresholds : Obligations.ReferenceAndThresholds := by
  refine ⟨?_, ?_⟩
  · intro d m r
    have hr : r = if 4 ≤ d.gap.count then stepReference d.reference m else d.reference := gapUpdate_reference d
    refine ⟨rfl, fun h => by rw [hr, if_neg (by omega)], fun h => ?_⟩
    rw [if_pos h] at hr
    obtain ⟨hup, hdown⟩ := stepReference_cases d.reference m
    rw [hr]
    refine ⟨stepReference_eq _ _, fun hle => ?_, fun hle => ?_, fun hle hm => ?_⟩
    · rw [hup hle]; omega
    · rw [hdown hle]; omega
    · rcases Nat.le_total d.reference (64 * m) with hc | hc
      · rw [hup hc]; omega
      · rw [hdown hc]; omega
  · intro reference qIn qOut hr _ hio ho e
    obtain ⟨h1, h2⟩ := thresholdsOf_bounds hr hio ho
    have he : e.2 = if reference * qOut / 16384 ≤ reference * qIn / 16384 then reference * qIn / 16384 + 1
      else reference * qOut / 16384 := rfl
    refine ⟨rfl, ?_, ?_, fun h => ?_⟩
    · show reference * qIn / 16384 < e.2
      rw [he]; split <;> omega
    · rw [he]; split <;> omega
    · rw [he]; exact if_neg (Nat.not_le.mpr h)

/-! ### The conversions -/

theorem scaleUnit_cases {mode : Nat} (h : mode ≤ 2) :
    scaleUnit mode = 65536 ∨ scaleUnit mode = 32768 ∨ scaleUnit mode = 16384 := by
  have : mode = 0 ∨ mode = 1 ∨ mode = 2 := by omega
  rcases this with rfl | rfl | rfl <;> decide

/-- The count before its bound is the ceiling of the product over the scale. -/
theorem countsOf_spec {mode scale : Nat} (hs : 0 < scale) (x : Nat) :
    (countsOf mode scale x < 16777215 → x * scaleUnit mode ≤ countsOf mode scale x * scale) ∧
    (∀ n, n < countsOf mode scale x → n * scale < x * scaleUnit mode) := by
  unfold countsOf
  generalize x * scaleUnit mode = a
  have hd := Nat.div_add_mod (a + (scale - 1)) scale
  have hm := Nat.mod_lt (a + (scale - 1)) hs
  generalize (a + (scale - 1)) / scale = q at *
  refine ⟨fun h => ?_, fun n hn => ?_⟩
  · rw [Nat.min_eq_right (by omega)]
    rw [Nat.mul_comm q scale]
    omega
  · have hlt : n + 1 ≤ q := by omega
    have := Nat.mul_le_mul_right scale hlt
    rw [Nat.add_mul, Nat.one_mul, Nat.mul_comm q scale] at this
    omega

/-- The length before its bound is the product rounded half up. -/
theorem lengthOf_spec {mode : Nat} (hm : mode ≤ 2) (scale n : Nat) :
    2 * lengthOf mode scale n * scaleUnit mode ≤ 2 * n * scale + scaleUnit mode ∧
    (lengthOf mode scale n < 65535 → 2 * n * scale + scaleUnit mode < 2 * (lengthOf mode scale n + 1) * scaleUnit mode) := by
  unfold lengthOf
  rw [Nat.mul_assoc 2 n scale]
  generalize n * scale = a
  rcases scaleUnit_cases hm with h | h | h <;> rw [h] <;> omega

/-- Settles O28. -/
theorem conversions : Obligations.Conversions := by
  intro mode scale hm hs _
  refine ⟨fun x => ?_, fun n => ?_⟩
  · obtain ⟨hge, hlt⟩ := countsOf_spec (mode := mode) hs x
    refine ⟨hge, hlt, Nat.min_le_left _ _, ?_⟩
    unfold countsOf
    rw [Nat.zero_mul, Nat.zero_add, Nat.div_eq_of_lt (by omega)]
    rfl
  · obtain ⟨hle, hlt⟩ := lengthOf_spec hm scale n
    exact ⟨hle, hlt, Nat.min_le_left _ _⟩

/-! ### Runs and the verdict -/

theorem judgeRun_eq (x : Transport) (p : Profile) (lead a b : Pos) :
    judgeRun x p lead a b =
      if x.tenths (nearDistance a b) < p.overlapMin then none
      else some { offset := x.tenths (nearDistance lead a), length := x.tenths (nearDistance a b),
                  exempt := p.zones.any fun z => decide (z.1 ≤ x.tenths (nearDistance lead a)) &&
                    decide (x.tenths (nearDistance lead a) + x.tenths (nearDistance a b) ≤ z.2) } := rfl

/-- What the verdict rests on: an open run ended at the trail. -/
def SheetRecord.endedRun (r : SheetRecord) (x : Transport) (trail : Pos) : Verdict :=
  match x.dfu.run with
  | .inside p => (r.endRun x p trail).verdict
  | .outside => r.verdict
  | .none => r.verdict

theorem decideVerdict_verdict (r : SheetRecord) (x : Transport) (trail : Pos) :
    (r.decideVerdict x trail).verdict =
      (r.endedRun x trail).decide (x.profileOf r.selector) (x.tenths (fwd (r.df.lead.getD 0) trail)) := by
  unfold SheetRecord.decideVerdict SheetRecord.endedRun
  cases x.dfu.run <;> rfl

theorem endRun_verdict (r : SheetRecord) (x : Transport) (a b : Pos) : (r.endRun x a b).verdict =
    match judgeRun x (x.profileOf r.selector) (r.df.lead.getD 0) a b with
    | none => r.verdict
    | some g => r.verdict.addSegment g := by
  unfold SheetRecord.endRun
  cases judgeRun x (x.profileOf r.selector) (r.df.lead.getD 0) a b <;> rfl

/-- A segment touches the segments, their count and OVERLAP alone. -/
theorem addSegment_kept (v : Verdict) (g : Segment) : (v.addSegment g).long = v.long ∧ (v.addSegment g).short = v.short ∧
    (v.addSegment g).thresholds = v.thresholds ∧ (v.addSegment g).lengthUnverified = v.lengthUnverified := by
  unfold Verdict.addSegment
  dsimp only
  split <;> exact ⟨rfl, rfl, rfl, rfl⟩

theorem endedRun_kept (r : SheetRecord) (x : Transport) (trail : Pos) :
    (r.endedRun x trail).long = r.verdict.long ∧ (r.endedRun x trail).short = r.verdict.short ∧
    (r.endedRun x trail).thresholds = r.verdict.thresholds ∧
    (r.endedRun x trail).lengthUnverified = r.verdict.lengthUnverified := by
  unfold SheetRecord.endedRun
  split
  · rw [endRun_verdict]
    split
    · exact ⟨rfl, rfl, rfl, rfl⟩
    · exact addSegment_kept _ _
  · exact ⟨rfl, rfl, rfl, rfl⟩
  · exact ⟨rfl, rfl, rfl, rfl⟩

/-- The flags of an undecided verdict's length. -/
def Verdict.flags (v : Verdict) (p : Profile) (length : Nat) : Bool × Bool :=
  if v.lengthUnverified then (false, false) else lengthFlags p length

theorem decide_fields (v : Verdict) (p : Profile) (n : Nat) :
    (v.decide p n).overlap = v.overlap ∧ (v.decide p n).segments = v.segments ∧ (v.decide p n).further = v.further ∧
    (v.decide p n).thresholds = v.thresholds ∧ (v.decide p n).decided = true ∧ (v.decide p n).length = some n ∧
    (v.decide p n).long = (v.long || (v.flags p n).1) ∧ (v.decide p n).short = (v.short || (v.flags p n).2) ∧
    (v.decide p n).action = verdictAction p (v.decide p n) :=
  ⟨rfl, rfl, rfl, rfl, rfl, rfl, rfl, rfl, rfl⟩

/-- The two actions that the flags of a verdict call for, the stronger of which is its action. -/
theorem verdictAction_eq (p : Profile) (v : Verdict) : verdictAction p v =
    Action.stronger (if v.overlap || v.long then p.suspectAction else .none) (if v.short then p.shortAction else .none) := rfl

theorem stronger_iff (a b : Action) :
    (a.stronger b = .hold ↔ a = .hold ∨ b = .hold) ∧ (a.stronger b = .none ↔ a = .none ∧ b = .none) ∧
    (a.stronger b = .review ↔ a.stronger b ≠ .hold ∧ (a = .review ∨ b = .review)) := by
  cases a <;> cases b <;> decide

theorem calledFor_iff (c : Prop) [Decidable c] (a k : Action) (hk : k ≠ .none) : (if c then a else .none) = k ↔ c ∧ a = k := by
  split
  · rename_i h; simp [h]
  · rename_i h; simp [h, hk.symm]

theorem verdictAction_iff (p : Profile) (v : Verdict) :
    (verdictAction p v = .hold ↔ ((v.overlap = true ∨ v.long = true) ∧ p.suspectAction = .hold) ∨
      (v.short = true ∧ p.shortAction = .hold)) ∧
    (verdictAction p v = .none ↔ (v.overlap = true ∨ v.long = true → p.suspectAction = .none) ∧
      (v.short = true → p.shortAction = .none)) ∧
    (verdictAction p v = .review ↔ verdictAction p v ≠ .hold ∧
      (((v.overlap = true ∨ v.long = true) ∧ p.suspectAction = .review) ∨ (v.short = true ∧ p.shortAction = .review))) := by
  rw [verdictAction_eq]
  obtain ⟨hh, hn, hr⟩ := stronger_iff (if v.overlap || v.long then p.suspectAction else .none)
    (if v.short then p.shortAction else .none)
  refine ⟨?_, ?_, ?_⟩
  · rw [hh, calledFor_iff _ _ _ (by decide), calledFor_iff _ _ _ (by decide), Bool.or_eq_true]
  · rw [hn, ite_eq_right_iff, ite_eq_right_iff, Bool.or_eq_true]
  · rw [hr, calledFor_iff _ _ .review (by decide), calledFor_iff _ _ .review (by decide)]
    simp only [Bool.or_eq_true]

theorem flags_of_unverified {v : Verdict} (h : v.lengthUnverified = true) (p : Profile) (n : Nat) :
    v.flags p n = (false, false) := by
  unfold Verdict.flags
  rw [if_pos h]

theorem flags_of_verified {v : Verdict} (h : v.lengthUnverified = false) (p : Profile) (n : Nat) :
    v.flags p n = lengthFlags p n := by
  unfold Verdict.flags
  rw [if_neg (by rw [h]; decide)]

/-- Settles O27. -/
theorem runsAndVerdict : Obligations.RunsAndVerdict := by
  refine ⟨?_, ?_, ?_⟩
  · intro x p lead a b near offset length
    have hj : judgeRun x p lead a b = if length < p.overlapMin then none
        else some { offset, length, exempt := p.zones.any fun z => decide (z.1 ≤ offset) && decide (offset + length ≤ z.2) } :=
      judgeRun_eq x p lead a b
    refine ⟨fun h => by rw [hj, if_pos h], fun h => ?_⟩
    refine ⟨_, by rw [hj, if_neg (by omega)], rfl, rfl, ?_⟩
    simp only [List.any_eq_true, Bool.and_eq_true, decide_eq_true_eq]
  · intro v g w
    have hw : w = { (if v.segments.length < 4 then { v with segments := v.segments ++ [g] }
      else { v with further := sat255 v.further } : Verdict) with overlap := v.overlap || !g.exempt } := rfl
    refine ⟨fun h => ?_, fun h => ?_, ?_⟩
    · rw [if_pos h] at hw; rw [hw]; exact ⟨rfl, rfl⟩
    · rw [if_neg (by omega)] at hw; rw [hw]; exact ⟨rfl, rfl⟩
    · rw [show w.overlap = (v.overlap || !g.exempt) by rw [hw]]
      simp
  · intro x r trail p v lead length ended
    have hv : v = (r.endedRun x trail).decide p length := decideVerdict_verdict r x trail
    obtain ⟨hol, hsg, hfu, hth, hde, hle, hlo, hsh, hac⟩ := decide_fields (r.endedRun x trail) p length
    obtain ⟨klo, ksh, kth, kun⟩ := endedRun_kept r x trail
    rw [← hv] at hol hsg hfu hth hde hle hlo hsh hac
    rw [klo] at hlo
    rw [ksh] at hsh
    obtain ⟨ahold, anone, areview⟩ := verdictAction_iff p v
    rw [← hac] at ahold anone areview
    have hin : ∀ start, x.dfu.run = .inside start → r.endedRun x trail = ended start := by
      intro start h
      unfold SheetRecord.endedRun
      rw [h]
      exact endRun_verdict r x start trail
    have hout : (∀ start, x.dfu.run ≠ .inside start) → r.endedRun x trail = r.verdict := by
      intro h
      unfold SheetRecord.endedRun
      split
      · next q hq => exact absurd hq (h q)
      · rfl
      · rfl
    refine ⟨fun start h => ?_, fun h => ?_, hde, hle, hth.trans kth, fun h => ?_, fun h h0 => ?_, fun h h0 => ?_, ahold, anone,
      areview⟩
    · rw [← hin start h]; exact ⟨hol, hsg, hfu⟩
    · rw [hout h] at hol hsg hfu; exact ⟨hol, hsg, hfu⟩
    · rw [hlo, hsh, flags_of_unverified (kun.trans h)]
      simp
    · rw [hlo, hsh, flags_of_verified (kun.trans h)]
      unfold lengthFlags
      rw [if_pos h0]
      simp
    · rw [hlo, hsh, flags_of_verified (kun.trans h)]
      unfold lengthFlags
      rw [if_neg h0]
      simp only [Bool.or_eq_true, Bool.and_eq_true, decide_eq_true_eq, true_and]
      have : p.shortTol < p.nominal ∧ length < p.nominal - p.shortTol ↔ length + p.shortTol < p.nominal := by omega
      rw [this]

end Sys2Proof.Machine
end

/-! PROOFS. The pick miss (02 section 2.4), the motor commanded off by a timer (02 section 2.3), and raw edges (01 section 1.3). -/

section

namespace Sys2Proof.Machine

namespace State

variable {s u v : State} {t : TransportNo} {x y : Transport}

/-- Whoever is in the track after a stop was there before it, and not PICKED (R42). -/
theorem mem_track_takeStop (ha : (s.tr t).isActive = true) {reason : StopReason} {q : SheetRecord}
    (hq : q ∈ ((s.takeStop t reason).tr t).track) : ∃ r ∈ (s.tr t).track, r.life ≠ .picked ∧ q.id = r.id := by
  obtain ⟨v, hv, e⟩ := takeStop_eq ha reason
  have hs := stopped_state (s.tr t) reason
  have h1 := sideOnly_endWindowAtStop (sd := .front) v (hv ▸ hs)
  have h2 := sideOnly_endWindowAtStop (sd := .back) (v.endWindowAtStop t .front) (by rw [h1.state, hv]; exact hs)
  have hl := h2.sideless.trans h1.sideless
  obtain ⟨d, f, b, es, -⟩ := (s.tr t).stopped_eq reason
  rw [← e, hv, es] at hl
  obtain ⟨k, hk, hkq⟩ := List.mem_map.mp (hl ▸ List.mem_map_of_mem (f := SheetRecord.sideless) hq)
  obtain ⟨r, hr, hrk⟩ := List.mem_filterMap.mp hk
  refine ⟨r, hr, fun h => ?_, ?_⟩
  · unfold SheetRecord.sorted at hrk
    rw [h] at hrk
    cases hrk
  · have hid : k.id = q.id := (congrArg SheetRecord.id hkq :)
    rw [← hid, (SheetRecord.sorted_eq_some hrk).1]

/-! ### The pick miss -/

/-- The state of a pick miss before its stop. -/
def missed (s : State) (t : TransportNo) (r : SheetRecord) (n : Nat) : State :=
  (s.setTr t { s.tr t with track := (s.tr t).track.filter fun q => q.id != r.id, clutch := false, retries := n }).returnPages
    r.pages r.reserve

theorem pickMissed_eq {n : Nat} (r : SheetRecord)
    (hn : (if (s.tr t).state = .running ∧ (s.tr t).runOn = none then (s.tr t).retries + 1 else 0) = n) : s.pickMissed t r =
    if (s.tr t).state = .running ∧ (s.tr t).runOn = none ∧ (s.tr t).cfg.pickRetries < n then
      (s.missed t r n).takeStop t .misfeed
    else s.missed t r n := by
  subst hn
  rfl

/-- A pick miss with retries left. -/
theorem pickMissed_of_retry {r : SheetRecord} (hs : (s.tr t).state = .running) (ho : (s.tr t).runOn = none)
    (hn : (s.tr t).retries < (s.tr t).cfg.pickRetries) : s.pickMissed t r = s.missed t r ((s.tr t).retries + 1) := by
  rw [pickMissed_eq r (if_pos ⟨hs, ho⟩), if_neg fun h => by omega]

theorem pickMissed_of_misfeed {r : SheetRecord} (hs : (s.tr t).state = .running) (ho : (s.tr t).runOn = none)
    (hn : (s.tr t).cfg.pickRetries ≤ (s.tr t).retries) :
    s.pickMissed t r = (s.missed t r ((s.tr t).retries + 1)).takeStop t .misfeed := by
  rw [pickMissed_eq r (if_pos ⟨hs, ho⟩), if_pos ⟨hs, ho, by omega⟩]

theorem pickMissed_of_no_retry {r : SheetRecord} (h : ¬((s.tr t).state = .running ∧ (s.tr t).runOn = none)) :
    s.pickMissed t r = s.missed t r 0 := by
  rw [pickMissed_eq r (if_neg h), if_neg fun g => h ⟨g.1, g.2.1⟩]

theorem missed_onlyPicked (s : State) (t : TransportNo) (r : SheetRecord) (n : Nat) :
    ({ s.tr t with track := (s.tr t).track.filter fun q => q.id != r.id, clutch := false, retries := n } : Transport).MayPick
      s.hold.total ((s.missed t r n).tr t) := by
  have h := mayPick_returnPages (s.setTr t { s.tr t with
    track := (s.tr t).track.filter fun q => q.id != r.id, clutch := false, retries := n }) r.pages r.reserve t
  rwa [tr_setTr_self] at h

/-- The records after a pick miss are the others, or PICKED in its own step. -/
theorem mem_track_missed {n : Nat} {r q : SheetRecord} (hq : q ∈ ((s.missed t r n).tr t).track) : q.id ≠ r.id ∨ q.life = .picked := by
  rcases missed_onlyPicked s t r n with h | ⟨-, h⟩
  · rw [h] at hq
    exact .inl (by simpa using (List.mem_filter.mp hq).2)
  · rw [h] at hq
    rcases List.mem_append.mp hq with h | h
    · exact .inl (by simpa using (List.mem_filter.mp h).2)
    · exact .inr (List.mem_singleton.mp h ▸ rfl)

/-- A MISFEED stop after a pick miss. -/
theorem heldAfter_misfeed {n : Nat} {r : SheetRecord} (ha : (s.tr t).isActive = true) :
    s.HeldAfter ((s.missed t r n).takeStop t .misfeed) t .misfeed ∧
      ∀ q ∈ (((s.missed t r n).takeStop t .misfeed).tr t).track, q.id ≠ r.id := by
  have hk := (missed_onlyPicked s t r n).onlyPicked
  unfold Transport.OnlyPicked at hk
  have hst : ((s.missed t r n).tr t).state = (s.tr t).state := (congrArg Transport.state hk :)
  have ham : ((s.missed t r n).tr t).isActive = true := by unfold Transport.isActive; rw [hst]; exact ha
  refine ⟨(heldAfter_takeStop ham .misfeed).of_eq (congrArg Transport.purpose hk :)
    (congrArg (fun x : Transport => x.dfu.reference) hk :), fun q hq => ?_⟩
  obtain ⟨k, hk, hl, hid⟩ := mem_track_takeStop ham hq
  exact hid ▸ (mem_track_missed hk).resolve_right hl

theorem execPickMiss_eq {r : SheetRecord}
    (hf : (s.tr t).track.find? (fun r => r.life == .picked && r.entry.leadEnd == .raised) = some r)
    (ha : (s.tr t).isActive = true) (hp : (s.tr t).pos.entry.pending = none) :
    exec (.pickMiss t) s = .next ((s.pickMissed t r).finish s []) := by
  show execPickMiss t s = _
  unfold execPickMiss Transport.findRecord
  have hpend : (s.tr t).pendingAt .entry = false := by
    unfold Transport.pendingAt
    rw [show ((s.tr t).pos.sensor (.station .entry)).pending = none from hp]
    rfl
  dsimp only
  rw [hf]
  dsimp only
  rw [ha, hpend]
  rfl

end State

/-- Settles O24. -/
theorem pickMiss : Obligations.PickMiss := by
  intro s t r x missed hf ha hp
  have he := State.execPickMiss_eq hf ha hp
  refine ⟨fun hs ho hn => ?_, fun hs ho hn => ?_, fun h => ?_⟩
  · rw [he, State.pickMissed_of_retry hs ho hn]; rfl
  · obtain ⟨hh, ht⟩ := State.heldAfter_misfeed (r := r) (n := (s.tr t).retries + 1) ha
    exact ⟨_, by rw [he, State.pickMissed_of_misfeed hs ho hn], hh, ht⟩
  · rw [he, State.pickMissed_of_no_retry]
    · rfl
    · rintro ⟨hs, ho⟩
      rcases h with h | h
      · rw [show x.state = .running from hs] at h; cases h
      · exact h ho

/-! ### The motor commanded off by a timer -/

theorem State.endKept_finish (s : State) (t : TransportNo) (x : Transport) (before : State) :
    x.EndKept (((s.setTr t x).finish before []).tr t) := by
  have k := (within_finishVia (s.setTr t x) before [] []).transports t
  rwa [tr_setTr_self] at k

/-- What the end of a step keeps of a READY or PAUSED transport, its track empty. -/
theorem Transport.EndKept.still_empty {x y : Transport} (k : x.EndKept y) (hs : x.state = .ready ∨ x.state = .paused)
    (ht : x.track = []) :
    y.state = x.state ∧ y.stopReason = x.stopReason ∧ y.motor = x.motor ∧ y.pos.stallTimer = x.pos.stallTimer ∧
      y.runOffTimer = x.runOffTimer ∧ y.dfu.reference = x.dfu.reference ∧ y.batch.counters = x.batch.counters := by
  have hr : x.state ≠ .running := by rcases hs with h | h <;> rw [h] <;> decide
  have hd : x.state ≠ .draining := by rcases hs with h | h <;> rw [h] <;> decide
  obtain ⟨c1, -, c3, c4, -, -, -, -, c9, -, -, c12, c13⟩ := k.still hr hd
  exact ⟨c1, c3, c4, by rw [c9], c12, k.reference, c13 ht⟩

theorem Transport.motorOff_of_no_runIn {x : Transport} (h : x.motor ≠ .runIn) : x.motorOff =
    { x with motor := .standing, clutch := false, runOffTimer := none, pos := { x.pos with stallTimer := none } } := by
  unfold Transport.motorOff Transport.abandonRunIn
  rw [if_neg h]

/-- Settles O25. -/
theorem runInAndGap : Obligations.RunInAndGap := by
  refine ⟨fun s t => ?_, fun s t r => ?_, fun s t => ?_⟩
  · intro x d hm he
    exact if_pos ⟨hm, he⟩
  · intro x hf
    show execGapMet t s = _
    unfold execGapMet Transport.findRecord
    rw [show (s.tr t).track.find? (fun r => r.gap == .raised) = some r from hf]
    rfl
  · intro x off stopsMotor hs ht hm
    have hoff : (s.tr t).motorOff = off := Transport.motorOff_of_no_runIn hm
    have hu := (s.endKept_finish t off s).still_empty hs ht
    refine ⟨fun hr htm => ⟨_, ?_, rfl, hu⟩, fun htm => ⟨_, ?_, rfl, hu⟩⟩
    · show execRunOffTimerExpiry t s = _
      unfold execRunOffTimerExpiry State.modTr
      dsimp only
      rw [if_pos ⟨hr, htm⟩, hoff]
    · show execStallTimerExpiry t s = _
      unfold execStallTimerExpiry State.modTr
      have hna : (s.tr t).isActive = false := by
        unfold Transport.isActive
        rcases hs with h | h <;> rw [show (s.tr t).state = _ from h] <;> rfl
      dsimp only
      rw [if_pos htm, hna, if_neg (by decide), if_pos hs, hoff]

/-! ### Raw edges -/

theorem Transport.rawEdge_of_pending {x : Transport} {sn : Sensor} {p : PendingChange} (h : (x.pos.sensor sn).pending = some p) :
    x.rawEdge sn = x.setSensor sn { x.pos.sensor sn with
      raw := !(x.pos.sensor sn).raw, pending := some { p with hold := x.pos.debounce } } := by
  unfold Transport.rawEdge
  dsimp only
  rw [h]

theorem Transport.rawEdge_of_back {x : Transport} {sn : Sensor} (h : (x.pos.sensor sn).pending = none)
    (hr : (!(x.pos.sensor sn).raw) = (x.pos.sensor sn).level) :
    x.rawEdge sn = x.setSensor sn { x.pos.sensor sn with raw := !(x.pos.sensor sn).raw } := by
  unfold Transport.rawEdge
  dsimp only
  rw [h]
  exact if_pos hr

/-- The change that a raw edge makes pending, before a measurement begins. -/
def Transport.edgePending (x : Transport) (sn : Sensor) : Transport :=
  x.setSensor sn { x.pos.sensor sn with
    raw := !(x.pos.sensor sn).raw, pending := some { latch := x.pos.counter, hold := x.pos.debounce } }

theorem Transport.rawEdge_of_change {x : Transport} {sn : Sensor} (h : (x.pos.sensor sn).pending = none)
    (hr : (!(x.pos.sensor sn).raw) ≠ (x.pos.sensor sn).level) : x.rawEdge sn =
      if sn = .station .mark ∧ (!(x.pos.sensor sn).raw) = true then (x.edgePending sn).beginMeasurement x.pos.counter
      else x.edgePending sn := by
  unfold Transport.rawEdge
  dsimp only
  rw [h]
  exact if_neg hr

/-- Settles O17. -/
theorem rawEdgePends : Obligations.RawEdgePends := by
  intro s t sn hd x c put pending
  have he : exec (.sensorRawEdge t sn) s = .next (s.setTr t (x.rawEdge sn)) := by
    show execSensorRawEdge t sn s = _
    unfold execSensorRawEdge
    exact if_neg hd
  rw [he]
  refine ⟨fun p hp => ?_, fun hp hr => ?_, fun hp hr hm => ?_, fun hp hr hsn hraw ha hm => ?_⟩
  · rw [Transport.rawEdge_of_pending hp]; rfl
  · rw [Transport.rawEdge_of_back hp hr]; rfl
  · rw [Transport.rawEdge_of_change hp hr]
    split
    · next h =>
      have hb : ¬((x.edgePending sn).isActive = true ∧ (x.edgePending sn).marks.measurement = .none) := by
        rintro ⟨ha, hn⟩
        rcases hm with g | g | g | g
        · exact g h.1
        · rw [show (x.pos.sensor sn).raw = true from g] at h; cases h.2
        · exact g ha
        · exact g hn
      unfold Transport.beginMeasurement
      rw [if_neg hb]
      rfl
    · rfl
  · rw [Transport.rawEdge_of_change hp hr, if_pos ⟨hsn, by rw [show (x.pos.sensor sn).raw = false from hraw]; rfl⟩]
    unfold Transport.beginMeasurement
    rw [if_pos ⟨ha, hm⟩, show (x.edgePending sn).pos.dark = x.pos.dark by subst hsn; rfl]
    rfl

end Sys2Proof.Machine
end

/-! PROOFS. The edges at the stations (01 section 1.4). -/

section

namespace Sys2Proof.Machine

/-! ### An edge in RUNNING and DRAINING -/

/-- The latch of a trail lies beyond its record's deadline, which was passed. -/
def Transport.late (x : Transport) (r : SheetRecord) (st : Station) (latch : Pos) : Prop :=
  (r.at st).trailEnd = .raised ∧ (x.copyOf r.selector).cLMax < fwd ((r.at st).lead.getD 0) latch

namespace State

variable {s u v : State} {t : TransportNo}

theorem stationChange_paper (ha : (s.tr t).isActive = true) (st : Station) (latch : Pos) :
    s.stationChange t st true latch = s.leadEdge t st latch := by
  unfold stationChange
  rw [if_pos ha]
  rfl

theorem stationChange_noPaper (ha : (s.tr t).isActive = true) (st : Station) (latch : Pos) :
    s.stationChange t st false latch = s.trailEdge t st latch := by
  unfold stationChange
  rw [if_pos ha]
  rfl

/-- A lead without a record is a JAM_EARLY stop. -/
theorem leadEdge_of_none {st : Station} {latch : Pos} (h : (s.tr t).leadOwner st = none) :
    s.leadEdge t st latch = s.takeStop t .jamEarly := by
  unfold leadEdge
  rw [h]

/-- A lead inside the window of its record is seen. -/
theorem leadEdge_of_inside {st : Station} {latch : Pos} {r : SheetRecord} (h : (s.tr t).leadOwner st = some r)
    (hw : fwd ((s.tr t).leadWindow r st).1 latch ≤ fwd ((s.tr t).leadWindow r st).1 ((s.tr t).leadWindow r st).2) :
    s.leadEdge t st latch = s.leadSeen t r st latch := by
  unfold leadEdge
  rw [h]
  exact if_pos (decide_eq_true hw)

/-- A lead outside the window of its record is a JAM_EARLY stop. -/
theorem leadEdge_of_outside {st : Station} {latch : Pos} {r : SheetRecord} (h : (s.tr t).leadOwner st = some r)
    (hw : ¬fwd ((s.tr t).leadWindow r st).1 latch ≤ fwd ((s.tr t).leadWindow r st).1 ((s.tr t).leadWindow r st).2) :
    s.leadEdge t st latch = s.takeStop t .jamEarly := by
  unfold leadEdge
  rw [h]
  exact if_neg fun g => hw (of_decide_eq_true g)

theorem trailEdge_of_none {st : Station} {latch : Pos} (h : (s.tr t).trailOwner st = none) :
    s.trailEdge t st latch = s.takeStop t .jamEarly := by
  unfold trailEdge
  rw [h]

theorem trailEdge_of_late {st : Station} {latch : Pos} {r : SheetRecord} (h : (s.tr t).trailOwner st = some r)
    (hl : (s.tr t).late r st latch) : s.trailEdge t st latch = s.takeStop t .trailLate := by
  unfold trailEdge
  rw [h]
  exact if_pos hl

theorem trailEdge_of_seen {st : Station} {latch : Pos} {r : SheetRecord} (h : (s.tr t).trailOwner st = some r)
    (hl : ¬(s.tr t).late r st latch) : s.trailEdge t st latch = s.trailSeen t r st latch := by
  unfold trailEdge
  rw [h]
  exact if_neg hl

end State

/-- Settles O20. -/
theorem entryLeadEdge : Obligations.EntryLeadEdge := by
  intro s t latch ha x u
  have hu : u = s.leadEdge t .entry latch := State.stationChange_paper ha _ _
  refine ⟨fun r hr hw => ?_, fun r hr hw => ?_, fun hr => ?_⟩
  · have he : u = s.modTr t fun x => x.entryLead r latch := hu.trans (State.leadEdge_of_inside (st := .entry) hr hw)
    rw [he]
    refine ⟨fun i hi => State.tr_setTr_of_ne _ _ hi, .modTr, rfl, ?_⟩
    rw [State.tr_modTr_self]
    exact ⟨rfl, rfl, rfl, rfl, rfl, rfl⟩
  · rw [hu, State.leadEdge_of_outside (st := .entry) hr (Nat.not_le.mpr hw)]
    exact State.heldAfter_takeStop ha _
  · rw [hu, State.leadEdge_of_none (st := .entry) hr]
    exact State.heldAfter_takeStop ha _

end Sys2Proof.Machine
end

/-! PROOFS. The hand-offs of the station edges (01 Table 1-5): changes of one record, and the DF lead and trail. -/

section

namespace Sys2Proof.Machine

theorem SheetRecord.setSide_self (r : SheetRecord) (sd : Side) : r.setSide sd (r.side sd) = r := by cases sd <;> rfl

theorem State.setTr_self (s : State) (t : TransportNo) : s.setTr t (s.tr t) = s := by
  show ({ s with transports := s.transports.set t.val s.transports[t] t.isLt } : State) = s
  rw [show s.transports.set t.val s.transports[t] t.isLt = s.transports from Vector.set_getElem_self _]

namespace Transport

variable {x y z : Transport} {id : Nat} {sd so : Side} {r : SheetRecord}

/-! ### Changes of the record with an id -/

theorem modRecord_modRecord {f g : SheetRecord → SheetRecord} (hf : ∀ q, (f q).id = q.id) :
    (x.modRecord id f).modRecord id g = x.modRecord id fun q => g (f q) := by
  unfold modRecord
  congr 1
  rw [List.map_map]
  refine List.map_congr_left fun q _ => ?_
  rw [Function.comp_apply]
  by_cases h : q.id = id
  · rw [if_pos h, if_pos h, if_pos ((hf q).trans h)]
  · rw [if_neg h, if_neg h, if_neg h]

/-- The record r is the one with an id. -/
def Only (x : Transport) (id : Nat) (r : SheetRecord) : Prop := x.record id = some r ∧ ∀ q ∈ x.track, q.id = id → q = r

theorem PageLaw.only (p : x.PageLaw) (hr : r ∈ x.track) : x.Only r.id r := ⟨p.record_eq hr, fun _ hq h => p.eq_of_id hr hq h⟩

theorem Only.modRecord_congr {f g : SheetRecord → SheetRecord} (h : x.Only id r) (e : f r = g r) :
    x.modRecord id f = x.modRecord id g := by
  unfold modRecord
  congr 1
  refine List.map_congr_left fun q hq => ?_
  split
  · next hid => rw [h.2 q hq hid, e]
  · rfl

theorem Only.modRecord_self {f : SheetRecord → SheetRecord} (h : x.Only id r) (e : f r = r) : x.modRecord id f = x := by
  rw [h.modRecord_congr (g := fun q => q) e]
  show ({ x with track := x.track.map fun q => if q.id = id then q else q } : Transport) = x
  simp only [ite_self, List.map_id']

theorem Only.modRecord {f : SheetRecord → SheetRecord} (h : x.Only id r) (hf : ∀ q, (f q).id = q.id) :
    (x.modRecord id f).Only id (f r) := by
  refine ⟨record_modRecord hf h.1, fun q hq hid => ?_⟩
  obtain ⟨k, hk, rfl⟩ := mem_modRecord hq
  split at hid
  · next hkid => rw [if_pos hkid, h.2 k hk hkid]
  · next hkid => exact absurd hid hkid

/-! ### The side that a capture of the other one leaves alone -/

/-- The unit of a side, that side of every record and the Position Unit are as they were. -/
structure SideStays (so : Side) (x y : Transport) : Prop where
  unit : y.unit so = x.unit so
  pos : y.pos = x.pos
  record : ∀ {i r}, x.record i = some r → ∃ q, y.record i = some q ∧ q.side so = r.side so

theorem SideStays.refl (so : Side) (x : Transport) : SideStays so x x := ⟨rfl, rfl, fun h => ⟨_, h, rfl⟩⟩

theorem SideStays.trans (h : SideStays so x y) (g : SideStays so y z) : SideStays so x z where
  unit := g.unit.trans h.unit
  pos := g.pos.trans h.pos
  record hr := by
    obtain ⟨q, hq, hqs⟩ := h.record hr
    obtain ⟨k, hk, hks⟩ := g.record hq
    exact ⟨k, hk, hks.trans hqs⟩

theorem SideOnly.stays (h : SideOnly sd x y) (hs : so ≠ sd) : SideStays so x y where
  unit := h.unit_of_ne hs
  pos := by obtain ⟨l, f, b, rfl⟩ := h.heldFields; rfl
  record hr := by
    obtain ⟨q, hq, hqs⟩ := h.record hr
    exact ⟨q, hq, side_of_setSide hqs hs⟩

theorem MayPick.stays {n : Nat} (h : x.MayPick n y) : SideStays so x y := by
  rcases h with rfl | ⟨-, rfl⟩
  · exact .refl so _
  · refine ⟨by cases so <;> rfl, rfl, fun hr => ⟨_, ?_, rfl⟩⟩
    unfold Transport.record at hr ⊢
    unfold pick
    rw [List.find?_append, hr]
    rfl

end Transport

/-- The window start of a side that waits is armed. -/
def SheetRecord.armStart (sd : Side) (p : Pos) (q : SheetRecord) : SheetRecord :=
  q.setSide sd (if (q.side sd).capture = .waiting then { q.side sd with windowStart := .at p } else q.side sd)

/-- The window end of a side that is taken is armed. -/
def SheetRecord.armEnd (sd : Side) (p : Pos) (q : SheetRecord) : SheetRecord :=
  q.setSide sd (if (q.side sd).capture = .waiting ∨ (q.side sd).capture = .capturing then { q.side sd with windowEnd := .at p }
    else q.side sd)

namespace State

variable {s u v : State} {t : TransportNo} {sd so : Side} {r : SheetRecord} {id : Nat} {p latch : Pos}

open Transport (SideStays Only)

theorem stays_repairLine (s : State) (hs : so ≠ sd) : SideStays so (s.tr t) ((s.repairLine t sd).tr t) := by
  cases hc : (s.tr t).capturedRecord sd with
  | none => unfold repairLine; rw [takeLine_none hc]; exact .refl so _
  | some r =>
    obtain ⟨z, w, h, -⟩ := linesTaken_repairLine hc
    rw [h.tr]
    exact (Transport.sideOnly_putSide _ _ _ _ _).stays hs

theorem stays_repairLines (s : State) (hs : so ≠ sd) (n : Nat) : SideStays so (s.tr t) ((s.repairLines t sd n).tr t) := by
  induction n generalizing s with
  | zero => exact .refl so _
  | succ n ih => exact (s.stays_repairLine hs).trans (ih _)

theorem stays_setUnit (x : Transport) (c : CaptureUnit) (hs : so ≠ sd) : SideStays so x (x.setUnit sd c) :=
  (Transport.sideOnly_setUnit x sd c).stays hs

theorem stays_completeSide (s : State) (hs : so ≠ sd) : SideStays so (s.tr t) ((s.completeSide t sd).tr t) := by
  cases hc : (s.tr t).capturedRecord sd with
  | none =>
    unfold completeSide
    dsimp only
    rw [hc]
    dsimp only
    rw [tr_modTr_self]
    exact stays_setUnit _ _ hs
  | some r =>
    rw [completeSide_eq hc]
    refine SideStays.trans ?_ (mayPick_returnPages _ _ _ t).stays
    rw [tr_modTr_self]
    exact (Transport.sideOnly_putSide _ _ _ _ _).stays hs

theorem stays_triggerLine (s : State) (hs : so ≠ sd) : SideStays so (s.tr t) ((s.triggerLine t sd).tr t) := by
  have h : SideStays so (s.tr t)
      ((if ((s.tr t).unit sd).outstanding + 1 = 32768 then s.repairLine t sd else s).tr t) := by
    split
    · exact s.stays_repairLine hs
    · exact .refl so _
  unfold triggerLine
  dsimp only
  rw [tr_modTr_self]
  exact h.trans (stays_setUnit _ _ hs)

theorem stays_beginCapture (s : State) (i : Nat) (hs : so ≠ sd) : SideStays so (s.tr t) ((s.beginCapture t sd i).tr t) := by
  unfold beginCapture
  refine SideStays.trans ?_ (stays_triggerLine _ hs)
  rw [tr_modTr_self]
  exact (Transport.sideOnly_putSide _ _ _ _ _).stays hs

/-- A capture of one side that begins leaves the other side alone. -/
theorem stays_captureStart (s : State) (i : Nat) (hs : so ≠ sd) : SideStays so (s.tr t) ((s.captureStart t sd i).tr t) := by
  unfold captureStart
  split
  · exact s.stays_beginCapture i hs
  · split
    · exact ((s.stays_repairLines hs _).trans (stays_completeSide _ hs)).trans (stays_beginCapture _ i hs)
    · exact .refl so _

/-! ### The window positions armed -/

theorem stays_modRecord (x : Transport) (i : Nat) (g : SheetRecord → SideRecord) (hs : so ≠ sd) :
    SideStays so x (x.modRecord i fun q => q.setSide sd (g q)) where
  unit := by simp
  pos := rfl
  record := fun {k r} hr => by
    refine ⟨if r.id = i then r.setSide sd (g r) else r, ?_, ?_⟩
    · unfold Transport.record at hr ⊢
      rw [Transport.track_modRecord, Transport.record_map (fun q => by split <;> simp), hr, Option.map_some]
    · split
      · exact SheetRecord.side_setSide_of_ne _ _ hs
      · rfl

theorem stays_armWindowStart (s : State) (i : Nat) (p : Pos) (hs : so ≠ sd) :
    SideStays so (s.tr t) ((s.armWindowStart t i sd p).tr t) := by
  unfold armWindowStart
  split
  · exact .refl so _
  · split
    · split
      · refine SideStays.trans ?_ (stays_captureStart _ i hs)
        rw [tr_modTr_self]
        exact stays_modRecord _ _ _ hs
      · rw [tr_modTr_self]
        exact stays_modRecord _ _ _ hs
    · exact .refl so _

/-- The unit captures for the record from the first line on. -/
theorem activity_beginCapture (s : State) (i : Nat) : (((s.beginCapture t sd i).tr t).unit sd).activity = .capturing i false := by
  have hrep : ∀ v : State, (((v.repairLine t sd).tr t).unit sd).activity = ((v.tr t).unit sd).activity := fun v => by
    cases hc : (v.tr t).capturedRecord sd with
    | none => unfold repairLine; rw [takeLine_none hc]
    | some r =>
      obtain ⟨z, w, h, -⟩ := linesTaken_repairLine hc
      rw [h.tr, Transport.unit_putSide_self, h.activity]
  have htrig : ∀ v : State, (((v.triggerLine t sd).tr t).unit sd).activity = ((v.tr t).unit sd).activity := fun v => by
    unfold triggerLine
    dsimp only
    rw [tr_modTr_self, Transport.unit_setUnit_self]
    split
    · exact hrep v
    · rfl
  unfold beginCapture
  rw [htrig, tr_modTr_self, Transport.unit_setUnit_self]

/-- A window start already passed begins the capture of an idle unit at once (R108). -/
theorem armWindowStart_passed (hr : (s.tr t).record id = some r) (hc : (r.side sd).capture = .waiting)
    (hp : passed p (s.tr t).pos.counter = true) (hu : ((s.tr t).unit sd).activity = .idle) :
    (((s.armWindowStart t id sd p).tr t).unit sd).activity = .capturing id false := by
  unfold armWindowStart
  rw [hr]
  dsimp only
  rw [if_pos hc, if_pos hp, captureStart_of_idle, activity_beginCapture]
  rw [tr_modTr_self, Transport.unit_modRecord]
  exact hu

theorem armWindowStart_ahead (h : (s.tr t).Only id r) (hp : (r.side sd).capture = .waiting → passed p (s.tr t).pos.counter = false) :
    s.armWindowStart t id sd p = s.setTr t ((s.tr t).modRecord id (.armStart sd p)) := by
  unfold armWindowStart
  rw [h.1]
  dsimp only
  split
  · next hc =>
    rw [hp hc, if_neg (by decide)]
    refine congrArg (s.setTr t) (h.modRecord_congr ?_)
    unfold SheetRecord.armStart
    rw [if_pos hc]
  · next hc =>
    rw [h.modRecord_self, setTr_self]
    unfold SheetRecord.armStart
    rw [if_neg hc, SheetRecord.setSide_self]

theorem armWindowEnd_ahead (h : (s.tr t).Only id r)
    (hp : (r.side sd).capture = .waiting ∨ (r.side sd).capture = .capturing → passed p (s.tr t).pos.counter = false) :
    s.armWindowEnd t id sd p = s.setTr t ((s.tr t).modRecord id (.armEnd sd p)) := by
  unfold armWindowEnd
  rw [h.1]
  dsimp only
  split
  · next hc =>
    rw [hp hc, if_neg (by decide)]
    refine congrArg (s.setTr t) (h.modRecord_congr ?_)
    unfold SheetRecord.armEnd
    rw [if_pos hc]
  · next hc =>
    rw [h.modRecord_self, setTr_self]
    unfold SheetRecord.armEnd
    rw [if_neg hc, SheetRecord.setSide_self]

end State

end Sys2Proof.Machine
end

/-! PROOFS. The ENTRY trail, the DF lead and the DF trail (01 section 1.4, 04 sections 4.3 to 4.8). -/

section

namespace Sys2Proof.Machine

theorem passed_eq_false {p c : Pos} (h : ¬(1 ≤ fwd p c ∧ fwd p c < 2 ^ 31)) : passed p c = false := by
  unfold passed
  rw [← Bool.decide_and]
  exact decide_eq_false h

theorem passed_eq_true {p c : Pos} (h : 1 ≤ fwd p c ∧ fwd p c < 2 ^ 31) : passed p c = true := by
  unfold passed
  rw [← Bool.decide_and]
  exact decide_eq_true h

namespace Transport

variable {x : Transport} {r : SheetRecord} {latch : Pos}

/-- The gap update of a DF lead, and the run state that it opens unless R lies below the amplitude floor (R72, R74, R75). -/
def gapUpdated (x : Transport) : Transport :=
  { x with dfu := { x.dfu.gapUpdate with
      run := if x.dfu.gapUpdate.reference < 64 * x.cfg.amplitudeFloor then .none else .outside } }

/-- The record of a DF lead, before its window starts are armed. -/
def ledAtDF (x : Transport) (latch : Pos) (q : SheetRecord) : SheetRecord :=
  { q with
    df := q.df.seeLead latch (x.copyOf q.selector).cLMax
    verdict := if x.dfu.gapUpdate.reference < 64 * x.cfg.amplitudeFloor then { q.verdict with ampUnavailable := true }
      else { q.verdict with thresholds := some (thresholdsOf x.dfu.gapUpdate.reference (x.profileOf q.selector).qIn
        (x.profileOf q.selector).qOut) } }

theorem dfLead_fillLead (x : Transport) (r : SheetRecord) (latch : Pos) : (x.fillLead r .df latch).dfLead r.id =
    x.gapUpdated.modRecord r.id (x.ledAtDF latch) := by
  have hcfg : (x.fillLead r .df latch).cfg = x.cfg := rfl
  have hdfu : (x.fillLead r .df latch).dfu = x.dfu := rfl
  have hmap : ∀ f g : SheetRecord → SheetRecord, (∀ q, (f q).id = q.id) →
      (x.track.map fun q => if q.id = r.id then f q else q).map (fun q => if q.id = r.id then g q else q) =
        x.track.map fun q => if q.id = r.id then g (f q) else q := fun f g hf =>
    (congrArg Transport.track (modRecord_modRecord (x := x) (id := r.id) (f := f) (g := g) hf) :)
  unfold dfLead
  rw [hcfg, hdfu]
  unfold gapUpdated
  dsimp only
  by_cases h : x.dfu.gapUpdate.reference < 64 * x.cfg.amplitudeFloor
  · rw [if_pos h, if_pos h]
    unfold ledAtDF
    simp only [if_pos h]
    unfold modRecord fillLead
    dsimp only
    congr 1
    exact hmap _ _ fun q => rfl
  · rw [if_neg h, if_neg h]
    unfold ledAtDF
    simp only [if_neg h]
    unfold modRecord fillLead
    dsimp only
    congr 1
    exact hmap _ _ fun q => rfl

/-- What the verdict of a DF trail rests on is that of the record before the trail latch was filled. -/
theorem decideVerdict_eq (r : SheetRecord) (x : Transport) (trail : Pos) :
    r.decideVerdict x trail = { r with verdict := (r.decideVerdict x trail).verdict } := by
  unfold SheetRecord.decideVerdict SheetRecord.endRun
  cases x.dfu.run with
  | inside p => dsimp only; cases judgeRun x (x.profileOf r.selector) (r.df.lead.getD 0) p trail <;> rfl
  | outside => rfl
  | none => rfl

theorem decideVerdict_fillTrail (x : Transport) (r : SheetRecord) (latch : Pos) :
    ((r.setAt .df ((r.at .df).seeTrail latch)).decideVerdict (x.fillTrail r .df latch) latch).verdict =
      (r.decideVerdict x latch).verdict := by
  rw [decideVerdict_verdict, decideVerdict_verdict]
  have he : (r.setAt .df ((r.at .df).seeTrail latch)).endedRun (x.fillTrail r .df latch) latch = r.endedRun x latch := by
    unfold SheetRecord.endedRun
    rw [show (x.fillTrail r .df latch).dfu = x.dfu from rfl]
    cases x.dfu.run with
    | inside p => dsimp only; rw [endRun_verdict, endRun_verdict]; rfl
    | outside => rfl
    | none => rfl
  rw [he]
  rfl

/-- The record of a DF trail, before its window ends are armed. -/
def trailedAtDF (v : Verdict) (latch : Pos) (q : SheetRecord) : SheetRecord :=
  { q with df := q.df.seeTrail latch, verdict := v, suspect := q.suspect || v.action == .hold }

/-- The run state and the trail exclusion of a DF trail, and the run-on that a HOLD begins (R43, R70, R77). -/
def verdictGiven (x : Transport) (r : SheetRecord) (latch : Pos) : Transport :=
  { x with
    dfu := { x.dfu with run := .none, trailExclusion := 2 }
    runOn := if (r.decideVerdict x latch).verdict.action = .hold ∧ x.runOn = none then some r.id else x.runOn }

/-- The record of a DF trail with its verdict decided, and SUSPECT for a HOLD. -/
def judgedAtDF (x : Transport) (latch : Pos) (q : SheetRecord) : SheetRecord :=
  if (q.decideVerdict x latch).verdict.action = .hold then { q.decideVerdict x latch with suspect := true }
  else q.decideVerdict x latch

/-- A DF trail after its verdict, the run-on not yet begun. -/
def judged (x : Transport) (id : Nat) (latch : Pos) : Transport :=
  { x.modRecord id (x.judgedAtDF latch) with dfu := { x.dfu with run := .none, trailExclusion := 2 } }

theorem dfTrail_eq {id : Nat} {q : SheetRecord} (h : (x.judged id latch).record id = some q) :
    x.dfTrail id latch = { x.judged id latch with
      runOn := if q.verdict.action = .hold ∧ x.runOn = none then some id else x.runOn } := by
  show (match (x.judged id latch).record id with
    | some r => if r.verdict.action = Action.hold ∧ (x.judged id latch).runOn = none then
        { x.judged id latch with runOn := some id } else x.judged id latch
    | none => x.judged id latch) = _
  rw [h]
  show (if q.verdict.action = .hold ∧ x.runOn = none then _ else _) = _
  split <;> rfl

theorem judgedAtDF_fillTrail (x : Transport) (r : SheetRecord) (latch : Pos) :
    (x.fillTrail r .df latch).judgedAtDF latch (r.setAt .df ((r.at .df).seeTrail latch)) =
      trailedAtDF (r.decideVerdict x latch).verdict latch r := by
  unfold judgedAtDF
  rw [decideVerdict_eq, decideVerdict_fillTrail]
  unfold trailedAtDF
  dsimp only
  split
  · next h => rw [h, show (Action.hold == Action.hold) = true from rfl, Bool.or_true]; rfl
  · next h => rw [beq_eq_false_iff_ne.mpr h, Bool.or_false]; rfl

theorem dfTrail_fillTrail (h : x.Only r.id r) : (x.fillTrail r .df latch).dfTrail r.id latch =
    (x.verdictGiven r latch).modRecord r.id (trailedAtDF (r.decideVerdict x latch).verdict latch) := by
  have hseen : (x.fillTrail r .df latch).Only r.id (r.setAt .df ((r.at .df).seeTrail latch)) :=
    h.modRecord fun _ => rfl
  have hid : ∀ q, ((x.fillTrail r .df latch).judgedAtDF latch q).id = q.id := fun q => by
    unfold judgedAtDF
    rw [decideVerdict_eq]
    split <;> rfl
  have htr : (x.fillTrail r .df latch).modRecord r.id ((x.fillTrail r .df latch).judgedAtDF latch) =
      x.modRecord r.id (trailedAtDF (r.decideVerdict x latch).verdict latch) := by
    have hj := judgedAtDF_fillTrail x r latch
    exact (modRecord_modRecord (f := fun q => q.setAt .df ((q.at .df).seeTrail latch)) fun _ => rfl).trans (h.modRecord_congr
      (f := fun q => (x.fillTrail r .df latch).judgedAtDF latch (q.setAt .df ((q.at .df).seeTrail latch))) hj)
  have hrec : ((x.fillTrail r .df latch).judged r.id latch).record r.id =
      some (trailedAtDF (r.decideVerdict x latch).verdict latch r) :=
    (record_modRecord hid hseen.1).trans (congrArg some (judgedAtDF_fillTrail x r latch))
  rw [dfTrail_eq hrec]
  unfold judged
  rw [htr]
  rfl

end Transport

namespace State

variable {s : State} {t : TransportNo} {r : SheetRecord} {latch : Pos}

theorem armWindowStart_setTr {x : Transport} {id : Nat} {sd : Side} {p : Pos} (h : x.Only id r)
    (hp : (r.side sd).capture = .waiting → passed p x.pos.counter = false) :
    (s.setTr t x).armWindowStart t id sd p = s.setTr t (x.modRecord id (.armStart sd p)) := by
  rw [armWindowStart_ahead (r := r) (by rw [tr_setTr_self]; exact h) (by rw [tr_setTr_self]; exact hp), tr_setTr_self, setTr_setTr]

theorem armWindowEnd_setTr {x : Transport} {id : Nat} {sd : Side} {p : Pos} (h : x.Only id r)
    (hp : (r.side sd).capture = .waiting ∨ (r.side sd).capture = .capturing → passed p x.pos.counter = false) :
    (s.setTr t x).armWindowEnd t id sd p = s.setTr t (x.modRecord id (.armEnd sd p)) := by
  rw [armWindowEnd_ahead (r := r) (by rw [tr_setTr_self]; exact h) (by rw [tr_setTr_self]; exact hp), tr_setTr_self, setTr_setTr]

theorem dfLeadSeen_eq (s : State) (t : TransportNo) (r : SheetRecord) (latch : Pos) : s.dfLeadSeen t r latch =
    ((s.setTr t ((s.tr t).gapUpdated.modRecord r.id ((s.tr t).ledAtDF latch))).armWindowStart t r.id .front
      (posPlus latch ((s.tr t).cfg.cameraDistance .front))).armWindowStart t r.id .back
        (posPlus latch ((s.tr t).cfg.cameraDistance .back)) := by
  rw [← Transport.dfLead_fillLead]
  rfl

theorem dfTrailSeen_eq (h : (s.tr t).Only r.id r) : s.dfTrailSeen t r latch =
    ((s.setTr t (((s.tr t).verdictGiven r latch).modRecord r.id
      (Transport.trailedAtDF (r.decideVerdict (s.tr t) latch).verdict latch))).armWindowEnd t r.id .front
      (posPlus latch ((s.tr t).cfg.cameraDistance .front))).armWindowEnd t r.id .back
        (posPlus latch ((s.tr t).cfg.cameraDistance .back)) := by
  rw [← Transport.dfTrail_fillTrail h]
  rfl

/-- A DF lead where no window start is passed already (R108). -/
theorem dfLeadSeen_ahead (p : (s.tr t).PageLaw) (hr : r ∈ (s.tr t).track)
    (hb : ∀ sd, (r.side sd).capture = .waiting →
      passed (posPlus latch ((s.tr t).cfg.cameraDistance sd)) (s.tr t).pos.counter = false) :
    s.dfLeadSeen t r latch = s.setTr t ((s.tr t).gapUpdated.modRecord r.id fun q =>
        .armStart .back (posPlus latch ((s.tr t).cfg.cameraDistance .back))
          (.armStart .front (posPlus latch ((s.tr t).cfg.cameraDistance .front)) ((s.tr t).ledAtDF latch q))) := by
  have h0 : (s.tr t).gapUpdated.Only r.id r := p.only hr
  have h1 := h0.modRecord (f := (s.tr t).ledAtDF latch) fun _ => rfl
  have h2 := h1.modRecord (f := .armStart .front (posPlus latch ((s.tr t).cfg.cameraDistance .front))) fun _ => rfl
  rw [dfLeadSeen_eq, armWindowStart_setTr (sd := .front) (p := posPlus latch ((s.tr t).cfg.cameraDistance .front)) h1 (hb .front),
    armWindowStart_setTr (sd := .back) (p := posPlus latch ((s.tr t).cfg.cameraDistance .back)) h2 (hb .back),
    Transport.modRecord_modRecord, Transport.modRecord_modRecord]
  all_goals exact fun _ => rfl

/-- A window start already passed of an idle unit begins the capture with the DF lead (R108). -/
theorem dfLeadSeen_passed {sd : Side} (p : (s.tr t).PageLaw) (hr : r ∈ (s.tr t).track) (hc : (r.side sd).capture = .waiting)
    (hp : passed (posPlus latch ((s.tr t).cfg.cameraDistance sd)) (s.tr t).pos.counter = true)
    (hu : ((s.tr t).unit sd).activity = .idle) :
    (((s.dfLeadSeen t r latch).tr t).unit sd).activity = .capturing r.id false := by
  have h0 : (s.tr t).gapUpdated.Only r.id r := p.only hr
  have h1 := h0.modRecord (f := (s.tr t).ledAtDF latch) fun _ => rfl
  rw [dfLeadSeen_eq]
  have hvt := s.tr_setTr_self t ((s.tr t).gapUpdated.modRecord r.id ((s.tr t).ledAtDF latch))
  set v := s.setTr t ((s.tr t).gapUpdated.modRecord r.id ((s.tr t).ledAtDF latch))
  have hunit : ∀ so, (v.tr t).unit so = (s.tr t).unit so := fun so => by rw [hvt]; cases so <;> rfl
  have hpos : (v.tr t).pos = (s.tr t).pos := by rw [hvt]; rfl
  have hrec : (v.tr t).record r.id = some ((s.tr t).ledAtDF latch r) := by rw [hvt]; exact h1.1
  cases sd with
  | front =>
    rw [((v.armWindowStart t r.id .front _).stays_armWindowStart (so := .front) (sd := .back) r.id _ (by decide)).unit]
    exact armWindowStart_passed hrec hc (by rw [hpos]; exact hp) (by rw [hunit]; exact hu)
  | back =>
    have hst := v.stays_armWindowStart (t := t) (so := .back) (sd := .front) r.id
      (posPlus latch ((s.tr t).cfg.cameraDistance .front)) (by decide)
    obtain ⟨q, hq, hqs⟩ := hst.record hrec
    exact armWindowStart_passed hq (by rw [hqs]; exact hc) (by rw [hst.pos, hpos]; exact hp) (by rw [hst.unit, hunit]; exact hu)

/-- A DF trail where no window end is passed already (R108). -/
theorem dfTrailSeen_ahead (p : (s.tr t).PageLaw) (hr : r ∈ (s.tr t).track)
    (hb : ∀ sd, (r.side sd).capture = .waiting ∨ (r.side sd).capture = .capturing →
      passed (posPlus latch ((s.tr t).cfg.cameraDistance sd)) (s.tr t).pos.counter = false) :
    s.dfTrailSeen t r latch = s.setTr t (((s.tr t).verdictGiven r latch).modRecord r.id fun q =>
        .armEnd .back (posPlus latch ((s.tr t).cfg.cameraDistance .back))
          (.armEnd .front (posPlus latch ((s.tr t).cfg.cameraDistance .front))
            (Transport.trailedAtDF (r.decideVerdict (s.tr t) latch).verdict latch q))) := by
  have h0 : ((s.tr t).verdictGiven r latch).Only r.id r := p.only hr
  have h1 := h0.modRecord (f := Transport.trailedAtDF (r.decideVerdict (s.tr t) latch).verdict latch) fun _ => rfl
  have h2 := h1.modRecord (f := .armEnd .front (posPlus latch ((s.tr t).cfg.cameraDistance .front))) fun _ => rfl
  rw [dfTrailSeen_eq (p.only hr), armWindowEnd_setTr (sd := .front) (p := posPlus latch ((s.tr t).cfg.cameraDistance .front)) h1 (hb .front),
    armWindowEnd_setTr (sd := .back) (p := posPlus latch ((s.tr t).cfg.cameraDistance .back)) h2 (hb .back),
    Transport.modRecord_modRecord, Transport.modRecord_modRecord]
  all_goals exact fun _ => rfl

/-- An ENTRY trail: the latch, and the gap after the record (R37). -/
theorem trailSeen_entry (s : State) (t : TransportNo) (r : SheetRecord) (latch : Pos) : s.trailSeen t r .entry latch =
    s.setTr t ((s.tr t).modRecord r.id fun q =>
      { q with entry := q.entry.seeTrail latch, gap := (s.tr t).gapFrom latch }) :=
  congrArg (s.setTr t) (Transport.modRecord_modRecord (x := s.tr t) (id := r.id)
    (f := fun q => q.setAt .entry ((q.at .entry).seeTrail latch)) (g := fun q => { q with gap := (s.tr t).gapFrom latch })
    fun _ => rfl)

end State

theorem gapFrom_eq_met {x : Transport} {p : Pos}
    (h : x.cfg.gapDistance = 0 ∨ passed (posPlus p x.cfg.gapDistance) x.pos.counter = true) : x.gapFrom p = .met := if_pos h

theorem gapFrom_eq_at {x : Transport} {p : Pos} (h : x.cfg.gapDistance ≠ 0)
    (h' : passed (posPlus p x.cfg.gapDistance) x.pos.counter = false) : x.gapFrom p = .at (posPlus p x.cfg.gapDistance) :=
  if_neg fun g => g.elim h fun g => by rw [h'] at g; cases g

/-- Settles O21. -/
theorem stationEdges : Obligations.StationEdges := by
  intro s t latch ha x w lead trail before leadOf trailOf inWindow late beyond line put
  have hlead : ∀ st, lead st = s.leadEdge t st latch := fun st => State.stationChange_paper ha st latch
  have htrail : ∀ st, trail st = s.trailEdge t st latch := fun st => State.stationChange_noPaper ha st latch
  have howner : ∀ st, st ≠ .entry → x.leadOwner st = leadOf st := fun st hst => by
    cases st with
    | entry => exact absurd rfl hst
    | df => rfl
    | mark => rfl
    | exit => rfl
  have htowner : ∀ st, x.trailOwner st = trailOf st := fun st => by cases st <;> rfl
  have hwin : ∀ (r : SheetRecord) st, st ≠ .entry →
      (fwd (x.leadWindow r st).1 latch ≤ fwd (x.leadWindow r st).1 (x.leadWindow r st).2 ↔ inWindow r st) := fun r st hst => by
    cases st with
    | entry => exact absurd rfl hst
    | df => rfl
    | mark => rfl
    | exit => rfl
  have hmem : ∀ st r, trailOf st = some r → r ∈ x.track := fun st r h => List.mem_of_find?_eq_some h
  refine ⟨fun st => ⟨fun hst h => ?_, fun hst r h hw => ?_, fun h => ?_, fun r h hl => ?_⟩, fun r h hl => ?_, fun r p h hw => ?_,
    fun r p h hl hb => ?_⟩
  · rw [hlead, State.leadEdge_of_none ((howner st hst).trans h)]
    exact State.heldAfter_takeStop ha _
  · rw [hlead, State.leadEdge_of_outside ((howner st hst).trans h) fun g => hw ((hwin r st hst).mp g)]
    exact State.heldAfter_takeStop ha _
  · rw [htrail, State.trailEdge_of_none ((htowner st).trans h)]
    exact State.heldAfter_takeStop ha _
  · rw [htrail, State.trailEdge_of_late ((htowner st).trans h) hl]
    exact State.heldAfter_takeStop ha _
  · intro g
    have he : trail .entry = s.setTr t (x.modRecord r.id fun q =>
        { q with entry := q.entry.seeTrail latch, gap := x.gapFrom latch }) := by
      rw [htrail, State.trailEdge_of_seen ((htowner .entry).trans h) hl]
      exact s.trailSeen_entry t r latch
    refine ⟨fun hg => ?_, fun h0 hb => ?_⟩
    · rw [he, gapFrom_eq_met (hg.imp_right passed_eq_true)]; rfl
    · rw [he, gapFrom_eq_at h0 (passed_eq_false hb)]; rfl
  · have hs : lead .df = s.dfLeadSeen t r latch := by
      rw [hlead, State.leadEdge_of_inside ((howner .df (by decide)).trans h) ((hwin r .df (by decide)).mpr hw)]
      rfl
    have hr : r ∈ x.track := List.mem_of_find?_eq_some h
    refine ⟨fun hb => ?_, fun sd hc hb hu => ?_⟩
    · rw [hs, State.dfLeadSeen_ahead p hr fun sd hc => passed_eq_false (hb sd hc)]
      exact congrArg (s.setTr t) (Transport.Only.modRecord_congr (r := r) (p.only hr) rfl)
    · rw [hs]
      exact State.dfLeadSeen_passed p hr hc (passed_eq_true hb) hu
  · have hs : trail .df = s.dfTrailSeen t r latch := by
      rw [htrail, State.trailEdge_of_seen ((htowner .df).trans h) hl]
      rfl
    have hr : r ∈ x.track := hmem .df r h
    intro v arm
    rw [hs, State.dfTrailSeen_ahead p hr fun sd hc => passed_eq_false (hb sd hc)]
    rfl

end Sys2Proof.Machine
end

/-! PROOFS. The edges at MARK and EXIT (05 section 5.3, 02 section 2.6). -/

section

namespace Sys2Proof.Machine

namespace Transport

variable {x : Transport} {r q : SheetRecord} {id : Nat} {latch : Pos}

/-! ### Mark decisions -/

theorem mem_overrunBehind {l : List SheetRecord} (hq : q ∈ l) :
    ∃ k ∈ overrunBehind id l, k = q ∨ k = { q with overrun := true } := by
  induction l with
  | nil => cases hq
  | cons a rest ih =>
    unfold overrunBehind
    split
    · rcases List.mem_cons.mp hq with rfl | hq
      · exact ⟨_, List.mem_cons_self, .inl rfl⟩
      · exact ⟨_, List.mem_cons_of_mem _ (List.mem_map.mpr ⟨q, hq, rfl⟩), .inr rfl⟩
    · rcases List.mem_cons.mp hq with rfl | hq
      · exact ⟨_, List.mem_cons_self, .inl rfl⟩
      · obtain ⟨k, hk, hkq⟩ := ih hq
        exact ⟨k, List.mem_cons_of_mem _ hk, hkq⟩

theorem endCondition_kept (x : Transport) : x.endCondition.marks = x.marks ∧ x.endCondition.track = x.track := by
  rcases x.endCondition_cases with h | ⟨-, h⟩ <;> rw [h] <;> exact ⟨rfl, rfl⟩

/-- The effects of a decision leave the measurement and each record's MARK latches and result alone. -/
theorem decisionEffects_kept (x : Transport) (id : Nat) (res : MarkResult) : (x.decisionEffects id res).marks = x.marks ∧
    ∀ q ∈ x.track, ∃ k ∈ (x.decisionEffects id res).track, k.id = q.id ∧ k.mark = q.mark ∧ k.markResult = q.markResult := by
  have same : ∀ y : Transport, y.track = x.track →
      ∀ q ∈ x.track, ∃ k ∈ y.track, k.id = q.id ∧ k.mark = q.mark ∧ k.markResult = q.markResult := fun y hy q hq =>
    ⟨q, by rw [hy]; exact hq, rfl, rfl, rfl⟩
  unfold decisionEffects
  split
  · unfold switchDecision
    dsimp only
    split
    · exact ⟨rfl, same _ rfl⟩
    · refine ⟨rfl, fun q hq => ⟨if q.id = id then { q with switchRefused := true } else q, List.mem_map.mpr ⟨q, hq, rfl⟩, ?_⟩⟩
      split <;> exact ⟨rfl, rfl, rfl⟩
  · refine ⟨(endCondition_kept _).1, fun q hq => ?_⟩
    obtain ⟨k, hk, e⟩ := mem_overrunBehind (id := id) hq
    refine ⟨k, by rw [(endCondition_kept _).2]; exact hk, ?_⟩
    rcases e with rfl | rfl <;> exact ⟨rfl, rfl, rfl⟩
  all_goals exact ⟨rfl, same _ rfl⟩

/-- A decision without an effect that acts at once. -/
theorem decisionEffects_eq {res : MarkResult} (hs : res ≠ .divider .switch) (he : res ≠ .divider .endBatch) :
    x.decisionEffects id res = x := by
  unfold decisionEffects
  split <;> first | rfl | exact absurd rfl hs | exact absurd rfl he

/-- The record that is judged gets the result, and the measurement ends. -/
theorem decideMark_record (x : Transport) (hq : q ∈ x.track) (hid : q.id = r.id) (close : Pos) :
    (x.decideMark r close).marks = {} ∧ ∃ k ∈ (x.decideMark r close).track, k.id = r.id ∧ k.mark = q.mark ∧
      k.markResult = judgeMark x (x.profileOf r.selector) close := by
  obtain ⟨hm, ht⟩ := decisionEffects_kept
    ({ x.modRecord r.id fun q => { q with markResult := judgeMark x (x.profileOf r.selector) close } with marks := {} } : Transport)
    r.id (judgeMark x (x.profileOf r.selector) close)
  refine ⟨hm, ?_⟩
  obtain ⟨k, hk, hki, hkm, hkr⟩ := ht { q with markResult := judgeMark x (x.profileOf r.selector) close }
    (List.mem_map.mpr ⟨q, hq, if_pos hid⟩)
  exact ⟨k, hk, hki.trans hid, hkm, hkr⟩

/-! ### The MARK edges -/

theorem markLead_of_off (h : (x.profileOf r.selector).markCheck = false) :
    x.markLead r latch = { x.modRecord r.id fun q => { q with markResult := .noDivider } with marks := {} } := by
  unfold markLead
  rw [h, if_neg (by decide)]

/-- The measurement of a MARK lead with mark check ON. -/
def marked (x : Transport) (r : SheetRecord) (latch : Pos) : Transport :=
  { x with marks := { x.marks with measurement := .opened r.id, lead := some latch,
                                   windowEnd := .at (posPlus latch (x.copyOf r.selector).cMarkWindow) } }

/-- A MARK lead whose window end lies ahead opens the measurement. -/
theorem markLead_of_ahead (h : (x.profileOf r.selector).markCheck = true)
    (hp : passed (posPlus latch (x.copyOf r.selector).cMarkWindow) x.pos.counter = false) :
    x.markLead r latch = x.marked r latch := by
  unfold markLead
  rw [if_pos h, hp]
  rfl

theorem markLead_of_passed (h : (x.profileOf r.selector).markCheck = true)
    (hp : passed (posPlus latch (x.copyOf r.selector).cMarkWindow) x.pos.counter = true) :
    x.markLead r latch = (x.marked r latch).markWindowExpired := by
  unfold markLead
  rw [if_pos h, hp]
  rfl

/-- A MARK trail closes an OPEN measurement at the trail or at the window end, whichever is first (R95). -/
theorem markTrail_of_open (h : x.marks.measurement = .opened r.id) : x.markTrail r latch = x.decideMark r
    (if fwd (x.marks.lead.getD 0) latch ≤ fwd (x.marks.lead.getD 0) (x.markWindowEndPos r) then latch
      else x.markWindowEndPos r) := by
  unfold markTrail within
  rw [if_pos h]
  simp only [decide_eq_true_eq]

theorem markTrail_of_other (h : x.marks.measurement ≠ .opened r.id) : x.markTrail r latch = x := by
  unfold markTrail
  rw [if_neg h]

/-- A window end already passed at the MARK lead judges the measurement at once (R93). -/
theorem markWindowExpired_marked (hq : x.record r.id = some q) (hs : q.selector = r.selector) :
    (x.marked r latch).markWindowExpired =
      (x.marked r latch).decideMark q (posPlus latch (x.copyOf r.selector).cMarkWindow) := by
  have hm : (x.marked r latch).marks.measurement = .opened r.id := rfl
  unfold markWindowExpired
  rw [hm]
  dsimp only
  rw [show (x.marked r latch).record r.id = some q from hq]
  dsimp only
  rw [← hs]
  rfl

end Transport

namespace State

variable {s : State} {t : TransportNo} {r : SheetRecord} {latch : Pos}

/-! ### The SUSPECT stop -/

/-- The record of an EXIT trail, PARKED as the offender of the run-on. -/
def parked (s : State) (t : TransportNo) (r : SheetRecord) (latch : Pos) : State :=
  s.setTr t ((s.tr t).modRecord r.id fun q => { q with exit := q.exit.seeTrail latch, life := .parked })

theorem exitTrail_of_offender (h : (s.tr t).runOn = some r.id) : s.exitTrail t r latch = (s.parked t r latch).takeStop t .suspect := by
  unfold exitTrail
  dsimp only
  rw [if_pos h, modTr_modTr]
  refine congrArg (fun y => (s.setTr t y).takeStop t .suspect) ?_
  exact Transport.modRecord_modRecord (f := fun q => q.setAt .exit ((q.at .exit).seeTrail latch)) fun _ => rfl

theorem exitTrail_of_other (h : (s.tr t).runOn ≠ some r.id) : s.exitTrail t r latch =
    s.setTr t ((s.tr t).modRecord r.id fun q => { q with exit := q.exit.seeTrail latch, life := .done }) := by
  unfold exitTrail
  dsimp only
  rw [if_neg h, modTr_modTr]
  refine congrArg (s.setTr t) ?_
  exact Transport.modRecord_modRecord (f := fun q => q.setAt .exit ((q.at .exit).seeTrail latch)) fun _ => rfl

/-- After a stop no unit is left inside the window of a record's side, but where the window end was passed and is to be taken. -/
theorem insideWindow_takeStop {sd : Side} {reason : StopReason} (ha : (s.tr t).isActive = true) (hp : (s.tr t).PageLaw)
    (hr : r ∈ (s.tr t).track) (hl : r.life = .done ∨ r.life = .parked)
    (h : (((s.takeStop t reason).tr t).unit sd).activity = .capturing r.id false) : (r.side sd).windowEnd = .raised := by
  obtain ⟨a, hs, hunit, -, hu, -⟩ := takeStop_side ha reason sd
  rw [hu] at h
  have hact := (activity_endWindowAtStop h hs).1
  rw [hunit] at hact
  obtain ⟨-, k2, k3⟩ := captures_takeStop ha hp reason hr hl (Transport.stopped_activity hact).1
  by_contra hne
  rw [← hu] at h
  by_cases ho : ((s.tr t).unit sd).trigger = ((s.tr t).unit sd).expected
  · rw [(k3 hne ho).1] at h; cases h
  · rw [k2 hne ho] at h; cases h

/-- The SUSPECT stop leaves the offender PARKED with its verdict and its pages (R44, R58). -/
theorem suspectStop (ha : (s.tr t).isActive = true) (hp : (s.tr t).PageLaw) (hr : r ∈ (s.tr t).track) :
    let u := (s.parked t r latch).takeStop t .suspect
    s.HeldAfter u t .suspect ∧
      (∀ sd, ((u.tr t).unit sd).activity = .capturing r.id false → (r.side sd).windowEnd = .raised) ∧
      ∃ q ∈ (u.tr t).track, q.id = r.id ∧ q.life = .parked ∧ q.exit.trail = some latch ∧ q.verdict = r.verdict ∧
        q.suspect = r.suspect ∧ q.pages = r.pages := by
  intro u
  have htr : (s.parked t r latch).tr t = (s.tr t).modRecord r.id fun q => { q with exit := q.exit.seeTrail latch, life := .parked } :=
    s.tr_setTr_self t _
  have hap : ((s.parked t r latch).tr t).isActive = true := by rw [htr]; exact ha
  have hpp : ((s.parked t r latch).tr t).PageLaw := by
    rw [htr]
    exact ((s.tr t).safe_modRecord_mild r.id fun q => { life := fun h => by cases h }).pageLaw hp
  have hmem : ({ r with exit := r.exit.seeTrail latch, life := .parked } : SheetRecord) ∈ ((s.parked t r latch).tr t).track := by
    rw [htr]
    exact List.mem_map.mpr ⟨r, hr, if_pos rfl⟩
  refine ⟨(heldAfter_takeStop hap .suspect).of_eq (by rw [htr]; rfl) (by rw [htr]; rfl), fun sd h => ?_, ?_⟩
  · have := insideWindow_takeStop hap hpp hmem (.inr rfl) h
    cases sd <;> exact this
  · obtain ⟨q, hq, hs, hpg⟩ := record_takeStop hap .suspect (Transport.record_stopped .suspect hap hpp hmem (.inr rfl))
    obtain ⟨hm, hid⟩ := Transport.mem_of_record hq
    refine ⟨q, hm, hid, (congrArg SheetRecord.life hs :), (congrArg (fun q : SheetRecord => q.exit.trail) hs :),
      (congrArg SheetRecord.verdict hs :), (congrArg SheetRecord.suspect hs :), hpg⟩

end State

/-- Settles O22. -/
theorem markAndExitEdges : Obligations.MarkAndExitEdges := by
  intro s t latch r ha hp x k leadSeen trailSeen put inWindow late
  have hsel : x.profileOf r.selector = k.profile := rfl
  refine ⟨fun h hw => ?_, fun h hl => ?_, fun h hw => ?_, fun h hl => ?_⟩
  · intro u e isPassed
    have hr : r ∈ x.track := List.mem_of_find?_eq_some h
    have hu : u = s.modTr t fun x => (x.fillLead r .mark latch).markLead r latch :=
      (State.stationChange_paper ha .mark latch).trans (State.leadEdge_of_inside (st := .mark) h hw)
    have hfill : x.fillLead r .mark latch = x.modRecord r.id fun q => { q with mark := leadSeen q.mark } :=
      (hp.only hr).modRecord_congr rfl
    have hon : (x.fillLead r .mark latch).Only r.id { r with mark := leadSeen r.mark } := by
      rw [hfill]
      exact (hp.only hr).modRecord fun _ => rfl
    refine ⟨fun hc => ?_, fun hc hpas => ?_, fun hc hpas => ?_⟩
    · rw [hu]
      refine congrArg (s.setTr t) ((Transport.markLead_of_off (x := x.fillLead r .mark latch) hc).trans ?_)
      rw [hfill, Transport.modRecord_modRecord]
      · rfl
      · exact fun _ => rfl
    · rw [hu]
      refine congrArg (s.setTr t)
        ((Transport.markLead_of_ahead (x := x.fillLead r .mark latch) hc (passed_eq_false hpas)).trans ?_)
      rw [hfill]
      rfl
    · have he : u.tr t = ((x.fillLead r .mark latch).marked r latch).decideMark { r with mark := leadSeen r.mark } e := by
        rw [hu, State.tr_modTr_self]
        exact (Transport.markLead_of_passed (x := x.fillLead r .mark latch) hc (passed_eq_true hpas)).trans
          (Transport.markWindowExpired_marked hon.1 rfl)
      rw [he]
      exact Transport.decideMark_record (r := { r with mark := leadSeen r.mark }) ((x.fillLead r .mark latch).marked r latch)
        (Transport.mem_of_record hon.1).1 rfl e
  · intro u m e res
    have hr : r ∈ x.track := List.mem_of_find?_eq_some h
    have hfind : x.trailOwner .mark = some r := by
      rw [← h]
      rfl
    have hu : u = s.modTr t fun x => (x.fillTrail r .mark latch).markTrail r latch :=
      (State.stationChange_noPaper ha .mark latch).trans (State.trailEdge_of_seen (st := .mark) hfind hl)
    have hmem : ({ r with mark := trailSeen r.mark } : SheetRecord) ∈ (x.fillTrail r .mark latch).track :=
      List.mem_map.mpr ⟨r, hr, if_pos rfl⟩
    have hdec : x.marks.measurement = .opened r.id → (x.fillTrail r .mark latch).markTrail r latch =
        (x.fillTrail r .mark latch).decideMark r (if fwd m latch ≤ fwd m e then latch else e) := fun ho =>
      Transport.markTrail_of_open (x := x.fillTrail r .mark latch) ho
    have hres : judgeMark (x.fillTrail r .mark latch) ((x.fillTrail r .mark latch).profileOf r.selector)
        (if fwd m latch ≤ fwd m e then latch else e) = res := rfl
    refine ⟨fun ho => ?_, fun ho => ?_⟩
    · rw [hu]
      exact congrArg (s.setTr t) (Transport.markTrail_of_other (x := x.fillTrail r .mark latch) ho)
    · obtain ⟨hm, q, hq, hqi, hqm, hqr⟩ := Transport.decideMark_record (x.fillTrail r .mark latch) hmem (r := r) rfl
        (if fwd m latch ≤ fwd m e then latch else e)
      have htr : u.tr t = (x.fillTrail r .mark latch).decideMark r (if fwd m latch ≤ fwd m e then latch else e) := by
        rw [hu, State.tr_modTr_self]
        exact hdec ho
      rw [htr]
      refine ⟨hm, ⟨q, hq, hqi, hqm, hqr⟩, fun h1 h2 => ?_⟩
      rw [hu]
      refine congrArg (s.setTr t) ((hdec ho).trans ?_)
      unfold Transport.decideMark
      rw [hres]
      dsimp only
      rw [Transport.decisionEffects_eq h1 h2]
      unfold Transport.fillTrail
      rw [Transport.modRecord_modRecord]
      · rfl
      · exact fun _ => rfl
  · have hr : r ∈ x.track := List.mem_of_find?_eq_some h
    refine (State.stationChange_paper ha .exit latch).trans ((State.leadEdge_of_inside (st := .exit) h hw).trans ?_)
    exact congrArg (s.setTr t) ((hp.only hr).modRecord_congr (f := fun q => q.setAt .exit ((q.at .exit).seeLead latch
      (x.copyOf q.selector).cLMax)) rfl)
  · intro u
    have hr : r ∈ x.track := List.mem_of_find?_eq_some h
    have hfind : x.trailOwner .exit = some r := by
      rw [← h]
      rfl
    have hu : u = s.exitTrail t r latch :=
      (State.stationChange_noPaper ha .exit latch).trans (State.trailEdge_of_seen (st := .exit) hfind hl)
    refine ⟨fun ho => ?_, fun ho => ?_⟩
    · rw [hu, State.exitTrail_of_other ho]
      rfl
    · rw [hu, State.exitTrail_of_offender ho]
      exact State.suspectStop ha hp hr

end Sys2Proof.Machine
end

/-! PROOFS. A hold timer that runs out (01 section 1.3): the change accepted, what it held back, and the levels after it. -/

section

namespace Sys2Proof.Machine

/-! ### The sensors of a Position Unit -/

theorem PositionUnit.sensor_setSensor_self (p : PositionUnit) (sn : Sensor) (c : SensorState) : (p.setSensor sn c).sensor sn = c := by
  cases sn with
  | station st => cases st <;> rfl
  | trayEmpty => rfl
  | coverOpen => rfl

theorem PositionUnit.sensor_setSensor_of_ne (p : PositionUnit) {sn sm : Sensor} (c : SensorState) (h : sm ≠ sn) :
    (p.setSensor sn c).sensor sm = p.sensor sm := by
  rcases sn with (_ | _ | _ | _) | _ | _ <;> rcases sm with (_ | _ | _ | _) | _ | _ <;> first | rfl | exact absurd rfl h

theorem PositionUnit.setSensor_setSensor (p : PositionUnit) (sn : Sensor) (c d : SensorState) :
    (p.setSensor sn c).setSensor sn d = p.setSensor sn d := by
  rcases sn with (_ | _ | _ | _) | _ | _ <;> rfl

theorem PositionUnit.counter_setSensor (p : PositionUnit) (sn : Sensor) (c : SensorState) :
    (p.setSensor sn c).counter = p.counter := by
  rcases sn with (_ | _ | _ | _) | _ | _ <;> rfl

theorem PositionUnit.sensor_of_keeps {p q : PositionUnit} (h : { q with stallTimer := none } = { p with stallTimer := none })
    (sm : Sensor) : q.sensor sm = p.sensor sm := by
  have hs := congrArg (fun k : PositionUnit => k.sensor sm) h
  rcases sm with (_ | _ | _ | _) | _ | _ <;> exact hs

namespace State

variable {s u v : State} {t : TransportNo} {sn : Sensor} {st : Station} {p : PendingChange}

/-! ### The change accepted -/

/-- The sensor's debounced level at its raw level with nothing pending, and the measurement as given. -/
def settled (s : State) (t : TransportNo) (sn : Sensor) (m : MarkUnit) : State :=
  s.setTr t { s.tr t with
    pos := (s.tr t).pos.setSensor sn
      { raw := ((s.tr t).pos.sensor sn).raw, level := ((s.tr t).pos.sensor sn).raw, pending := none }
    marks := m }

theorem acceptChange_of_none (h : ((s.tr t).pos.sensor sn).pending = none) : s.acceptChange t sn = s := by
  unfold acceptChange
  dsimp only
  rw [h]

/-- A change that stays is delivered with its latch (R7). -/
theorem acceptChange_of_change (h : ((s.tr t).pos.sensor sn).pending = some p)
    (hr : ((s.tr t).pos.sensor sn).raw ≠ ((s.tr t).pos.sensor sn).level) :
    s.acceptChange t sn = (s.settled t sn (s.tr t).marks).deliver t sn ((s.tr t).pos.sensor sn).raw p.latch := by
  unfold acceptChange
  dsimp only
  rw [h]
  exact if_pos hr

/-- A glitch is dropped, at MARK with a PROVISIONAL measurement (R6, R97). -/
theorem acceptChange_of_glitch (h : ((s.tr t).pos.sensor sn).pending = some p)
    (hr : ((s.tr t).pos.sensor sn).raw = ((s.tr t).pos.sensor sn).level) :
    s.acceptChange t sn = s.settled t sn
      (if sn = .station .mark ∧ (s.tr t).marks.measurement = .provisional then {} else (s.tr t).marks) := by
  unfold acceptChange
  dsimp only
  rw [h]
  dsimp only
  rw [if_neg (not_not.mpr hr)]
  by_cases hm : sn = .station .mark
  · rw [if_pos hm, modTr_modTr]
    refine congrArg (s.setTr t) ?_
    unfold Transport.dropProvisional
    by_cases hp : (s.tr t).marks.measurement = .provisional
    · rw [if_pos ⟨hm, hp⟩]; exact if_pos hp
    · rw [if_neg fun g => hp g.2]; exact if_neg hp
  · rw [if_neg hm, if_neg fun g => hm g.1]
    rfl

/-! ### What it held back -/

theorem ifActive_of_active (h : (s.tr t).isActive = true) (f : State → State) : s.ifActive t f = f s := if_pos h

theorem ifActive_of_not (h : ¬(s.tr t).isActive = true) (f : State → State) : s.ifActive t f = s := if_neg h

/-- The mark window end taken where it is due. -/
def markTaken (s : State) (t : TransportNo) (st : Station) : State :=
  s.ifActive t fun s => if st = .mark then s.takeMarkExpiry t else s

theorem markTaken_of_due (ha : (s.tr t).isActive = true) (hm : st = .mark) (hw : (s.tr t).marks.windowEnd = .raised) :
    s.markTaken t st = s.setTr t (s.tr t).markWindowExpired := by
  unfold markTaken
  rw [ifActive_of_active ha, if_pos hm]
  unfold takeMarkExpiry
  rw [if_pos hw]
  rfl

theorem markTaken_of_not (h : ¬((s.tr t).isActive = true ∧ st = .mark ∧ (s.tr t).marks.windowEnd = .raised)) :
    s.markTaken t st = s := by
  unfold markTaken
  by_cases ha : (s.tr t).isActive = true
  · rw [ifActive_of_active ha]
    split
    · next hm =>
      unfold takeMarkExpiry
      rw [if_neg fun hw => h ⟨ha, hm, hw⟩]
    · rfl
  · rw [ifActive_of_not ha]

/-- A position of a record at a station that was passed is to be taken. -/
def Due (s : State) (t : TransportNo) (f : SheetRecord → Armed) : Prop :=
  (s.tr t).isActive ∧ ∃ r ∈ (s.tr t).track, r.life ≠ .withdrawn ∧ f r = .raised

theorem takeTrailExpiry_of_due (h : s.Due t fun r => (r.at st).trailEnd) :
    (s.ifActive t fun s => s.takeTrailExpiry t st) = s.takeStop t .trailLate := by
  rw [ifActive_of_active h.1]
  obtain ⟨r, hr⟩ := Option.isSome_iff_exists.mp (lateTrail_isSome.mpr h.2)
  unfold takeTrailExpiry
  rw [hr]

theorem takeTrailExpiry_of_not (h : ¬s.Due t fun r => (r.at st).trailEnd) : (s.ifActive t fun s => s.takeTrailExpiry t st) = s := by
  by_cases ha : (s.tr t).isActive = true
  · rw [ifActive_of_active ha]
    unfold takeTrailExpiry
    cases hl : (s.tr t).lateTrail st with
    | none => rfl
    | some r => exact absurd ⟨ha, lateTrail_isSome.mp (by rw [hl]; rfl)⟩ h
  · rw [ifActive_of_not ha]

theorem takeLeadExpiry_of_not (h : ¬s.Due t fun r => (r.at st).leadEnd) : (s.ifActive t fun s => s.takeLeadExpiry t st) = s := by
  by_cases ha : (s.tr t).isActive = true
  · rw [ifActive_of_active ha]
    unfold takeLeadExpiry
    cases hl : (s.tr t).lateLead st with
    | none => rfl
    | some r => exact absurd ⟨ha, lateLead_isSome.mp (by rw [hl]; rfl)⟩ h
  · rw [ifActive_of_not ha]

theorem takeLeadExpiry_of_due (h : s.Due t fun r => (r.at st).leadEnd) (hst : st ≠ .entry) :
    (s.ifActive t fun s => s.takeLeadExpiry t st) = s.takeStop t .jamLate := by
  rw [ifActive_of_active h.1]
  obtain ⟨r, hr⟩ := Option.isSome_iff_exists.mp (lateLead_isSome.mpr h.2)
  unfold takeLeadExpiry
  rw [hr]
  exact if_neg hst

/-- At ENTRY the oldest record whose window end was passed is a pick miss. -/
theorem takeLeadExpiry_of_entry (h : s.Due t fun r => (r.at .entry).leadEnd) : ∃ ahead r behind,
    (s.tr t).track = ahead ++ r :: behind ∧ r.life ≠ .withdrawn ∧ r.entry.leadEnd = .raised ∧
    (∀ o ∈ ahead, o.life = .withdrawn ∨ o.entry.leadEnd ≠ .raised) ∧
    (s.ifActive t fun s => s.takeLeadExpiry t .entry) = s.pickMissed t r := by
  rw [ifActive_of_active h.1]
  obtain ⟨r, hr⟩ := Option.isSome_iff_exists.mp (lateLead_isSome.mpr h.2)
  obtain ⟨hp, ahead, behind, htr, hah⟩ := List.find?_eq_some_iff_append.mp hr
  refine ⟨ahead, r, behind, htr, ?_, ?_, fun o ho => ?_, ?_⟩
  · simp at hp; exact hp.1
  · simp at hp; exact hp.2
  · have := hah o ho
    simp at this
    exact this
  · unfold takeLeadExpiry
    rw [hr]
    rfl

theorem resolveStep_station (s before : State) (t : TransportNo) (st : Station) :
    let a := s.acceptChange t (.station st)
    let m := a.markTaken t st
    let q := m.ifActive t fun s => s.takeTrailExpiry t st
    let l := q.ifActive t fun s => s.takeLeadExpiry t st
    s.resolveStep before t (.station st) = l.finishVia before [a, m, q] [] := rfl

theorem resolveStep_other (before : State) (h : heldSteps t sn = []) :
    s.resolveStep before t sn = (s.acceptChange t sn).finish before [] := by
  unfold resolveStep resolve resolution
  rw [h]
  rfl

/-! ### A step that goes through the same state again -/

theorem controlChanged_self (x : Transport) : x.controlChanged x = false := by simp [Transport.controlChanged]

theorem requestsOf_same (t : TransportNo) (before a x y z : State) (forced : List TransportNo) :
    requestsOf t before ([a, a, a] ++ [a, x, y, z]) forced = requestsOf t before ([] ++ [a, x, y, z]) forced := by
  simp [requestsOf, controlChanges, controlChanged_self, one]

theorem requestReports_congr {path path' : List State} {forced : List TransportNo} (s before : State)
    (h : ∀ t, requestsOf t before path forced = requestsOf t before path' forced) :
    s.requestReports before path forced = s.requestReports before path' forced := by
  unfold requestReports
  simp only [h]

theorem finishVia_eq (a before : State) (path : List State) (forced : List TransportNo) : a.finishVia before path forced =
    a.settleStage.drainStage.closeStage.requestReports before
      (path ++ [a, a.settleStage, a.settleStage.drainStage, a.settleStage.drainStage.closeStage]) forced := rfl

theorem finishVia_same (a before : State) : a.finishVia before [a, a, a] [] = a.finish before [] := by
  unfold finish
  rw [finishVia_eq, finishVia_eq]
  exact requestReports_congr _ before fun t => requestsOf_same t before a _ _ _ []

/-- Nothing is held back at a station. -/
def Free (a : State) (t : TransportNo) (st : Station) : Prop := ¬(a.tr t).isActive ∨ ((a.tr t).marks.windowEnd ≠ .raised ∧
  ∀ r ∈ (a.tr t).track, (r.at st).leadEnd ≠ .raised ∧ (r.at st).trailEnd ≠ .raised)

theorem resolveStep_free {a : State} (before : State) (he : s.acceptChange t (.station st) = a) (h : a.Free t st) :
    s.resolveStep before t (.station st) = a.finish before [] := by
  have hm : a.markTaken t st = a := markTaken_of_not fun g => h.elim (fun n => n g.1) fun n => n.1 g.2.2
  have hq : (a.ifActive t fun s => s.takeTrailExpiry t st) = a := takeTrailExpiry_of_not fun ⟨ga, r, hr, _, hx⟩ =>
    h.elim (fun n => n ga) fun n => (n.2 r hr).2 hx
  have hl : (a.ifActive t fun s => s.takeLeadExpiry t st) = a := takeLeadExpiry_of_not fun ⟨ga, r, hr, _, hx⟩ =>
    h.elim (fun n => n ga) fun n => (n.2 r hr).1 hx
  have hs := resolveStep_station s before t st
  dsimp only at hs
  rw [he, hm, hq, hl] at hs
  rw [hs, finishVia_same]

/-! ### The levels after it -/

/-- What a step that leaves the positions alone keeps of the sensors, the counter and the setups. -/
theorem Quiet.sensors (h : v.Quiet u) (t : TransportNo) : (∀ sm, (u.tr t).pos.sensor sm = (v.tr t).pos.sensor sm) ∧
    (u.tr t).pos.counter = (v.tr t).pos.counter ∧ ∀ i, (u.tr i).setup = (v.tr i).setup :=
  ⟨PositionUnit.sensor_of_keeps (h.path t).1, (congrArg PositionUnit.counter (h.path t).1 :), fun i => (h.path i).2⟩

theorem quiet_acceptChange (h : ((s.tr t).pos.sensor sn).pending = some p) :
    (s.settled t sn (s.tr t).marks).Quiet (s.acceptChange t sn) := by
  by_cases hr : ((s.tr t).pos.sensor sn).raw = ((s.tr t).pos.sensor sn).level
  · rw [acceptChange_of_glitch h hr]
    refine ⟨rfl, rfl, rfl, rfl, fun i => ?_⟩
    unfold settled
    rw [tr_setTr, tr_setTr]
    split <;> exact ⟨rfl, rfl⟩
  · rw [acceptChange_of_change h hr]
    exact quiet_deliver _ _ _ _ _

theorem quiet_resolveStep (h : ((s.tr t).pos.sensor sn).pending = some p) (before : State) :
    (s.settled t sn (s.tr t).marks).Quiet (s.resolveStep before t sn) := by
  refine Quiet.trans ?_ (quiet_finishVia _ _ _ _)
  exact resolution_induction t sn (P := fun v => (s.settled t sn (s.tr t).marks).Quiet v) (quiet_acceptChange h)
    fun f hf v hv => hv.trans (quiet_heldSteps t sn f hf v)

/-- The levels after a resolution, and what it leaves alone (R6). -/
theorem resolveStep_levels (h : ((s.tr t).pos.sensor sn).pending = some p) (before : State) :
    let u := s.resolveStep before t sn
    (u.tr t).pos.sensor sn =
      { raw := ((s.tr t).pos.sensor sn).raw, level := ((s.tr t).pos.sensor sn).raw, pending := none } ∧
    (∀ sm, sm ≠ sn → (u.tr t).pos.sensor sm = (s.tr t).pos.sensor sm) ∧ (u.tr t).pos.counter = (s.tr t).pos.counter ∧
    (∀ i, (u.tr i).setup = (s.tr i).setup) ∧ u.hostMem = s.hostMem := by
  intro u
  have q := quiet_resolveStep h before
  obtain ⟨hs, hc, hu⟩ := q.sensors t
  have htr : ((s.settled t sn (s.tr t).marks).tr t).pos = (s.tr t).pos.setSensor sn
      { raw := ((s.tr t).pos.sensor sn).raw, level := ((s.tr t).pos.sensor sn).raw, pending := none } := by
    unfold settled
    rw [tr_setTr_self]
  refine ⟨?_, fun sm hne => ?_, ?_, fun i => ?_, q.hostMem⟩
  · rw [hs, htr, PositionUnit.sensor_setSensor_self]
  · rw [hs, htr, PositionUnit.sensor_setSensor_of_ne _ _ hne]
  · rw [hc, htr, PositionUnit.counter_setSensor]
  · rw [hu]
    unfold settled
    rw [tr_setTr]
    split
    · next e => rw [e]
    · rfl

end State
end Sys2Proof.Machine
end

/-! PROOFS. What an accepted change does: the statement about a hold timer that runs out. -/

section

namespace Sys2Proof.Machine

namespace State

variable {s u v : State} {t : TransportNo} {sn : Sensor} {st : Station} {p : PendingChange}

/-- The steps of a resolution at a station, each as it is due (R6, R12, R13, R95). -/
theorem resolveStep_steps (s before : State) (t : TransportNo) (st : Station) :
    ∃ a m q l : State, s.resolveStep before t (.station st) = l.finishVia before [a, m, q] [] ∧
      a = s.acceptChange t (.station st) ∧
      (((a.tr t).isActive ∧ st = .mark ∧ (a.tr t).marks.windowEnd = .raised → m = a.setTr t (a.tr t).markWindowExpired) ∧
        (¬((a.tr t).isActive ∧ st = .mark ∧ (a.tr t).marks.windowEnd = .raised) → m = a)) ∧
      ((m.Due t (fun r => (r.at st).trailEnd) → q = m.takeStop t .trailLate ∧ m.HeldAfter q t .trailLate) ∧
        (¬m.Due t (fun r => (r.at st).trailEnd) → q = m)) ∧
      (q.Due t (fun r => (r.at st).leadEnd) → st ≠ .entry → l = q.takeStop t .jamLate ∧ q.HeldAfter l t .jamLate) ∧
      (q.Due t (fun r => (r.at st).leadEnd) → st = .entry → ∃ ahead r behind, (q.tr t).track = ahead ++ r :: behind ∧
        r.life ≠ .withdrawn ∧ r.entry.leadEnd = .raised ∧ (∀ o ∈ ahead, o.life = .withdrawn ∨ o.entry.leadEnd ≠ .raised) ∧
        l = q.pickMissed t r) ∧
      (¬q.Due t (fun r => (r.at st).leadEnd) → l = q) := by
  refine ⟨_, _, _, _, resolveStep_station s before t st, rfl, ⟨fun h => ?_, fun h => ?_⟩, ⟨fun h => ?_, fun h => ?_⟩,
    fun h hst => ?_, fun h hst => ?_, fun h => ?_⟩
  · exact markTaken_of_due h.1 h.2.1 h.2.2
  · exact markTaken_of_not h
  · have e := takeTrailExpiry_of_due h
    exact ⟨e, e ▸ heldAfter_takeStop h.1 _⟩
  · exact takeTrailExpiry_of_not h
  · have e := takeLeadExpiry_of_due h hst
    exact ⟨e, e ▸ heldAfter_takeStop h.1 _⟩
  · subst hst
    exact takeLeadExpiry_of_entry h
  · exact takeLeadExpiry_of_not h

/-- With a debounce time of 0 a raw edge resolves the change at once (R6). -/
theorem exec_sensorRawEdge_of_zero (h : (s.tr t).pos.debounce = 0) :
    exec (.sensorRawEdge t sn) s = .next ((s.setTr t ((s.tr t).rawEdge sn)).resolveStep s t sn) := by
  show execSensorRawEdge t sn s = _
  unfold execSensorRawEdge
  exact if_pos h

theorem exec_debounceHoldExpiry (h : ((s.tr t).pos.sensor sn).pending.isSome) :
    exec (.debounceHoldExpiry t sn) s = .next (s.resolveStep s t sn) := if_pos h

/-- A raw edge leaves the raw level the other one, and everything else of the positions but its pending change. -/
theorem rawEdge_levels (x : Transport) (sn : Sensor) : ((x.rawEdge sn).pos.sensor sn).raw = !(x.pos.sensor sn).raw ∧
    (∀ sm, sm ≠ sn → (x.rawEdge sn).pos.sensor sm = x.pos.sensor sm) ∧ (x.rawEdge sn).pos.counter = x.pos.counter ∧
    (x.rawEdge sn).setup = x.setup ∧
    (((x.rawEdge sn).pos.sensor sn).pending = none →
      (x.rawEdge sn).pos.sensor sn = { raw := !(x.pos.sensor sn).raw, level := !(x.pos.sensor sn).raw, pending := none }) := by
  have key : ∀ c : SensorState, c.raw = (!(x.pos.sensor sn).raw) →
      (c.pending = none → c = { raw := !(x.pos.sensor sn).raw, level := !(x.pos.sensor sn).raw, pending := none }) →
      ∀ y : Transport, y.pos = x.pos.setSensor sn c → y.setup = x.setup → (y.pos.sensor sn).raw = (!(x.pos.sensor sn).raw) ∧
        (∀ sm, sm ≠ sn → y.pos.sensor sm = x.pos.sensor sm) ∧ y.pos.counter = x.pos.counter ∧ y.setup = x.setup ∧
        ((y.pos.sensor sn).pending = none →
          y.pos.sensor sn = { raw := !(x.pos.sensor sn).raw, level := !(x.pos.sensor sn).raw, pending := none }) := by
    intro c hc hn y hy hs
    rw [hy, PositionUnit.sensor_setSensor_self]
    exact ⟨hc, fun sm hne => PositionUnit.sensor_setSensor_of_ne _ _ hne, PositionUnit.counter_setSensor _ _ _, hs, hn⟩
  cases hp : (x.pos.sensor sn).pending with
  | some p =>
    rw [Transport.rawEdge_of_pending hp]
    exact key _ rfl (fun h => by cases h) _ rfl rfl
  | none =>
    by_cases hr : (!(x.pos.sensor sn).raw) = (x.pos.sensor sn).level
    · rw [Transport.rawEdge_of_back hp hr]
      refine key _ rfl (fun _ => ?_) _ rfl rfl
      show ({ raw := !(x.pos.sensor sn).raw, level := (x.pos.sensor sn).level, pending := (x.pos.sensor sn).pending } :
        SensorState) = _
      rw [hp, ← hr]
    · rw [Transport.rawEdge_of_change hp hr]
      split
      · refine key { x.pos.sensor sn with
          raw := !(x.pos.sensor sn).raw, pending := some { latch := x.pos.counter, hold := x.pos.debounce } } rfl
          (fun h => by cases h) _ ?_ ?_ <;> (unfold Transport.beginMeasurement; split <;> rfl)
      · exact key _ rfl (fun h => by cases h) _ rfl rfl

/-- The levels after a raw edge that is resolved at once. -/
theorem rawEdge_resolveStep_levels (s : State) (t : TransportNo) (sn : Sensor) :
    let u := (s.setTr t ((s.tr t).rawEdge sn)).resolveStep s t sn
    (u.tr t).pos.sensor sn =
      { raw := !((s.tr t).pos.sensor sn).raw, level := !((s.tr t).pos.sensor sn).raw, pending := none } ∧
    (∀ sm, sm ≠ sn → (u.tr t).pos.sensor sm = (s.tr t).pos.sensor sm) ∧ (u.tr t).pos.counter = (s.tr t).pos.counter ∧
    (∀ i, (u.tr i).setup = (s.tr i).setup) ∧ u.hostMem = s.hostMem := by
  intro u
  obtain ⟨hraw, hne, hc, hset, hnone⟩ := rawEdge_levels (s.tr t) sn
  have hsetup : ∀ i, ((s.setTr t ((s.tr t).rawEdge sn)).tr i).setup = (s.tr i).setup := fun i => by
    rw [tr_setTr]
    split
    · next e => rw [hset, e]
    · rfl
  have htr := s.tr_setTr_self t ((s.tr t).rawEdge sn)
  cases hp : ((s.tr t).rawEdge sn).pos.sensor sn |>.pending with
  | some p =>
    obtain ⟨h1, h2, h3, h4, h5⟩ := resolveStep_levels (s := s.setTr t ((s.tr t).rawEdge sn)) (t := t) (sn := sn) (p := p)
      (by rw [htr]; exact hp) s
    rw [htr] at h1 h3
    refine ⟨h1.trans (by rw [hraw]), fun sm hsm => ?_, h3.trans hc, fun i => (h4 i).trans (hsetup i), h5⟩
    have := h2 sm hsm
    rw [htr] at this
    exact this.trans (hne sm hsm)
  | none =>
    have hq : (s.setTr t ((s.tr t).rawEdge sn)).Quiet u := by
      refine Quiet.trans ?_ (quiet_finishVia _ _ _ _)
      refine resolution_induction t sn (P := fun v => (s.setTr t ((s.tr t).rawEdge sn)).Quiet v) ?_
        fun f hf v hv => hv.trans (quiet_heldSteps t sn f hf v)
      rw [acceptChange_of_none (by rw [htr]; exact hp)]
      exact .refl _
    obtain ⟨g1, g2, g3⟩ := hq.sensors t
    rw [htr] at g2
    refine ⟨?_, fun sm hsm => ?_, g2.trans hc, fun i => (g3 i).trans (hsetup i), hq.hostMem⟩
    · rw [g1, htr]; exact hnone hp
    · rw [g1, htr]; exact hne sm hsm

/-! ### The cover -/

theorem coverChange_stop (ha : (s.tr t).isActive = true) : s.coverChange t true = s.takeStop t .cover := by
  unfold coverChange
  dsimp only
  rw [if_pos rfl, if_pos ha]

theorem coverChange_off (hs : (s.tr t).state = .ready ∨ (s.tr t).state = .paused) :
    s.coverChange t true = s.setTr t (s.tr t).motorOff := by
  have ha : ¬(s.tr t).isActive = true := fun h => by
    rcases (Transport.isActive_iff _).mp h with g | g <;> rcases hs with e | e <;> rw [e] at g <;> cases g
  unfold coverChange
  dsimp only
  rw [if_pos rfl, if_neg ha, if_pos hs]
  rfl

theorem coverChange_still (hs : (s.tr t).state = .off ∨ (s.tr t).state = .held) : s.coverChange t true = s := by
  have ha : ¬(s.tr t).isActive = true := fun h => by
    rcases (Transport.isActive_iff _).mp h with g | g <;> rcases hs with e | e <;> rw [e] at g <;> cases g
  have hn : ¬((s.tr t).state = .ready ∨ (s.tr t).state = .paused) := by rcases hs with e | e <;> rw [e] <;> decide
  unfold coverChange
  dsimp only
  rw [if_pos rfl, if_neg ha, if_neg hn]

theorem coverChange_closed (h : ¬(s.tr t).isActive = true ∨ (s.tr t).coverWait = false) : s.coverChange t false = s := by
  unfold coverChange
  dsimp only
  rw [if_neg (by decide), if_neg]
  rintro g
  rw [Bool.and_eq_true] at g
  rcases h with h | h
  · exact h g.1
  · rw [h] at g; cases g.2

theorem coverChange_start (ha : (s.tr t).isActive = true) (hw : (s.tr t).coverWait = true) :
    s.coverChange t false = s.setTr t (s.tr t).startMotor := by
  unfold coverChange
  dsimp only
  rw [if_neg (by decide), ha, hw]
  rfl

end State

theorem State.OnlyTransport.setTr (s : State) (t : TransportNo) (x : Transport) : s.OnlyTransport (s.setTr t x) t :=
  ⟨fun _ hi => State.tr_setTr_of_ne _ _ hi, rfl⟩

/-- A motor start from STANDING with the cover closed (R31). -/
theorem Transport.startMotor_of_standing {x : Transport} (hm : x.motor = .standing) (hc : x.pos.coverOpen.level = false) :
    x.startMotor = x.startRunIn := by
  unfold startMotor
  rw [hm]
  dsimp only
  rw [hc]
  rfl

theorem Transport.startRunIn_spec (x : Transport) : x.startRunIn.coverWait = false ∧ x.startRunIn.state = x.state ∧
    x.startRunIn.pos.stallTimer = some x.cfg.stallTime ∧ (x.cfg.runInDistance = 0 → x.startRunIn.motor = .driving) ∧
    (x.cfg.runInDistance ≠ 0 → x.startRunIn.motor = .runIn ∧
      x.startRunIn.runInEnd = .at (x.pos.counter + BitVec.ofNat 32 x.cfg.runInDistance)) := by
  unfold startRunIn
  dsimp only
  split
  · next h => exact ⟨rfl, rfl, rfl, fun _ => rfl, fun g => absurd h g⟩
  · next h => exact ⟨rfl, rfl, rfl, fun g => absurd g h, fun _ => ⟨rfl, rfl⟩⟩

theorem Transport.motorOff_spec (x : Transport) : x.motorOff.motor = .standing ∧ x.motorOff.clutch = false ∧
    x.motorOff.runOffTimer = none ∧ x.motorOff.pos.stallTimer = none ∧ x.motorOff.state = x.state ∧
    x.motorOff.stopReason = x.stopReason ∧ x.motorOff.batch = x.batch := by
  unfold motorOff abandonRunIn
  dsimp only
  split <;> exact ⟨rfl, rfl, rfl, rfl, rfl, rfl, rfl⟩

open State in
/-- Settles O18. -/
theorem holdTimerAccepts : Obligations.HoldTimerAccepts := by
  intro s t sn x c resolved put taken free accepts late resolves
  have hresolves : ∀ s1 : State, resolves s1 (.next (s1.resolveStep s t sn)) := by
    rintro s1 st rfl x1 c1 settled'
    obtain ⟨a, m, q, l, hout, ha, hm, hq, hl1, hl2, hl3⟩ := resolveStep_steps s1 s t st
    refine ⟨a, m, q, l, congrArg _ hout, fun h => ?_, fun p h => ⟨fun hr => ?_, fun hr => ?_⟩, hm, hq, hl1, hl2, hl3⟩
    · rw [ha]; exact acceptChange_of_none h
    · rw [ha]; exact acceptChange_of_change h hr
    · rw [ha, acceptChange_of_glitch h hr]
      simp only [Sensor.station.injEq]
      rfl
  refine ⟨fun h => ?_, fun h => ?_, fun h => ?_, fun h => ?_, ?_, fun p hp => ?_⟩
  · rw [exec_debounceHoldExpiry h]; exact hresolves s
  · rw [exec_sensorRawEdge_of_zero h]; exact hresolves _
  · obtain ⟨p, hp⟩ := Option.isSome_iff_exists.mp h
    exact ⟨_, exec_debounceHoldExpiry h, resolveStep_levels hp s⟩
  · exact ⟨_, exec_sensorRawEdge_of_zero h, rawEdge_resolveStep_levels s t sn⟩
  · rintro st rfl hst hn hr hd a hfree
    rw [exec_sensorRawEdge_of_zero hd]
    have hedge : x.rawEdge (.station st) = x.edgePending (.station st) := by
      rw [Transport.rawEdge_of_change hn hr, if_neg]
      exact fun h => hst (Sensor.station.inj h.1)
    have htr := s.tr_setTr_self t (x.edgePending (.station st))
    have hsen : (x.edgePending (.station st)).pos.sensor (.station st) =
        { c with raw := !c.raw, pending := some { latch := x.pos.counter, hold := x.pos.debounce } } :=
      PositionUnit.sensor_setSensor_self _ _ _
    refine congrArg _ (resolveStep_free s ?_ hfree)
    rw [hedge, acceptChange_of_change (p := { latch := x.pos.counter, hold := x.pos.debounce }) (by rw [htr, hsen])
      (by rw [htr, hsen]; exact hr)]
    unfold State.settled
    rw [htr, hsen, setTr_setTr]
    show (s.setTr t { x.edgePending (.station st) with pos := _, marks := _ }).stationChange t st _ _ = _
    unfold Transport.edgePending Transport.setSensor
    rw [PositionUnit.setSensor_setSensor]
  · have hpend : c.pending.isSome := by rw [hp]; rfl
    have hstation : ∀ st, sn = .station st → ∀ a : State, s.acceptChange t sn = a → free a st → accepts a := by
      rintro st rfl a he hf
      show exec (.debounceHoldExpiry t (.station st)) s = .next (a.finish s [])
      rw [exec_debounceHoldExpiry hpend, resolveStep_free s he hf]
    have hother : heldSteps t sn = [] → ∀ a : State, s.acceptChange t sn = a → accepts a := fun hh a he => by
      show exec (.debounceHoldExpiry t sn) s = .next (a.finish s [])
      rw [exec_debounceHoldExpiry hpend, resolveStep_other s hh, he]
    have hch := fun hr => acceptChange_of_change (s := s) (t := t) hp hr
    have hgl := fun hr => acceptChange_of_glitch (s := s) (t := t) hp hr
    have htk : ∀ m, (s.settled t sn m).tr t = { x with
        pos := x.pos.setSensor sn { raw := c.raw, level := c.raw, pending := none }, marks := m } := fun m => s.tr_setTr_self t _
    refine ⟨?_, ?_, ?_, ?_, ?_⟩
    · rintro st rfl hr a hf
      exact hstation st rfl a (hch hr) hf
    · rintro st rfl hr hf
      have hfree : ∀ m : MarkUnit, (m.windowEnd = .raised → x.marks.windowEnd = .raised) → free (put c.raw m) st := by
        intro m hm
        have ht : (put c.raw m).tr t = { x with
          pos := x.pos.setSensor (.station st) { raw := c.raw, level := c.raw, pending := none }, marks := m } := htk m
        show ¬((put c.raw m).tr t).isActive ∨ _
        rw [ht]
        exact hf.imp id fun g => ⟨fun h => g.1 (hm h), g.2⟩
      refine ⟨fun h => ?_, fun h1 h2 => ?_⟩
      · refine hstation st rfl _ ((hgl hr).trans ?_) (hfree x.marks id)
        rw [if_neg fun g => h.elim (fun n => n (Sensor.station.inj g.1)) fun n => n g.2]
        rfl
      · refine hstation st rfl _ ((hgl hr).trans ?_) (hfree {} fun h => by cases h)
        rw [if_pos ⟨by rw [h1], h2⟩]
        rfl
    · rintro (rfl | ⟨rfl, hr⟩)
      · refine hother rfl _ ?_
        by_cases hr : c.raw = c.level
        · rw [hgl hr, if_neg fun g => by cases g.1]; rfl
        · rw [hch hr]; rfl
      · refine hother rfl _ ?_
        rw [hgl hr, if_neg fun g => by cases g.1]
        rfl
    · rintro rfl hr hraw
      have he := hch hr
      rw [show ((s.tr t).pos.sensor .coverOpen).raw = true from hraw] at he
      have hcov : s.acceptChange t .coverOpen = (s.settled t .coverOpen x.marks).coverChange t true := he
      have htk' := htk x.marks
      refine ⟨fun ha => ?_, fun hs => ?_, fun hs => ?_⟩
      · have ha' : ((s.settled t .coverOpen x.marks).tr t).isActive = true := by rw [htk']; exact ha
        refine ⟨_, hother rfl _ (hcov.trans (coverChange_stop ha')), (heldAfter_takeStop ha' .cover).of_eq ?_ ?_⟩ <;> rw [htk']
      · have hs' : ((s.settled t .coverOpen x.marks).tr t).state = .ready ∨ ((s.settled t .coverOpen x.marks).tr t).state = .paused := by
          rw [htk']; exact hs
        refine ⟨_, hother rfl _ (hcov.trans (coverChange_off hs')), ?_⟩
        unfold State.settled
        rw [setTr_setTr, tr_setTr_self]
        refine ⟨.setTr s t _, ?_⟩
        rw [tr_setTr_self]
        exact Transport.motorOff_spec _
      · refine hother rfl _ (hcov.trans ((coverChange_still (by rw [htk']; exact hs)).trans ?_))
        show State.settled s t .coverOpen x.marks = put true x.marks
        rw [← hraw]
        rfl
    · rintro rfl hr hraw
      have he := hch hr
      rw [show ((s.tr t).pos.sensor .coverOpen).raw = false from hraw] at he
      have hcov : s.acceptChange t .coverOpen = (s.settled t .coverOpen x.marks).coverChange t false := he
      have htk' := htk x.marks
      refine ⟨fun h => ?_, fun ha hw hm => ?_⟩
      · refine hother rfl _ (hcov.trans ((coverChange_closed (by rw [htk']; exact h)).trans ?_))
        show State.settled s t .coverOpen x.marks = put false x.marks
        rw [← hraw]
        rfl
      · refine ⟨_, hother rfl _ (hcov.trans (coverChange_start (by rw [htk']; exact ha) (by rw [htk']; exact hw))), ?_⟩
        have hst : ((s.settled t .coverOpen x.marks).tr t).startMotor = ((s.settled t .coverOpen x.marks).tr t).startRunIn :=
          Transport.startMotor_of_standing (by rw [htk']; exact hm) (by rw [htk']; exact hraw)
        rw [hst, htk']
        unfold State.settled
        rw [setTr_setTr]
        refine ⟨.setTr s t _, ?_⟩
        rw [tr_setTr_self]
        exact Transport.startRunIn_spec _

end Sys2Proof.Machine
end

/-! PROOFS. The mark window end (05 sections 5.3 and 5.4): the divider of a pulse list, and what the decision does. -/

section

namespace Sys2Proof.Machine

namespace Transport

variable {x : Transport} {r : SheetRecord} {res : MarkResult}

/-! ### The divider of a pulse list (R96) -/

/-- A bar that counts for a divider: it ends within the window, and its width lies in the profile's limits. -/
def ValidBar (x : Transport) (p : Profile) (close : Pos) (b : Pulse) : Prop :=
  ∃ e, b.stop = some e ∧ nearDistance (x.marks.lead.getD 0) e ≤ nearDistance (x.marks.lead.getD 0) close ∧
    p.barMin ≤ x.tenths (nearDistance b.start e) ∧ x.tenths (nearDistance b.start e) ≤ p.barMax

theorem validBar_iff (x : Transport) (p : Profile) (close : Pos) (b : Pulse) :
    validBar x p (x.marks.lead.getD 0) (nearDistance (x.marks.lead.getD 0) close) b = true ↔ x.ValidBar p close b := by
  unfold validBar ValidBar
  cases b.stop with
  | none => simp
  | some e => simp [and_assoc]

/-- The bars of a pulse list: the pulses that begin before the close position. -/
def barsBefore (x : Transport) (close : Pos) : List Pulse :=
  x.marks.pulses.filter fun b =>
    decide (nearDistance (x.marks.lead.getD 0) b.start < nearDistance (x.marks.lead.getD 0) close)

theorem judgeMark_of_valid {p : Profile} {close : Pos} (ho : x.marks.overflow = false)
    (hv : ∀ b ∈ x.barsBefore close, x.ValidBar p close b) : judgeMark x p close = dividerOf (x.barsBefore close).length := by
  unfold judgeMark
  dsimp only
  rw [if_neg (by rw [ho]; decide)]
  exact if_pos (List.all_eq_true.mpr fun b hb => (x.validBar_iff p close b).mpr (hv b hb))

theorem judgeMark_of_not {p : Profile} {close : Pos}
    (h : x.marks.overflow = true ∨ ∃ b ∈ x.barsBefore close, ¬x.ValidBar p close b) : judgeMark x p close = .noDivider := by
  unfold judgeMark
  dsimp only
  by_cases ho : x.marks.overflow = true
  · exact if_pos ho
  · obtain ⟨b, hb, hv⟩ := h.resolve_left ho
    rw [if_neg ho]
    exact if_neg fun k => hv ((x.validBar_iff p close b).mp (List.all_eq_true.mp k b hb))

theorem dividerOf_code {n : Nat} (h : (dividerOf n).isDivider = true) : n = (dividerOf n).code := by
  unfold dividerOf at h ⊢
  split at h <;> first | rfl | exact absurd h (by decide)

theorem dividerOf_outside {n : Nat} (h : n < 2 ∨ 6 < n) : dividerOf n = .noDivider := by
  unfold dividerOf
  split <;> first | rfl | omega

/-! ### The decision -/

/-- The transport of a decision before its effects: the record judged, the measurement ended. -/
def judgedAs (x : Transport) (r : SheetRecord) (res : MarkResult) : Transport :=
  { x.modRecord r.id fun q => { q with markResult := res } with marks := {} }

/-- The window end of an OPEN measurement decides its record. -/
theorem markWindowExpired_of_open (hp : x.PageLaw) (hr : r ∈ x.track) (hm : x.marks.measurement = .opened r.id) :
    x.markWindowExpired = x.decideMark r (x.markWindowEndPos r) := by
  unfold markWindowExpired
  rw [hm]
  dsimp only
  rw [hp.record_eq hr]

/-- A track whose record is judged, and whose further records get OVERRUN (R99). -/
theorem overrunBehind_judged {ahead behind : List SheetRecord} (hd : ((ahead ++ r :: behind).map (·.id)).Nodup) :
    overrunBehind r.id ((ahead ++ r :: behind).map fun q => if q.id = r.id then { q with markResult := res } else q) =
      ahead ++ { r with markResult := res } :: behind.map fun q => { q with overrun := true } := by
  induction ahead with
  | nil =>
    have hb : ∀ q ∈ behind, q.id ≠ r.id := fun q hq h => (List.nodup_cons.mp hd).1 (List.mem_map.mpr ⟨q, hq, h⟩)
    rw [List.nil_append, List.map_cons, if_pos rfl, overrunBehind, if_pos rfl, List.map_map]
    exact congrArg _ (List.map_congr_left fun q hq => congrArg (fun k : SheetRecord => { k with overrun := true }) (if_neg (hb q hq)))
  | cons a rest ih =>
    obtain ⟨ha, hd⟩ := List.nodup_cons.mp hd
    have hne : a.id ≠ r.id := fun h => ha (List.mem_map.mpr ⟨r, by simp, h.symm⟩)
    rw [List.cons_append, List.map_cons, if_neg hne, overrunBehind, if_neg hne, ih hd]
    rfl

theorem endCondition_of_pause (h : x.state = .running ∨ (x.state = .draining ∧ x.purpose = .pause)) :
    x.endCondition.state = .draining ∧ x.endCondition.purpose = .endBatch ∧ x.endCondition.motor = x.motor := by
  unfold endCondition
  rcases h with h | h
  · rw [if_pos h]; exact ⟨rfl, rfl, rfl⟩
  · rw [if_neg (by rw [h.1]; decide), if_pos h]
    exact ⟨h.1, rfl, rfl⟩

theorem endCondition_of_other (hr : x.state ≠ .running) (h : ¬(x.state = .draining ∧ x.purpose = .pause)) :
    x.endCondition.state = x.state ∧ x.endCondition.purpose = x.purpose := by
  unfold endCondition
  rw [if_neg hr, if_neg h]
  exact ⟨rfl, rfl⟩

theorem allowsSwitch_iff (o : Option Snapshot) : o.any Snapshot.allowsSwitch = true ↔ ∃ sn alt, o = some sn ∧ sn.alt = some alt ∧
    alt.profile.pitch = sn.main.profile.pitch ∧ alt.profile.sides = sn.main.profile.sides := by
  unfold Snapshot.allowsSwitch
  cases o with
  | none => simp
  | some sn => cases h : sn.alt <;> simp [h]

theorem switchDecision_of_allowed (h : x.batch.snapshot.any Snapshot.allowsSwitch = true) (id : Nat) :
    (x.switchDecision id).batch = { x.batch with
      active := x.batch.active.toggle
      counters := { x.batch.counters with switchesObeyed := sat32 x.batch.counters.switchesObeyed 1 } } := by
  unfold switchDecision
  dsimp only
  rw [if_pos h]

theorem switchDecision_of_refused (h : ¬x.batch.snapshot.any Snapshot.allowsSwitch = true) (id : Nat) : x.switchDecision id =
    { x.modRecord id fun r => { r with switchRefused := true } with
      batch := { x.batch with
        counters := { x.batch.counters with switchesRefused := sat32 x.batch.counters.switchesRefused 1 } } } := by
  unfold switchDecision
  dsimp only
  rw [if_neg h]

/-- A refused SWITCH: the record is judged and marked, the refusal counted. -/
theorem judgedAs_refused (h : ¬x.batch.snapshot.any Snapshot.allowsSwitch = true) :
    (x.judgedAs r res).switchDecision r.id = { x with
      marks := {}
      track := x.track.map fun q => if q.id = r.id then { q with markResult := res, switchRefused := true } else q
      batch := { x.batch with
        counters := { x.batch.counters with switchesRefused := min (2 ^ 32 - 1) (x.batch.counters.switchesRefused + 1) } } } := by
  refine (switchDecision_of_refused (x := x.judgedAs r res) h r.id).trans ?_
  have ht := congrArg track (modRecord_modRecord (x := x) (id := r.id) (f := fun q => { q with markResult := res })
    (g := fun q => { q with switchRefused := true }) fun _ => rfl)
  exact congrArg (fun l : List SheetRecord => ({ x with
    marks := {}, track := l
    batch := { x.batch with
      counters := { x.batch.counters with switchesRefused := sat32 x.batch.counters.switchesRefused 1 } } } : Transport)) ht

end Transport

/-! ### The statement -/

/-- Settles O33, with the cases of the result and of the number of valid bars. -/
theorem markWindowEnd : Obligations.MarkWindowEnd := by
  refine ⟨?_, ?_⟩
  · intro s t r x res c allowed hp hw hm hr ho
    have hexec : exec (.markWindowEnd t) s = .next ((s.setTr t (x.decideMark r (x.markWindowEndPos r))).finish s []) := by
      refine (if_pos ⟨hw, by unfold Transport.markHeld; rw [hm]; rfl⟩ : exec (.markWindowEnd t) s = _).trans ?_
      have e : s.takeMarkExpiry t = s.setTr t (x.decideMark r (x.markWindowEndPos r)) :=
        (if_pos hw).trans (congrArg (s.setTr t) (Transport.markWindowExpired_of_open hp hr ho))
      rw [e]
    have hv : (s.setTr t (x.decideMark r (x.markWindowEndPos r))).tr t = (x.judgedAs r res).decisionEffects r.id res :=
      s.tr_setTr_self t _
    refine ⟨s.setTr t (x.decideMark r (x.markWindowEndPos r)), hexec, .setTr s t _, ?_⟩
    rw [hv]
    obtain ⟨hmarks, q, hq, hid, -, hres⟩ := x.decideMark_record hr rfl (x.markWindowEndPos r)
    refine ⟨hmarks, ⟨q, hq, hid, hres⟩, fun hs he => Transport.decisionEffects_eq hs he, fun he => ?_, fun hs ha => ?_,
      fun hs ha => ?_⟩
    · rw [he]
      refine ⟨fun ahead behind htrack => ?_, fun hst => ?_, fun hst hpurp => ?_⟩
      · refine (Transport.endCondition_kept _).2.trans ?_
        have hd := hp.1
        rw [show (s.tr t).track = ahead ++ r :: behind from htrack] at hd
        refine (congrArg (fun l => overrunBehind r.id (l.map fun q : SheetRecord =>
          if q.id = r.id then { q with markResult := .divider .endBatch } else q)) htrack).trans ?_
        exact Transport.overrunBehind_judged hd
      · exact Transport.endCondition_of_pause (x := { x.judgedAs r (.divider .endBatch) with
          track := overrunBehind r.id (x.judgedAs r (.divider .endBatch)).track }) hst
      · exact Transport.endCondition_of_other (x := { x.judgedAs r (.divider .endBatch) with
          track := overrunBehind r.id (x.judgedAs r (.divider .endBatch)).track }) hst hpurp
    · rw [hs]
      refine (Transport.switchDecision_of_allowed (x := x.judgedAs r (.divider .switch))
        ((Transport.allowsSwitch_iff _).mpr ha) r.id).trans ?_
      rfl
    · rw [hs]
      exact Transport.judgedAs_refused fun h => ha ((Transport.allowsSwitch_iff _).mp h)
  · intro x p close lead res bars valid
    refine ⟨fun h => ?_, fun h => Transport.judgeMark_of_not h, fun ho hv => ?_⟩
    · by_cases hn : x.marks.overflow = true ∨ ∃ b ∈ bars, ¬valid b
      · rw [show res = .noDivider from Transport.judgeMark_of_not hn] at h
        exact absurd h (by decide)
      · have ho : x.marks.overflow = false := Bool.eq_false_iff.mpr fun k => hn (.inl k)
        have hv : ∀ b ∈ bars, valid b := fun b hb => not_not.mp fun k => hn (.inr ⟨b, hb, k⟩)
        have e : res = dividerOf bars.length := Transport.judgeMark_of_valid ho hv
        rw [e] at h ⊢
        exact ⟨ho, Transport.dividerOf_code h, hv⟩
    · have e : res = dividerOf bars.length := Transport.judgeMark_of_valid ho hv
      refine ⟨fun h => e.trans (Transport.dividerOf_outside h), fun d hd => e.trans ?_⟩
      simp only [List.mem_cons, Prod.mk.injEq, List.not_mem_nil, or_false] at hd
      rcases hd with ⟨hn, rfl⟩ | ⟨hn, rfl⟩ | ⟨hn, rfl⟩ | ⟨hn, rfl⟩ | ⟨hn, rfl⟩ <;> rw [hn] <;> rfl

end Sys2Proof.Machine

end

/-! PROOFS. Register writes, START up to its header read, and the polling (09 sections 9.2 to 9.4). -/

section

namespace Sys2Proof.Machine

/-! ### The words written to RUNCTL -/

theorem runctlPeriod_eq (v : Word) : runctlPeriod v = BitVec.ofNat 8 (v.toNat / 2 ^ 24) := by
  refine BitVec.eq_of_toNat_eq ?_
  rw [runctlPeriod, BitVec.extractLsb'_toNat, Nat.shiftRight_eq_div_pow, BitVec.toNat_ofNat]

theorem runctlCommand_bits (v : Word) : (v.extractLsb' 0 3).toNat = v.toNat % 8 := by
  rw [BitVec.extractLsb'_toNat, Nat.shiftRight_zero]

/-- The row of a word written to RUNCTL, by its bits 2 to 0 (09 Table 9-3). -/
theorem runctlRow_spec (v : Word) :
    (v.toNat % 8 = 1 → runctlRow v = .start (runctlPeriod v)) ∧ (v.toNat % 8 = 2 → runctlRow v = .halt (runctlPeriod v)) ∧
    (v.toNat % 8 = 3 → runctlRow v = .softReset (runctlPeriod v)) ∧
    (v.toNat % 8 = 0 ∨ 3 < v.toNat % 8 → runctlRow v = .pollPeriodWrite (runctlPeriod v)) := by
  unfold runctlRow runctlCommand
  rw [runctlCommand_bits]
  generalize v.toNat % 8 = n
  refine ⟨by rintro rfl; rfl, by rintro rfl; rfl, by rintro rfl; rfl, fun h => ?_⟩
  obtain rfl | ⟨k, rfl⟩ : n = 0 ∨ ∃ k, n = k + 4 := h.imp id fun g => ⟨n - 4, by omega⟩
  · rfl
  · rfl

namespace State

variable {s : State} {p : Byte}

/-! ### The poll period -/

theorem polls_iff : s.polls = true ↔ s.room.part = .active ∨ (s.room.part = .halting ∧ ∃ t, (s.tr t).state ≠ .off) := by
  have h : (s.allOff = false) ↔ ∃ t, (s.tr t).state ≠ .off := by
    rw [← Bool.not_eq_true, allOff_iff, not_forall]
  unfold polls
  simp [h]

theorem writePeriod_of_same (h : p.toNat = s.room.pollPeriod) : s.writePeriod p = s := if_pos h

theorem writePeriod_of_changed (h : p.toNat ≠ s.room.pollPeriod) : s.writePeriod p =
    s.setRoom { s.room with pollPeriod := p.toNat, pollTimer := if s.polls then timerAt p.toNat else s.room.pollTimer } := if_neg h

/-- A write of the period changes at most the period and its timer. -/
theorem writePeriod_eq (s : State) (p : Byte) : ∃ timer, s.writePeriod p =
    s.setRoom { s.room with pollPeriod := p.toNat, pollTimer := timer } := by
  by_cases h : p.toNat = s.room.pollPeriod
  · refine ⟨s.room.pollTimer, (writePeriod_of_same h).trans ?_⟩
    rw [h]
    rfl
  · exact ⟨_, writePeriod_of_changed h⟩

/-- A HALTED part has no poll timer to start. -/
theorem writePeriod_of_halted (h : s.room.part = .halted) : s.writePeriod p = s.setRoom { s.room with pollPeriod := p.toNat } := by
  by_cases hp : p.toNat = s.room.pollPeriod
  · refine (writePeriod_of_same hp).trans ?_
    rw [hp]
    rfl
  · have hn : ¬s.polls = true := fun k => by
      rw [polls_iff, h] at k
      rcases k with k | k
      · cases k
      · cases k.1
    rw [writePeriod_of_changed hp, if_neg hn]

theorem pollPeriod_of_core {r q : RoomInterface} (h : q.core = r.core) : q.pollPeriod = r.pollPeriod := by
  have e := congrArg RoomInterface.pollPeriod h
  exact e

theorem pollPeriod_finish (s before : State) (forced : List TransportNo) :
    (s.finish before forced).room.pollPeriod = s.room.pollPeriod :=
  pollPeriod_of_core (s.quiet_finishVia before [] forced).room

theorem pollPeriod_takeHalt (s : State) : s.takeHalt.room.pollPeriod = s.room.pollPeriod := by
  unfold takeHalt
  split
  · refine (pollPeriod_finish _ _ _).trans ?_
    unfold eachTransport
    rw [foldl_allTransports]
    rfl
  · rfl

theorem pollPeriod_takeStart (s : State) : s.takeStart.room.pollPeriod = s.room.pollPeriod := by
  unfold takeStart
  split
  · split
    · rfl
    · split <;> rfl
  · rfl

/-! ### START -/

theorem takeStart_of_null (hp : s.room.part = .halted) (hf : s.room.startInFlight = none) (h : s.room.rbase = 0) :
    s.takeStart = s.setRoom { s.room with startResult := .range } := (if_pos ⟨hp, hf⟩ : s.takeStart = _).trans (if_pos h)

theorem takeStart_of_misaligned (hp : s.room.part = .halted) (hf : s.room.startInFlight = none) (h : s.room.rbase ≠ 0)
    (hm : s.room.rbase.toNat % 4096 ≠ 0) : s.takeStart = s.setRoom { s.room with startResult := .align } :=
  (if_pos ⟨hp, hf⟩ : s.takeStart = _).trans ((if_neg h).trans (if_pos (by simp [multipleOf, hm])))

theorem takeStart_of_aligned (hp : s.room.part = .halted) (hf : s.room.startInFlight = none) (h : s.room.rbase ≠ 0)
    (hm : s.room.rbase.toNat % 4096 = 0) : s.takeStart = s.setRoom { s.room with startInFlight := some s.room.rbase } :=
  (if_pos ⟨hp, hf⟩ : s.takeStart = _).trans ((if_neg h).trans (if_neg (by simp [multipleOf, hm])))

/-! ### Sweeps -/

theorem requestSweep_of_idle (h : s.room.sweep = .idle) : s.requestSweep = s.setRoom { s.room with sweep := .inFlight 0 } := by
  unfold requestSweep
  rw [h]
  rfl

theorem requestSweep_of_inFlight {n : Nat} (h : s.room.sweep = .inFlight n) :
    s.requestSweep = s.setRoom { s.room with sweepPending := true } := by
  unfold requestSweep
  rw [h]
  rfl

theorem sweepReaches_of {n place : Nat} (h : s.room.sweep = .inFlight n) (hn : n ≤ place) (ha : s.room.answer = none)
    (hs : s.room.setupRead = none) : s.sweepReaches place = true := by
  unfold sweepReaches
  rw [h, ha, hs]
  simp [hn]

/-- The end of a sweep raises the count and begins the pending one (R165). -/
theorem endSweep_eq (s : State) : s.endSweep = s.setRoom { s.room with
    sweep := if s.room.sweepPending then .inFlight 0 else .idle, sweepCount := s.room.sweepCount + 1, sweepPending := false } := by
  unfold endSweep
  dsimp only
  by_cases h : s.room.sweepPending = true
  · rw [if_pos h, h]
    rfl
  · rw [if_neg h, Bool.eq_false_iff.mpr h]
    rfl

/-- A lane for which no read was made is left as it is. -/
theorem examine_none (s : State) (n : LaneNo) : s.examine n none none = s := by
  have h : examineLane (s.lane n).cursor none none = .nothing := by cases (s.lane n).cursor <;> rfl
  unfold examine
  rw [h]
  exact ite_self s

end State

/-! ### The statement -/

open State in
theorem registerWrites :
    (∀ (s : State) (v : Word), s.room.part = .halted →
      exec (.rbaseWrite true v) s = .next (s.setRoom { s.room with rbaseH := v }) ∧
      exec (.rbaseWrite false v) s = .next (s.setRoom { s.room with rbaseL := v })) ∧
    (∀ (s : State) (h : Bool) (v : Word), s.room.part ≠ .halted → exec (.rbaseWrite h v) s = .next s) ∧
    (∀ (s : State) (p : Byte), ∀ c ∈ [Instr.start p, .halt p, .softReset p, .pollPeriodWrite p],
      ∃ u, exec c s = .next u ∧ u.room.pollPeriod = p.toNat) ∧
    (∀ (s : State) (p : Byte), ∃ timer, exec (.pollPeriodWrite p) s =
      .next (s.setRoom { s.room with pollPeriod := p.toNat, pollTimer := timer })) ∧
    (∀ (s : State) (v : Word), exec (.registerWrite .evt v) s = .next s ∧ exec (.registerWrite .evtact v) s = .next s ∧
      exec (.registerWrite .runctlReadOnly v) s = exec (.pollPeriodWrite (BitVec.ofNat 8 (v.toNat / 2 ^ 24))) s) := by
  refine ⟨fun s v h => ⟨if_pos h, if_pos h⟩, fun s b v h => if_neg h, fun s p c hc => ?_, fun s p => ?_, fun s v =>
    ⟨rfl, rfl, ?_⟩⟩
  · have hw : (s.writePeriod p).room.pollPeriod = p.toNat := by
      obtain ⟨timer, e⟩ := s.writePeriod_eq p
      rw [e]
      rfl
    simp only [List.mem_cons, List.not_mem_nil, or_false] at hc
    rcases hc with rfl | rfl | rfl | rfl
    · exact ⟨_, rfl, (pollPeriod_takeStart _).trans hw⟩
    · exact ⟨_, rfl, (pollPeriod_takeHalt _).trans hw⟩
    · exact ⟨_, rfl, rfl⟩
    · exact ⟨_, rfl, hw⟩
  · obtain ⟨timer, e⟩ := s.writePeriod_eq p
    exact ⟨timer, congrArg _ e⟩
  · rw [← runctlPeriod_eq]
    rfl

open State in
/-- Settles O34. -/
theorem registersAndPolling : Obligations.RegistersAndPolling := by
  obtain ⟨hbase, hkept, hperiod, hpoll, hinert⟩ := registerWrites
  refine ⟨⟨hbase, hkept, hperiod, hpoll, hinert, fun v => ?_⟩, fun s p => ?_, fun s => ?_⟩
  · have h := runctlRow_spec v
    rw [runctlPeriod_eq] at h
    obtain ⟨h1, h2, h3, h4⟩ := h
    exact ⟨h1, h2, h3, h4, rfl, rfl, rfl, rfl, rfl, rfl, rfl⟩
  · intro r base
    refine ⟨fun hp hf => ?_, fun h => ?_⟩
    · have hw : s.writePeriod p = s.setRoom r := writePeriod_of_halted hp
      have he : exec (.start p) s = .next (s.setRoom r).takeStart := congrArg (fun v : State => (.next v.takeStart : Result)) hw
      refine ⟨fun h => he.trans (congrArg _ ?_), fun h hm => he.trans (congrArg _ ?_), fun h hm => he.trans (congrArg _ ?_)⟩
      · exact takeStart_of_null hp hf h
      · exact takeStart_of_misaligned hp hf h hm
      · exact takeStart_of_aligned hp hf h hm
    · obtain ⟨timer, e⟩ := s.writePeriod_eq p
      refine congrArg _ (?_ : (s.writePeriod p).takeStart = s.writePeriod p)
      rw [e]
      exact if_neg fun k => h.elim (fun n => n k.1) fun n => n k.2
  · intro timer r mayPoll
    have hpolls : mayPoll ↔ s.polls = true := polls_iff.symm
    refine ⟨fun ht hs => ?_, fun n ht hs => ?_, fun v hm hs => ?_, fun v n hm hs => ?_, fun v hm => ?_, fun p hp => ?_,
      fun p hp hm => ?_, fun n hs hn ha hr => ?_⟩
    · refine (if_pos ht : exec .pollTimerExpiry s = _).trans ?_
      rw [requestSweep_of_idle hs]
      rfl
    · refine (if_pos ht : exec .pollTimerExpiry s = _).trans ?_
      rw [requestSweep_of_inFlight hs]
      rfl
    · exact (if_pos (hpolls.mp hm) : exec (.sweepWrite v) s = _).trans (congrArg _ (requestSweep_of_idle hs))
    · exact (if_pos (hpolls.mp hm) : exec (.sweepWrite v) s = _).trans (congrArg _ (requestSweep_of_inFlight hs))
    · exact if_neg fun k => hm (hpolls.mpr k)
    · exact congrArg _ (writePeriod_of_same hp)
    · refine congrArg _ ((writePeriod_of_changed hp).trans ?_)
      rw [if_pos (hpolls.mp hm)]
      rfl
    · refine (if_pos (sweepReaches_of hs hn ha hr) : exec (.sweepEnd [] []) s = _).trans ?_
      have e : allLanes.foldl (fun s n => s.examine n (readFor [] n) (readFor [] n)) s = s :=
        List.foldl_fixed' (fun n => s.examine_none n) _
      rw [e, endSweep_eq]

end Sys2Proof.Machine

end

/-! PROOFS. The end of a START: the header judged, and what a header that passes loads (09 section 9.3). -/

section

namespace Sys2Proof.Machine

namespace State

variable {s u v : State} {t : TransportNo}

/-! ### The low mark and the Room Interface through the end of a step -/

/-- The low mark of the hold store is as it was, and the Room Interface but for the events. -/
structure SameMark (s u : State) : Prop where
  mark : u.hold.lowMark = s.hold.lowMark
  room : { u.room with evt := 0 } = { s.room with evt := 0 }

theorem SameMark.trans (h : s.SameMark u) (g : u.SameMark v) : s.SameMark v := ⟨g.mark.trans h.mark, g.room.trans h.room⟩

theorem SameMark.refl (s : State) : s.SameMark s := ⟨rfl, rfl⟩

/-- A change of the transports, the lanes or the writer alone. -/
theorem SameMark.aside (h : u.hold = s.hold) (hr : u.room = s.room) : s.SameMark u := ⟨by rw [h], by rw [hr]⟩

theorem SameMark.foldl {α : Type} {f : State → α → State} (h : ∀ (s : State) (a : α), s.SameMark (f s a)) (s : State) (l : List α) :
    s.SameMark (l.foldl f s) := by
  induction l generalizing s with
  | nil => exact .refl s
  | cons a rest ih => exact (h s a).trans (ih _)

theorem sameMark_modTr (s : State) (t : TransportNo) (f : Transport → Transport) : s.SameMark (s.modTr t f) := .aside rfl rfl

theorem sameMark_setTr (s : State) (t : TransportNo) (x : Transport) : s.SameMark (s.setTr t x) := .aside rfl rfl

theorem sameMark_eachTransport (s : State) (f : Transport → Transport) : s.SameMark (s.eachTransport f) :=
  .foldl (fun s t => sameMark_modTr s t f) s _

theorem sameMark_serveList (s : State) : s.SameMark s.serveList :=
  ⟨s.poolKept_serveList.lowMark, (outside_serveWaiting s _).room⟩

theorem sameMark_returnPages (s : State) (pages : List Nat) (n : Nat) : s.SameMark (s.returnPages pages n) :=
  ⟨(s.poolKept_returnPages pages n).lowMark, (s.outside_returnPages pages n).room⟩

theorem sameMark_settleHead (s : State) (t : TransportNo) (r : SheetRecord) : s.SameMark (s.settleHead t r) := by
  unfold settleHead
  exact (sameMark_setTr s t _).trans ((sameMark_returnPages _ _ _).trans (sameMark_returnPages _ _ _))

theorem sameMark_updateWaits (s : State) : s.SameMark s.updateWaits :=
  .foldl (f := fun s t => s.modTr t fun x => { x with pickWait := x.waitReason }) (fun s t => sameMark_modTr s t _) s _

theorem sameMark_settleTransport (s : State) (t : TransportNo) (n : Nat) : s.SameMark (s.settleTransport t n) := by
  induction n generalizing s with
  | zero => exact .refl s
  | succ n ih =>
    unfold settleTransport
    split
    · exact .refl s
    · split
      · exact (sameMark_settleHead s t _).trans (ih _)
      · exact .refl s

theorem sameMark_askAdmission (s : State) (t : TransportNo) : s.SameMark (s.askAdmission t) := by
  unfold askAdmission
  split
  · split
    · next h => exact ⟨(s.poolKept_grant t h.2).lowMark, (outside_grant s t _).room⟩
    · exact ⟨rfl, rfl⟩
  · exact .refl s

theorem sameMark_requestClosure (s : State) (t : TransportNo) (n : LaneNo) : s.SameMark (s.requestClosure t n) := by
  unfold requestClosure
  dsimp only
  split
  · split <;> exact .aside rfl rfl
  · exact sameMark_modTr s t _

theorem sameMark_askClosures (s : State) (t : TransportNo) : s.SameMark (s.askClosures t) :=
  (sameMark_modTr s t _).trans (.foldl (fun s n => sameMark_requestClosure s t n) _ _)

theorem sameMark_goOnClosing (s : State) (t : TransportNo) : s.SameMark (s.goOnClosing t) := by
  unfold goOnClosing
  split
  · split <;> first | exact .refl s | exact sameMark_modTr s t _
  · exact .refl s

theorem sameMark_endBatch (s : State) (t : TransportNo) : s.SameMark (s.endBatch t) := by
  unfold endBatch
  split
  · exact (sameMark_askClosures s t).trans (sameMark_goOnClosing _ t)
  · exact sameMark_goOnClosing s t

theorem sameMark_continueTurn (s : State) (t : TransportNo) : s.SameMark (s.continueTurn t) := by
  unfold continueTurn
  split
  · exact .aside rfl rfl
  · split
    · exact .aside rfl rfl
    · split <;> exact .aside rfl rfl

theorem sameMark_lookForWork (s : State) : s.SameMark s.lookForWork := by
  unfold lookForWork
  split
  · exact .refl s
  · split
    · exact .refl s
    · unfold beginTurn
      split
      · exact .refl s
      · dsimp only
        split
        · exact .aside rfl rfl
        · refine SameMark.trans ?_ (sameMark_continueTurn _ _)
          exact .aside rfl rfl

theorem sameMark_settleStage (s : State) : s.SameMark s.settleStage :=
  SameMark.trans (u := s.settleAll) (.foldl (fun s t => sameMark_settleTransport s t _) s _) (sameMark_eachTransport _ _)

theorem sameMark_drainStage (s : State) : s.SameMark s.drainStage :=
  SameMark.trans (u := s.pickStage)
    (((sameMark_serveList s).trans (.foldl sameMark_askAdmission _ allTransports)).trans (sameMark_updateWaits _))
    (sameMark_eachTransport _ _)

/-- What a request of a status write leaves alone. -/
theorem requestStatus_kept (s : State) (t : TransportNo) : (s.requestStatus t).hold = s.hold ∧
    (s.requestStatus t).room.pollTimer = s.room.pollTimer ∧ (s.requestStatus t).room.sweepPending = s.room.sweepPending := by
  unfold requestStatus
  rw [modRoom_hold, modRoom_room]
  split <;> exact ⟨rfl, rfl, rfl⟩

theorem requestStatuses_kept (s : State) (t : TransportNo) (n : Nat) : (s.requestStatuses t n).hold = s.hold ∧
    (s.requestStatuses t n).room.pollTimer = s.room.pollTimer ∧
    (s.requestStatuses t n).room.sweepPending = s.room.sweepPending := by
  induction n generalizing s with
  | zero => exact ⟨rfl, rfl, rfl⟩
  | succ n ih =>
    obtain ⟨h1, h2, h3⟩ := s.requestStatus_kept t
    obtain ⟨g1, g2, g3⟩ := ih (s.requestStatus t)
    exact ⟨g1.trans h1, g2.trans h2, g3.trans h3⟩

theorem requestReports_kept (s before : State) (path : List State) (forced : List TransportNo) :
    (s.requestReports before path forced).hold = s.hold ∧
    (s.requestReports before path forced).room.pollTimer = s.room.pollTimer ∧
    (s.requestReports before path forced).room.sweepPending = s.room.sweepPending := by
  unfold requestReports
  generalize allTransports = l
  induction l generalizing s with
  | nil => exact ⟨rfl, rfl, rfl⟩
  | cons t rest ih =>
    obtain ⟨h1, h2, h3⟩ := s.requestStatuses_kept t (requestsOf t before path forced)
    obtain ⟨g1, g2, g3⟩ := ih (s.requestStatuses t (requestsOf t before path forced))
    exact ⟨g1.trans h1, g2.trans h2, g3.trans h3⟩

theorem haltQuiet_of_not_halting (h : s.room.part ≠ .halting) : s.haltQuiet = s := if_neg fun k => h k.1

theorem lowMark_haltQuiet (s : State) : s.haltQuiet.hold = s.hold := by
  unfold haltQuiet
  split <;> rfl

/-- What no stage of the end of a step changes: the low mark, and, in a part that is not HALTING, the poll timer and the pending
sweep (R163). -/
theorem finish_kept (s before : State) (forced : List TransportNo) :
    (s.finish before forced).hold.lowMark = s.hold.lowMark ∧
    (s.room.part ≠ .halting → (s.finish before forced).room.pollTimer = s.room.pollTimer ∧
      (s.finish before forced).room.sweepPending = s.room.sweepPending) := by
  have hsame : s.SameMark (allTransports.foldl endBatch s.settleStage.drainStage).lookForWork :=
    (((sameMark_settleStage s).trans (sameMark_drainStage _)).trans (.foldl sameMark_endBatch _ _)).trans (sameMark_lookForWork _)
  rw [finish, finishVia_eq]
  obtain ⟨h1, h2, h3⟩ := requestReports_kept s.settleStage.drainStage.closeStage before
    ([] ++ [s, s.settleStage, s.settleStage.drainStage, s.settleStage.drainStage.closeStage]) forced
  rw [h1, h2, h3]
  unfold closeStage
  generalize (allTransports.foldl endBatch s.settleStage.drainStage).lookForWork = u at hsame ⊢
  refine ⟨by rw [lowMark_haltQuiet]; exact hsame.mark, fun hp => ?_⟩
  have hpart := congrArg RoomInterface.part hsame.room
  have htimer := congrArg RoomInterface.pollTimer hsame.room
  have hpend := congrArg RoomInterface.sweepPending hsame.room
  rw [haltQuiet_of_not_halting fun k => hp (hpart.symm.trans k)]
  exact ⟨htimer, hpend⟩

/-! ### Status writes that a step requests of its own -/

theorem askedOnce_iterate_ne (p : StatusWrite × Word) (n : Nat) : (askedOnce^[n + 1] p).1 ≠ .idle := by
  rw [Function.iterate_succ_apply']
  generalize askedOnce^[n] p = q
  obtain ⟨w, k⟩ := q
  cases w <;> exact fun h => by cases h

theorem status_requestReports (c before : State) (path : List State) {forced : List TransportNo} (h : t ∈ forced) :
    (c.requestReports before path forced).room.status[t] ≠ .idle := by
  obtain ⟨n, hn⟩ : ∃ n, requestsOf t before path forced = n + 1 := by
    unfold requestsOf
    rw [List.contains_iff_mem.mpr h, one, if_pos rfl]
    exact ⟨_, Nat.add_comm _ _⟩
  have hs := congrArg Prod.fst (statusOf_requestReports c before path forced t)
  rw [hn] at hs
  exact fun k => askedOnce_iterate_ne _ _ (hs.symm.trans k)

/-- A transport whose status write a step requests of its own has one in flight at its end (R171). -/
theorem status_finishVia (s before : State) (path : List State) {forced : List TransportNo} (h : t ∈ forced) :
    (s.finishVia before path forced).room.status[t] ≠ .idle := by
  rw [finishVia_eq]
  exact status_requestReports _ _ _ h

/-! ### The header loaded -/

/-- The state that START loads, before its low-mark condition is worked out: the addresses, the lanes and the mark (R125, R133). -/
def headerLoaded (s : State) (base : Addr) (h : Header) : State :=
  { s with
    room := { s.room with startInFlight := none, startResult := .ok, part := .active, table := some (h.table base),
                          pollTimer := timerAt s.room.pollPeriod }
    lanes := Vector.ofFn fun n => laneAtStart h.laneHead[n] h.laneFlush[n]
    hold := { s.hold with lowMark := h.lowMark, below := false } }

theorem loadHeader_eq (s : State) (base : Addr) (h : Header) (hs : s.room.sweep = .idle) : s.loadHeader base h =
    (s.headerLoaded base h).refreshMark.setRoom { (s.headerLoaded base h).refreshMark.room with sweep := .inFlight 0 } := by
  refine requestSweep_of_idle (s := (s.headerLoaded base h).refreshMark) ?_
  have e := congrArg RoomInterface.sweep (outside_refreshMark (s.headerLoaded base h)).room
  exact e.trans hs

end State

/-! ### The rows of 09 Table 9-5 -/

theorem multipleOf_iff (a : Addr) (n : Nat) : multipleOf a n = true ↔ a.toNat % n = 0 := by
  unfold multipleOf
  simp

namespace Header

variable {h : Header} {total : Nat}

/-- What holds of every block and table address that the rows judge. -/
theorem forall_blocks_iff (h : Header) (P : Addr → Prop) : (∀ a ∈ h.blocks, P a) ↔
    (∀ t : TransportNo, P h.setup[t] ∧ P h.control[t] ∧ P h.status[t]) ∧ P h.profiles ∧ P h.routes ∧ P h.room := by
  have hv : ∀ v : Vector Addr 4, (∀ a ∈ v.toList, P a) ↔ ∀ t : TransportNo, P v[t] := fun v =>
    ⟨fun k t => k _ (by simp), fun k a ha => by
      obtain ⟨i, hi, rfl⟩ := List.getElem_of_mem ha
      simpa using k ⟨i, by simpa using hi⟩⟩
  unfold blocks
  simp only [List.forall_mem_append, hv, List.forall_mem_cons, List.not_mem_nil, false_implies, implies_true, and_true, forall_and]
  tauto

theorem forall_laneHead_iff (h : Header) : (∀ a ∈ h.laneHead.toList, multipleOf a 4096 = true) ↔
    ∀ n : LaneNo, h.laneHead[n] ≠ 0 → h.laneHead[n].toNat % 4096 = 0 := by
  refine ⟨fun k n _ => (multipleOf_iff _ _).mp (k _ (by simp)), fun k a ha => (multipleOf_iff _ _).mpr ?_⟩
  obtain ⟨i, hi, rfl⟩ := List.getElem_of_mem ha
  by_cases hz : h.laneHead[(⟨i, by simpa using hi⟩ : LaneNo)] = 0
  · simp_all
  · simpa using k ⟨i, by simpa using hi⟩ hz

/-- Row 3 of 09 Table 9-5 does not apply: every address is a multiple. -/
def Aligned (h : Header) : Prop :=
  (∀ a ∈ h.blocks, multipleOf a 64 = true) ∧ ∀ a ∈ h.laneHead.toList, multipleOf a 4096 = true

/-- Row 4 of 09 Table 9-5 does not apply: the addresses, counts and the low mark are of range. -/
def InRange (h : Header) (total : Nat) : Prop :=
  (∀ a ∈ h.blocks, a ≠ 0) ∧ 1 ≤ h.profileCount ∧ h.profileCount ≤ 32 ∧ 1 ≤ h.routeCount ∧ h.routeCount ≤ 8 ∧
    h.laneHead[(0 : LaneNo)] ≠ 0 ∧ h.lowMark ≤ total

theorem misaligned_iff (h : Header) :
    (!(h.blocks.all fun a => multipleOf a 64) || !(h.laneHead.toList.all fun a => multipleOf a 4096)) = true ↔ ¬h.Aligned := by
  unfold Aligned
  rw [← List.all_eq_true, ← List.all_eq_true, not_and_or, Bool.or_eq_true, Bool.not_eq_true', Bool.not_eq_true',
    Bool.not_eq_true, Bool.not_eq_true]

theorem judge_of_version (hv : h.version ≠ 1) : h.judge total = .version := if_pos hv

theorem judge_of_misaligned (hv : h.version = 1) (ha : ¬h.Aligned) : h.judge total = .align := by
  unfold judge
  rw [if_neg (not_not.mpr hv), if_pos (h.misaligned_iff.mpr ha)]

theorem judge_of_aligned (hv : h.version = 1) (ha : h.Aligned) :
    (¬h.InRange total → h.judge total = .range) ∧ (h.InRange total → h.judge total = .ok) := by
  unfold judge
  rw [if_neg (not_not.mpr hv), if_neg fun k => h.misaligned_iff.mp k ha]
  have e : (h.blocks.any (· == 0) || h.profileCount == 0 || decide (32 < h.profileCount) || h.routeCount == 0
      || decide (8 < h.routeCount) || h.laneHead[0] == 0 || decide (total < h.lowMark)) = true ↔ ¬h.InRange total := by
    unfold InRange
    simp only [Bool.or_eq_true, List.any_eq_true, beq_iff_eq, decide_eq_true_eq, not_and_or, not_forall, not_not, Nat.not_le,
      Nat.lt_one_iff, exists_prop, or_assoc]
    rfl
  exact ⟨fun k => if_pos (e.mpr k), fun k => if_neg fun g => e.mp g k⟩

end Header

/-! ### The statement -/

theorem laneAtStart_spec (head : Addr) (flush : Nat) : (laneAtStart head flush).flushTime = flush ∧
    (laneAtStart head flush).sequence = 0 ∧ (laneAtStart head flush).bin = none ∧
    (head = 0 → (laneAtStart head flush).state = .unused) ∧
    (head ≠ 0 → (laneAtStart head flush).state = .idle ∧ (laneAtStart head flush).cursor = .at head) := by
  unfold laneAtStart
  split
  · next h => exact ⟨rfl, rfl, rfl, fun _ => rfl, fun n => absurd h n⟩
  · next h => exact ⟨rfl, rfl, rfl, fun e => absurd e h, fun _ => ⟨rfl, rfl⟩⟩

/-- The fields of the Room Interface's core that a START sets. -/
theorem RoomInterface.core_kept {r q : RoomInterface} (h : q.core = r.core) : q.part = r.part ∧ q.startResult = r.startResult ∧
    q.startInFlight = r.startInFlight ∧ q.sweep = r.sweep ∧ q.table = r.table := by
  have h1 := congrArg RoomInterface.part h
  have h2 := congrArg RoomInterface.startResult h
  have h3 := congrArg RoomInterface.startInFlight h
  have h4 := congrArg RoomInterface.sweep h
  have h5 := congrArg RoomInterface.table h
  exact ⟨h1, h2, h3, h4, h5⟩

namespace State

variable {s : State} {base : Addr} {h : Header}

/-- The state that a START loads for the end of its step. -/
theorem loadHeader_spec (hs : s.room.sweep = .idle) : let w := s.loadHeader base h
    w.transports = s.transports ∧ w.writer = s.writer ∧ w.hostMem = s.hostMem ∧
    w.hold.free = s.hold.free ∧ w.hold.reserved = s.hold.reserved ∧ w.hold.waiting = s.hold.waiting ∧
    (w.hold.below = true ↔ s.hold.freePages < h.lowMark) ∧
    w.room.evt = s.room.evt ||| (if s.hold.freePages < h.lowMark then 0x2000#16 else 0) ∧ w.hold.lowMark = h.lowMark ∧
    w.room.core = { (s.headerLoaded base h).room with sweep := .inFlight 0 }.core ∧
    w.room.pollTimer = timerAt s.room.pollPeriod ∧
    w.lanes = (s.headerLoaded base h).lanes := by
  intro w
  have e : w = _ := s.loadHeader_eq base h hs
  have o := (s.headerLoaded base h).outside_refreshMark
  have hh := (s.headerLoaded base h).refreshMark_hold
  have he := (s.headerLoaded base h).refreshMark_evt
  have ht := (s.headerLoaded base h).refreshMark_transports
  generalize (s.headerLoaded base h).refreshMark = v at e o hh he ht
  rw [e]
  refine ⟨ht, o.writer, o.hostMem, ?_, ?_, ?_, ?_, ?_, ?_, ?_, ?_, o.lanes⟩
  · have k := congrArg HoldStore.free hh
    exact k
  · have k := congrArg HoldStore.reserved hh
    exact k
  · have k := congrArg HoldStore.waiting hh
    exact k
  · refine (iff_of_eq (congrArg (fun k : HoldStore => k.below = true) hh)).trans decide_eq_true_iff
  · refine he.trans ?_
    by_cases hb : s.hold.freePages < h.lowMark
    · rw [if_pos hb]
      exact if_pos ⟨hb, rfl⟩
    · rw [if_neg hb]
      refine (if_neg fun k => hb k.1).trans ?_
      exact (BitVec.or_zero).symm
  · have k := congrArg HoldStore.lowMark hh
    exact k
  · have k := congrArg (fun r : RoomInterface => { r with sweep := .inFlight 0 }.core) o.room
    exact k
  · have k := congrArg RoomInterface.pollTimer o.room
    exact k

/-- The end of a step that loaded a header. -/
theorem finish_loadHeader (hs : s.room.sweep = .idle) {u : State} (hu : u = (s.loadHeader base h).finishVia s [] allTransports) :
    u.room.part = .active ∧ u.room.startResult = .ok ∧ u.room.startInFlight = none ∧ u.room.sweep = .inFlight 0 ∧
    u.room.table = some (h.table base) ∧
    u.room.pollTimer = (if s.room.pollPeriod = 0 then none else some s.room.pollPeriod) ∧
    u.hold.lowMark = h.lowMark ∧ (∀ t : TransportNo, u.room.status[t] ≠ .idle) ∧
    (∀ t, (u.tr t).batch.candidate = (s.tr t).batch.candidate) ∧
    ∀ n : LaneNo, (u.lane n).flushTime = h.laneFlush[n] ∧ (u.lane n).sequence = 0 ∧ (u.lane n).bin = none ∧
      (h.laneHead[n] = 0 → (u.lane n).state = .unused) ∧
      (h.laneHead[n] ≠ 0 → (u.lane n).state = .idle ∧ (u.lane n).cursor = .at h.laneHead[n]) := by
  have hstat : ∀ t : TransportNo, u.room.status[t] ≠ .idle := fun t => by
    rw [hu]
    exact status_finishVia _ s [] (mem_allTransports t)
  obtain ⟨ht, -, -, -, -, -, -, -, hmark, hroom, htimer, hlanes⟩ := loadHeader_spec (base := base) (h := h) hs
  have hcore := (quiet_finishVia (s.loadHeader base h) s [] allTransports).room
  have hin := within_finishVia (s.loadHeader base h) s [] allTransports
  have hkept := finish_kept (s.loadHeader base h) s allTransports
  have htr : ∀ t, (s.loadHeader base h).tr t = s.tr t := fun t => by unfold tr; rw [ht]
  have hlane : ∀ n, (s.loadHeader base h).lane n = laneAtStart h.laneHead[n] h.laneFlush[n] := fun n => by
    unfold lane
    rw [hlanes]
    exact Vector.getElem_ofFn _
  unfold finish at hkept
  rw [← hu] at hcore hin hkept
  clear hu
  generalize s.loadHeader base h = w at *
  obtain ⟨c1, c2, c3, c4, c5⟩ := RoomInterface.core_kept (hcore.trans hroom)
  have hpart : w.room.part = .active := by
    have e := congrArg RoomInterface.part hroom
    exact e
  obtain ⟨k1, k2⟩ := hkept
  refine ⟨c1, c2, c3, c4, c5, ?_, k1.trans hmark, hstat, fun t => ?_, fun n => ?_⟩
  · exact (k2 (by rw [hpart]; decide)).1.trans htimer
  · obtain ⟨-, -, -, -, ⟨b1, -⟩, -⟩ := hin.transports t
    rw [← htr t]
    exact b1
  · obtain ⟨l1, l2, l3, l4, l5, -⟩ := hin.lanes n
    rw [hlane n] at l1 l2 l3 l4 l5
    obtain ⟨g1, g2, g3, g4, g5⟩ := laneAtStart_spec h.laneHead[n] h.laneFlush[n]
    exact ⟨l4.trans g1, l5.trans g2, l3.trans g3, fun e => l1.trans (g4 e), fun e => ⟨l1.trans (g5 e).1, l2.trans (g5 e).2⟩⟩

end State

open State in
/-- Settles O35. -/
theorem startHeader : Obligations.StartHeader := by
  refine ⟨fun s base hf => ⟨?_, fun bytes => ?_⟩, fun h total => ?_⟩
  · show execStartHeaderReadDone .busError s = _
    unfold execStartHeaderReadDone
    rw [hf]
    rfl
  · intro h v
    have he : exec (.startHeaderReadDone (.data bytes)) s = .next (s.judgeStart base (.data bytes)) := by
      show execStartHeaderReadDone (.data bytes) s = _
      unfold execStartHeaderReadDone
      rw [hf]
    refine ⟨fun hv => he.trans (congrArg _ (if_neg hv)), fun hv hs => ?_⟩
    obtain ⟨a1, a2, a3, a4, a5, a6, a7, a8, -⟩ := loadHeader_spec (base := base) (h := h) hs
    exact ⟨_, s.loadHeader base h, he.trans (congrArg _ (if_pos hv)), rfl, a1, a2, a3, a4, a5, a6, a7, a8, finish_loadHeader hs rfl⟩
  · intro blocks aligned inRange
    have ha : aligned ↔ h.Aligned := by
      refine and_congr ?_ h.forall_laneHead_iff.symm
      exact ((forall₂_congr fun a _ => multipleOf_iff a 64).trans (h.forall_blocks_iff fun a => a.toNat % 64 = 0)).symm
    have hr : inRange ↔ h.InRange total := and_congr_left fun _ => (h.forall_blocks_iff (· ≠ 0)).symm
    rw [ha, hr]
    exact ⟨fun hv => Header.judge_of_version hv, fun hv ha => Header.judge_of_misaligned hv ha,
      fun hv ha => (Header.judge_of_aligned hv ha).1, fun hv ha => (Header.judge_of_aligned hv ha).2⟩

end Sys2Proof.Machine

end

/-! PROOFS. The halt and its effect on a transport by its state (02 Table 2-6, 09 section 9.3). -/

section

namespace Sys2Proof.Machine

namespace Transport

variable {x : Transport}

theorem motorOff_reference (x : Transport) : x.motorOff.dfu.reference = x.dfu.reference ∧ x.motorOff.setup = x.setup ∧
    x.motorOff.purpose = x.purpose := by
  unfold motorOff abandonRunIn
  dsimp only
  split <;> exact ⟨rfl, rfl, rfl⟩

/-- The halt of a READY transport is its way to OFF (R46). -/
theorem halted_of_ready (h : x.state = .ready) : x.halted.state = .off ∧ x.halted.motor = .standing ∧ x.halted.clutch = false ∧
    x.halted.runOffTimer = none ∧ x.halted.setup = x.setup ∧ x.halted.dfu.reference = x.dfu.reference ∧
    x.halted.batch = { x.batch with take := none } := by
  unfold halted
  rw [h]
  obtain ⟨m1, m2, m3, -, m5, -, -⟩ := ({ x with state := .off, coverWait := false } : Transport).motorOff_spec
  obtain ⟨k1, k2, -⟩ := ({ x with state := .off, coverWait := false } : Transport).motorOff_reference
  exact ⟨m5, m1, m2, m3, k2, k1, rfl⟩

/-- The halt of a PAUSED transport begins its drain with the motor off (R46). -/
theorem halted_of_paused (h : x.state = .paused) : x.halted.state = .draining ∧ x.halted.purpose = .halt ∧
    x.halted.motor = .standing ∧ x.halted.runOffTimer = none ∧ x.halted.batch = x.batch := by
  unfold halted
  rw [h]
  obtain ⟨m1, -, m3, -, m5, -, m7⟩ := ({ x with state := .draining, purpose := .halt } : Transport).motorOff_spec
  obtain ⟨-, -, k3⟩ := ({ x with state := .draining, purpose := .halt } : Transport).motorOff_reference
  exact ⟨m5, k3, m1, m3, m7⟩

end Transport

/-- What a write of the period leaves alone. -/
theorem State.writePeriod_kept (s : State) (p : Byte) : (s.writePeriod p).hold = s.hold ∧ (s.writePeriod p).lanes = s.lanes ∧
    (s.writePeriod p).hostMem = s.hostMem ∧ (s.writePeriod p).room.part = s.room.part ∧
    ∀ t, (s.writePeriod p).tr t = s.tr t := by
  obtain ⟨timer, e⟩ := s.writePeriod_eq p
  rw [e]
  exact ⟨rfl, rfl, rfl, rfl, fun _ => rfl⟩

/-- The state of a halt taken in ACTIVE before the end of its step. -/
def State.halting (w : State) : State := (w.modRoom fun r => { r with part := .halting }).eachTransport Transport.halted

theorem State.takeHalt_of_active {w : State} (h : w.room.part = .active) : w.takeHalt = w.halting.finish w [] := if_pos h

theorem State.takeHalt_of_other {w : State} (h : w.room.part ≠ .active) : w.takeHalt = w := if_neg h

/-- Settles O36. -/
theorem haltTaken : Obligations.HaltTaken := by
  intro s p
  obtain ⟨hhold, hlanes, hmem, hpart, htr⟩ := s.writePeriod_kept p
  refine ⟨fun h => ?_, fun h => ?_⟩
  · exact congrArg Host.Outcome.next (State.takeHalt_of_other fun k => h (hpart.symm.trans k))
  · let w := s.writePeriod p
    refine ⟨w, w.halting, rfl, congrArg Host.Outcome.next (State.takeHalt_of_active (hpart.trans h)), rfl, hhold, hlanes, hmem, fun t => ?_⟩
    · intro x y
      have hy : y = x.halted := (State.tr_eachTransport _ _ t).trans (congrArg Transport.halted (htr t))
      rw [hy]
      refine ⟨fun k => ?_, Transport.halted_of_ready, fun k => ?_, fun k kp => ?_, fun k kp => ?_, fun k kp => ?_,
        Transport.halted_of_paused, fun k kp => ?_⟩
      · unfold Transport.halted
        rw [k]
      · unfold Transport.halted
        rw [k]
      · unfold Transport.halted
        rw [k, kp]
      · unfold Transport.halted
        rcases k with k | k <;> rcases kp with kp | kp <;> rw [k, kp]
      · unfold Transport.halted
        rcases k with k | k <;> rw [k, kp]
      · unfold Transport.halted
        rcases kp with kp | kp <;> rw [k, kp]

end Sys2Proof.Machine

end

/-! PROOFS. Step 4 of a sweep: the STARVED lanes examined (07 section 7.4). -/

section

namespace Sys2Proof.Machine

/-- What the reads of a lane come to: nothing where the lane is not STARVED. -/
def Lane.exam (l : Lane) (link turn : Option MemRead) : ExamResult :=
  if l.state = .starved then examineLane l.cursor link turn else .nothing

/-- A lane whose reads are done (R135, log 50). -/
def Lane.examined (l : Lane) : ExamResult → Lane
  | .posted => if l.restart then l else { l with binTake := true }
  | .failed => l
  | .nothing => l

namespace State

variable {s u v : State} {n : LaneNo} {a b : Option MemRead}

/-- EVT.MEMFAULT is set. -/
def Memfault (s : State) : Prop := s.room.evt &&& 0x4000#16 ≠ 0

theorem memfault_setEvent (s : State) : (s.setEvent .memfault).Memfault := by
  have h : ∀ e : BitVec 16, (e ||| 0x4000#16) &&& 0x4000#16 ≠ 0 := by
    intro e h
    have hb := congrArg (·.getLsbD 14) h
    simp at hb
  exact h s.room.evt

/-- The lanes of a list examined: what a step may change of the rest. -/
structure Examined (r : LaneNo → ExamResult) (L : List LaneNo) (s v : State) : Prop where
  inside : ∀ n ∈ L, v.lane n = (s.lane n).examined (r n)
  outside : ∀ n, n ∉ L → v.lane n = s.lane n
  rest : { v with lanes := s.lanes, room := s.room } = s
  room : { v.room with evt := 0 } = { s.room with evt := 0 }
  failed : ∀ n ∈ L, r n = .failed → v.Memfault
  kept : s.Memfault → v.Memfault

/-- One lane examined (R135). -/
theorem examined_examine (s : State) (n : LaneNo) (a b : Option MemRead) :
    Examined (fun _ => (s.lane n).exam a b) [n] s (s.examine n a b) := by
  have hsame : (s.lane n).exam a b ≠ .failed → (s.lane n).examined ((s.lane n).exam a b) = s.lane n →
      Examined (fun _ => (s.lane n).exam a b) [n] s s := fun hf he =>
    ⟨fun i hi => by rw [List.mem_singleton.mp hi]; exact he.symm, fun _ _ => rfl, rfl, rfl, fun _ _ k => absurd k hf, id⟩
  by_cases hs : (s.lane n).state = .starved
  · have hx : (s.lane n).exam a b = examineLane (s.lane n).cursor a b := if_pos hs
    have he : s.examine n a b = _ := if_pos hs
    rw [he]
    cases hr : examineLane (s.lane n).cursor a b with
    | nothing => exact hsame (by rw [hx, hr]; decide) (by rw [hx, hr]; rfl)
    | failed =>
      refine ⟨fun i hi => ?_, fun _ _ => rfl, rfl, rfl, fun _ _ _ => s.memfault_setEvent, fun _ => s.memfault_setEvent⟩
      rw [hx, hr]
      rfl
    | posted =>
      dsimp only
      split
      · next h => exact hsame (by rw [hx, hr]; decide) (by rw [hx, hr]; exact if_pos h)
      · next h =>
        refine ⟨fun i hi => ?_, fun i hi => ?_, rfl, rfl, fun _ _ k => ?_, id⟩
        · rw [List.mem_singleton.mp hi, hx, hr]
          exact (s.lane_setLane_self n _).trans (if_neg h).symm
        · exact s.lane_setLane_of_ne _ fun e => hi (List.mem_singleton.mpr e)
        · rw [hx, hr] at k
          cases k
  · have hx : (s.lane n).exam a b = .nothing := if_neg hs
    rw [show s.examine n a b = s from if_neg hs]
    exact hsame (by rw [hx]; decide) (by rw [hx]; rfl)

/-- The lanes of a list without repeats, each by its own reads. -/
theorem examined_foldl (links turns : LaneNo → Option MemRead) (s : State) {L : List LaneNo} (hL : L.Nodup) :
    Examined (fun n => (s.lane n).exam (links n) (turns n)) L s (L.foldl (fun s n => s.examine n (links n) (turns n)) s) := by
  induction L generalizing s with
  | nil => exact ⟨fun _ h => absurd h (by simp), fun _ _ => rfl, rfl, rfl, fun _ h => absurd h (by simp), id⟩
  | cons n L ih =>
    obtain ⟨hn, hL⟩ := List.nodup_cons.mp hL
    have h := examined_examine s n (links n) (turns n)
    have g := ih (s.examine n (links n) (turns n)) hL
    have hout : ∀ i ∈ L, (s.examine n (links n) (turns n)).lane i = s.lane i := fun i hi =>
      h.outside i fun e => hn (List.mem_singleton.mp e ▸ hi)
    refine ⟨fun i hi => ?_, fun i hi => ?_, ?_, g.room.trans h.room, fun i hi k => ?_, fun k => g.kept (h.kept k)⟩
    · rcases List.mem_cons.mp hi with rfl | hi
      · exact (g.outside _ hn).trans (h.inside _ (List.mem_singleton.mpr rfl))
      · refine (g.inside i hi).trans ?_
        rw [hout i hi]
    · exact (g.outside i fun k => hi (List.mem_cons_of_mem _ k)).trans
        (h.outside i fun k => hi (List.mem_cons.mpr (.inl (List.mem_singleton.mp k))))
    · have e := congrArg (fun w : State => { w with lanes := s.lanes, room := s.room }) g.rest
      exact e.trans h.rest
    · rcases List.mem_cons.mp hi with rfl | hi
      · exact g.kept (h.failed _ (List.mem_singleton.mpr rfl) k)
      · exact g.failed i hi (by rw [hout i hi]; exact k)

end State

/-- The read made for a lane, where no lane is read twice. -/
theorem readFor_eq {reads : List LaneRead} (h : (reads.map (·.lane)).Nodup) {n : LaneNo} {m : MemRead}
    (hm : { lane := n, read := m } ∈ reads) : readFor reads n = some m := by
  unfold readFor
  cases hf : reads.find? (fun r => r.lane == n) with
  | none => exact absurd (List.find?_eq_none.mp hf _ hm) (by simp)
  | some q =>
    have hq : q.lane = n := by simpa using List.find?_some hf
    have e := List.inj_on_of_nodup_map h (List.mem_of_find?_eq_some hf) hm hq
    rw [e]
    rfl

theorem readFor_none {reads : List LaneRead} {n : LaneNo} (h : ∀ m, { lane := n, read := m } ∉ reads) : readFor reads n = none := by
  unfold readFor
  rw [Option.map_eq_none_iff, List.find?_eq_none]
  intro q hq hn
  have e : q.lane = n := by simpa using hn
  exact h q.read (e ▸ hq)

/-! ### The reads of one lane -/

namespace Lane

variable {l : Lane} {link turn : Option MemRead} {bytes k : List Byte}

theorem examined_of_ne {r : ExamResult} (h : r ≠ .posted) : l.examined r = l := by
  cases r <;> first | rfl | exact absurd rfl h

theorem exam_at (hs : l.state = .starved) (h : ∃ a, l.cursor = .at a) : l.exam link turn = examineTurn turn := by
  obtain ⟨a, h⟩ := h
  unfold exam examineLane
  rw [if_pos hs, h]

theorem exam_link (hs : l.state = .starved) (h : ∀ a, l.cursor ≠ .at a) : l.exam link turn = examineLink link turn := by
  unfold exam examineLane
  rw [if_pos hs]
  match hc : l.cursor with
  | .at a => exact absurd hc (h a)
  | .head => rfl
  | .after a => rfl

theorem examineTurn_posted (h : turnPosted bytes = true) : examineTurn (some (.data bytes)) = .posted := if_pos h

theorem examineTurn_not (h : turn = none ∨ ∃ bytes, turn = some (.data bytes) ∧ turnPosted bytes = false) :
    examineTurn turn = .nothing := by
  rcases h with rfl | ⟨bytes, rfl, h⟩
  · rfl
  · exact if_neg (by rw [h]; decide)

theorem examineLink_followed (h : addrField k 0 ≠ 0) : examineLink (some (.data k)) turn = examineTurn turn := if_neg h

/-- A lane whose bin's turn was not found posted begins no bin take. -/
theorem exam_ne_posted (h : turn = none ∨ ∃ bytes, turn = some (.data bytes) ∧ turnPosted bytes = false) :
    l.exam link turn ≠ .posted := by
  have hlink : examineLink link turn ≠ .posted := by
    unfold examineLink
    split
    · decide
    · decide
    · split
      · decide
      · rw [examineTurn_not h]
        decide
  unfold exam examineLane
  split
  · split
    · rw [examineTurn_not h]
      decide
    · exact hlink
    · exact hlink
  · decide

theorem exam_of_not_starved (h : l.state ≠ .starved) : l.exam link turn = .nothing := if_neg h

end Lane

open State in
/-- Settles O38. -/
theorem sweepExaminesLanes : Obligations.SweepExaminesLanes := by
  intro s links turns p hp hle ha hr hl ht
  have h := examined_foldl (readFor links) (readFor turns) s (L := allLanes) (by decide)
  generalize hv : allLanes.foldl (fun s n => s.examine n (readFor links n) (readFor turns n)) s = v at h
  have he : exec (.sweepEnd links turns) s = .next v.endSweep := by
    rw [← hv]
    exact if_pos (sweepReaches_of hp hle ha hr)
  refine ⟨v.endSweep, he, ?_, ?_, fun n => ?_⟩
  · rw [endSweep_eq]
    have e := congrArg RoomInterface.sweepCount h.room
    exact congrArg (· + 1) e
  · rw [endSweep_eq]
    exact h.rest
  · intro l link turn starved takes fails
    have hall : n ∈ allLanes := by fin_cases n <;> decide
    have hn : v.endSweep.lane n = l.examined (l.exam (readFor links n) (readFor turns n)) := by
      rw [endSweep_eq]
      exact h.inside n hall
    have htakes : l.exam (readFor links n) (readFor turns n) = .posted → takes := fun k => by rw [k] at hn; exact hn
    have hfails : l.exam (readFor links n) (readFor turns n) = .failed → fails := fun k => by
      refine ⟨by rw [k] at hn; exact hn, ?_⟩
      have hm := h.failed n hall k
      rw [endSweep_eq]
      exact hm
    have hkeeps : l.exam (readFor links n) (readFor turns n) ≠ .posted → v.endSweep.lane n = l := fun k =>
      hn.trans (Lane.examined_of_ne k)
    refine ⟨fun a bytes hs hc hb hpost => htakes ?_, fun hs hc hb => hfails ?_, fun hs hc => ⟨fun hb => hfails ?_,
      fun k hk hz => hkeeps ?_, fun k hk hz => ⟨fun bytes hb hpost => htakes ?_, fun hb => hfails ?_⟩⟩,
      fun bytes hb hpost => hkeeps ?_, fun hs => hkeeps ?_⟩
    · rw [Lane.exam_at hs ⟨a, hc⟩, readFor_eq ht hb]
      exact Lane.examineTurn_posted hpost
    · rw [Lane.exam_at hs hc, readFor_eq ht hb]
      rfl
    · rw [Lane.exam_link hs hc, readFor_eq hl hb]
      rfl
    · rw [Lane.exam_link hs hc, readFor_eq hl hk]
      exact fun e => by rw [show examineLink (some (.data k)) (readFor turns n) = .nothing from if_pos hz] at e; cases e
    · rw [Lane.exam_link hs hc, readFor_eq hl hk, Lane.examineLink_followed hz, readFor_eq ht hb]
      exact Lane.examineTurn_posted hpost
    · rw [Lane.exam_link hs hc, readFor_eq hl hk, Lane.examineLink_followed hz, readFor_eq ht hb]
      rfl
    · exact Lane.exam_ne_posted (.inr ⟨bytes, readFor_eq ht hb, hpost⟩)
    · rcases hs with hs | hs
      · rw [Lane.exam_of_not_starved hs]
        decide
      · exact Lane.exam_ne_posted (.inl (readFor_none hs))

end Sys2Proof.Machine

end

/-! PROOFS. The records the part reads, field by field (10 Tables 10-1 to 10-5). -/

section

namespace Sys2Proof.Machine

/-! ### Fields and codes -/

theorem field_lt (b : List Byte) (o n : Nat) : field b o n < 256 ^ n := by
  induction n generalizing o with
  | zero => exact Nat.one_pos
  | succ n ih =>
    have hb := (b.getD o 0).isLt
    have hr := ih (o + 1)
    rw [field, pow_succ]
    omega

theorem toNat_field (b : List Byte) (o : Nat) : (BitVec.ofNat 32 (field b o 4)).toNat = field b o 4 := by
  rw [BitVec.toNat_ofNat]
  exact Nat.mod_eq_of_lt (field_lt b o 4)

theorem toNat_addrField (b : List Byte) (o : Nat) : (addrField b o).toNat = field b o 8 := by
  rw [addrField, BitVec.toNat_ofNat]
  exact Nat.mod_eq_of_lt (field_lt b o 8)

theorem multiplierOf_eq_some {n : Nat} {m : Multiplier} : multiplierOf n = some m ↔
    (n = 1 ∧ m = .x1) ∨ (n = 2 ∧ m = .x2) ∨ (n = 4 ∧ m = .x4) := by
  unfold multiplierOf
  split <;> simp_all [eq_comm]

theorem boolOf_eq_some {n : Nat} {v : Bool} : boolOf n = some v ↔ n ≤ 1 ∧ (v = true ↔ n = 1) := by
  unfold boolOf
  split
  · cases v <;> simp
  · cases v <;> simp
  · next h0 h1 =>
    simp only [reduceCtorEq, false_iff, not_and]
    intro h
    interval_cases n <;> first | exact absurd rfl h0 | exact absurd rfl h1

theorem actionOf_eq_some {n : Nat} {a : Action} : actionOf n = some a ↔ n ≤ 2 ∧ a.rank = n + 1 := by
  unfold actionOf
  split
  · cases a <;> simp [Action.rank]
  · cases a <;> simp [Action.rank]
  · cases a <;> simp [Action.rank]
  · next h0 h1 h2 =>
    simp only [reduceCtorEq, false_iff, not_and]
    intro h
    interval_cases n <;> first | exact absurd rfl h0 | exact absurd rfl h1 | exact absurd rfl h2

theorem sidesOf_eq_some {n : Nat} {d : SideChoice} : sidesOf n = some d ↔
    n ≤ 2 ∧ (d = .front ↔ n = 0) ∧ (d = .back ↔ n = 1) := by
  unfold sidesOf
  split
  · cases d <;> simp
  · cases d <;> simp
  · cases d <;> simp
  · next h0 h1 h2 =>
    simp only [reduceCtorEq, false_iff, not_and]
    intro h
    interval_cases n <;> first | exact absurd rfl h0 | exact absurd rfl h1 | exact absurd rfl h2

theorem formatOf_eq_some {n : Nat} {d : Format} : formatOf n = some d ↔
    n ≤ 2 ∧ (d = .colour ↔ n = 0) ∧ (d = .grey ↔ n = 1) := by
  unfold formatOf
  split
  · cases d <;> simp
  · cases d <;> simp
  · cases d <;> simp
  · next h0 h1 h2 =>
    simp only [reduceCtorEq, false_iff, not_and]
    intro h
    interval_cases n <;> first | exact absurd rfl h0 | exact absurd rfl h1 | exact absurd rfl h2

/-! ### The setup block -/

theorem parseSetup_eq_some {b : List Byte} {c : SetupBlock} : parseSetup b = some c ↔
    multiplierOf (field b 0 1) = some c.multiplier ∧ field b 27 1 ≤ 1 ∧ (setupFields b).inRange = true ∧
      c.debounce = field b 22 1 % 16 ∧ c.fields = setupFields b := by
  have hb : field b 27 1 ≤ 1 ↔ ∃ v, boolOf (field b 27 1) = some v := by
    simp only [boolOf_eq_some, exists_and_left, iff_self_and]
    exact fun _ => ⟨decide (field b 27 1 = 1), by simp⟩
  rw [hb]
  unfold parseSetup
  cases hm : multiplierOf (field b 0 1) with
  | none => simp
  | some m =>
    cases hv : boolOf (field b 27 1) with
    | none => simp
    | some v =>
      obtain ⟨cm, cd, cf⟩ := c
      simp only [Option.ite_none_right_eq_some, Option.some.injEq, SetupBlock.mk.injEq, exists_eq', true_and, eq_comm]
      tauto

theorem setup_inRange_iff (u : Setup) : u.inRange = true ↔ u.scaleMode ≤ 2 ∧ u.scale ≠ 0 ∧ 0 < u.dDF ∧ u.dDF < u.dMK ∧
    u.dMK < u.dCF ∧ u.dCF < u.dCB ∧ u.dCB < u.dEX ∧ u.pickWindow ≠ 0 ∧ u.stallTime ≠ 0 ∧ u.runInDistance ≤ 4095 ∧
    u.pickRetries ≤ 3 ∧ 1 ≤ u.sampleDistance ∧ u.sampleDistance ≤ 64 ∧ u.amplitudeFloor ≤ 1023 ∧ 64 ≤ u.width ∧
    u.width ≤ 3072 := by
  unfold Setup.inRange
  simp only [Bool.and_eq_true, decide_eq_true_eq, and_assoc]

theorem parseSetup_isSome_iff (b : List Byte) : (∃ c, parseSetup b = some c) ↔
    (∃ m, multiplierOf (field b 0 1) = some m) ∧ field b 27 1 ≤ 1 ∧ (setupFields b).inRange = true := by
  refine ⟨fun ⟨c, h⟩ => ?_, fun ⟨⟨m, hm⟩, hb, hr⟩ =>
    ⟨{ multiplier := m, debounce := field b 22 1 % 16, fields := setupFields b }, parseSetup_eq_some.mpr ⟨hm, hb, hr, rfl, rfl⟩⟩⟩
  obtain ⟨hm, hb, hr, -⟩ := parseSetup_eq_some.mp h
  exact ⟨⟨_, hm⟩, hb, hr⟩

/-! ### The profile -/

/-- The zones of a profile. -/
theorem zonesOf_all {b : List Byte} {n : Nat} (hn : n ≤ 4) : ((zonesOf b (min 4 n)).all fun z => decide (z.1 < z.2)) = true ↔
    ∀ i, i < n → field b (16 + 4 * i) 2 < field b (18 + 4 * i) 2 := by
  rw [Nat.min_eq_right hn]
  unfold zonesOf
  simp

/-- The profile of a block's bytes by the codes of its fields. -/
def profileWith (b : List Byte) (suspect short : Action) (check wait drop : Bool) (sides : SideChoice) (front back : Format)
    (blank : Bool) : Profile :=
  { qIn := field b 0 1, qOut := field b 1 1, overlapMin := field b 2 2, lMax := field b 4 2, nominal := field b 6 2,
    longTol := field b 8 2, shortTol := field b 10 2, suspectAction := suspect, shortAction := short, group := field b 15 1,
    zones := zonesOf b (min 4 (field b 14 1)), markCheck := check, markWait := wait, markWindow := field b 34 2,
    barMin := field b 36 2, barMax := field b 38 2, dividerDrop := drop, sides, formatFront := front, formatBack := back,
    pitch := field b 44 4, reserveLines := field b 48 2, repairLimit := field b 50 2, sideMargin := field b 52 2,
    topMargin := field b 54 2, blankLimit := field b 56 2, bottomMargin := min 64 (field b 58 1),
    inkLevel := max 1 (field b 59 1), blankDrop := blank }

theorem parseProfile_eq_some {b : List Byte} {p : Profile} : parseProfile b = some p ↔
    ∃ suspect short check wait drop sides front back blank,
      actionOf (field b 12 1) = some suspect ∧ actionOf (field b 13 1) = some short ∧ boolOf (field b 32 1) = some check ∧
      boolOf (field b 33 1) = some wait ∧ boolOf (field b 40 1) = some drop ∧ sidesOf (field b 41 1) = some sides ∧
      formatOf (field b 42 1) = some front ∧ formatOf (field b 43 1) = some back ∧ boolOf (field b 60 1) = some blank ∧
      (profileWith b suspect short check wait drop sides front back blank).inRange (field b 14 1) = true ∧
      p = profileWith b suspect short check wait drop sides front back blank := by
  unfold parseProfile
  simp only [Option.bind_eq_bind, Option.bind_eq_some_iff, Option.ite_none_right_eq_some, Option.some.injEq, profileWith]
  constructor
  · rintro ⟨a1, h1, a2, h2, a3, h3, a4, h4, a5, h5, a6, h6, a7, h7, a8, h8, a9, h9, hr, rfl⟩
    exact ⟨a1, a2, a3, a4, a5, a6, a7, a8, a9, h1, h2, h3, h4, h5, h6, h7, h8, h9, hr, rfl⟩
  · rintro ⟨a1, a2, a3, a4, a5, a6, a7, a8, a9, h1, h2, h3, h4, h5, h6, h7, h8, h9, hr, rfl⟩
    exact ⟨a1, h1, a2, h2, a3, h3, a4, h4, a5, h5, a6, h6, a7, h7, a8, h8, a9, h9, hr, rfl⟩

theorem profile_inRange_iff (b : List Byte) (suspect short : Action) (check wait drop : Bool) (sides : SideChoice)
    (front back : Format) (blank : Bool) :
    (profileWith b suspect short check wait drop sides front back blank).inRange (field b 14 1) = true ↔
    field b 0 1 ≠ 0 ∧ field b 0 1 < field b 1 1 ∧ field b 14 1 ≤ 4 ∧
    (∀ i, i < field b 14 1 → field b (16 + 4 * i) 2 < field b (18 + 4 * i) 2) ∧ field b 4 2 ≠ 0 ∧ field b 6 2 ≤ field b 4 2 ∧
    field b 15 1 ≤ 15 ∧ field b 36 2 ≤ field b 38 2 ∧ 65536 ≤ field b 44 4 ∧ field b 44 4 ≤ 4194304 ∧ field b 48 2 ≠ 0 := by
  unfold Profile.inRange profileWith
  by_cases hz : field b 14 1 ≤ 4
  · simp only [Bool.and_eq_true, decide_eq_true_eq, and_assoc, zonesOf_all hz]
  · simp [hz]

/-- A code with a meaning for every value up to a bound. -/
theorem boolOf_isSome_iff (n : Nat) : (∃ v, boolOf n = some v) ↔ n ≤ 1 :=
  ⟨fun ⟨_, h⟩ => (boolOf_eq_some.mp h).1, fun h => ⟨decide (n = 1), boolOf_eq_some.mpr ⟨h, by simp⟩⟩⟩

theorem actionOf_isSome_iff (n : Nat) : (∃ v, actionOf n = some v) ↔ n ≤ 2 := by
  refine ⟨fun ⟨_, h⟩ => (actionOf_eq_some.mp h).1, fun h => ?_⟩
  interval_cases n <;> exact ⟨_, rfl⟩

theorem sidesOf_isSome_iff (n : Nat) : (∃ v, sidesOf n = some v) ↔ n ≤ 2 := by
  refine ⟨fun ⟨_, h⟩ => (sidesOf_eq_some.mp h).1, fun h => ?_⟩
  interval_cases n <;> exact ⟨_, rfl⟩

theorem formatOf_isSome_iff (n : Nat) : (∃ v, formatOf n = some v) ↔ n ≤ 2 := by
  refine ⟨fun ⟨_, h⟩ => (formatOf_eq_some.mp h).1, fun h => ?_⟩
  interval_cases n <;> exact ⟨_, rfl⟩

/-! ### The statement -/

/-- Settles O39. -/
theorem recordRanges : Obligations.RecordRanges := by
  refine ⟨fun b => ?_, fun b c h => ?_, fun b => ?_, fun b p h => ?_, fun b => ?_, fun b => ?_⟩
  · intro f
    have hm : (∃ m, multiplierOf (f 0 1) = some m) ↔ f 0 1 = 1 ∨ f 0 1 = 2 ∨ f 0 1 = 4 := by
      simp only [multiplierOf_eq_some, exists_or, exists_and_left, exists_eq, and_true]
    rw [parseSetup_isSome_iff, setup_inRange_iff, hm]
    constructor
    · rintro ⟨hm, hb, h1, h2, h3, h4, h5, h6, h7, h8, h9, h10, h11, h12, h13, h14, h15, h16⟩
      exact ⟨hm, h1, h2, h3, h4, h5, h6, h7, h8, h10, h9, h11, h12, h13, hb, h14, h15, h16⟩
    · rintro ⟨hm, h1, h2, h3, h4, h5, h6, h7, h8, h10, h9, h11, h12, h13, hb, h14, h15, h16⟩
      exact ⟨hm, hb, h1, h2, h3, h4, h5, h6, h7, h8, h9, h10, h11, h12, h13, h14, h15, h16⟩
  · obtain ⟨hm, hb, -, hd, hf⟩ := parseSetup_eq_some.mp h
    rw [multiplierOf_eq_some] at hm
    intro f u
    have hu : u = setupFields b := hf
    rw [hu]
    refine ⟨?_, ?_, hd, rfl, rfl, rfl, rfl, rfl, rfl, rfl, rfl, rfl, rfl, rfl, rfl, rfl, rfl, rfl, beq_iff_eq, rfl, rfl, rfl, rfl, rfl⟩
    · rcases hm with ⟨e, m⟩ | ⟨e, m⟩ | ⟨e, m⟩ <;> simp [f, e, m]
    · rcases hm with ⟨e, m⟩ | ⟨e, m⟩ | ⟨e, m⟩ <;> simp [f, e, m]
  · intro f
    constructor
    · rintro ⟨p, h⟩
      obtain ⟨a1, a2, a3, a4, a5, a6, a7, a8, a9, h1, h2, h3, h4, h5, h6, h7, h8, h9, hr, -⟩ := parseProfile_eq_some.mp h
      obtain ⟨r1, r2, r3, r4, r5, r6, r7, r8, r9, r10, r11⟩ := (profile_inRange_iff b a1 a2 a3 a4 a5 a6 a7 a8 a9).mp hr
      exact ⟨r1, r2, r5, r6, (actionOf_isSome_iff _).mp ⟨a1, h1⟩, (actionOf_isSome_iff _).mp ⟨a2, h2⟩, r3, r7, r4,
        (boolOf_isSome_iff _).mp ⟨a3, h3⟩, (boolOf_isSome_iff _).mp ⟨a4, h4⟩, r8, (boolOf_isSome_iff _).mp ⟨a5, h5⟩,
        (sidesOf_isSome_iff _).mp ⟨a6, h6⟩, (formatOf_isSome_iff _).mp ⟨a7, h7⟩, (formatOf_isSome_iff _).mp ⟨a8, h8⟩, r9, r10,
        r11, (boolOf_isSome_iff _).mp ⟨a9, h9⟩⟩
    · rintro ⟨r1, r2, r5, r6, h1, h2, r3, r7, r4, h3, h4, r8, h5, h6, h7, h8, r9, r10, r11, h9⟩
      obtain ⟨a1, h1⟩ := (actionOf_isSome_iff _).mpr h1
      obtain ⟨a2, h2⟩ := (actionOf_isSome_iff _).mpr h2
      obtain ⟨a3, h3⟩ := (boolOf_isSome_iff _).mpr h3
      obtain ⟨a4, h4⟩ := (boolOf_isSome_iff _).mpr h4
      obtain ⟨a5, h5⟩ := (boolOf_isSome_iff _).mpr h5
      obtain ⟨a6, h6⟩ := (sidesOf_isSome_iff _).mpr h6
      obtain ⟨a7, h7⟩ := (formatOf_isSome_iff _).mpr h7
      obtain ⟨a8, h8⟩ := (formatOf_isSome_iff _).mpr h8
      obtain ⟨a9, h9⟩ := (boolOf_isSome_iff _).mpr h9
      exact ⟨_, parseProfile_eq_some.mpr ⟨a1, a2, a3, a4, a5, a6, a7, a8, a9, h1, h2, h3, h4, h5, h6, h7, h8, h9,
        (profile_inRange_iff b a1 a2 a3 a4 a5 a6 a7 a8 a9).mpr ⟨r1, r2, r3, r4, r5, r6, r7, r8, r9, r10, r11⟩, rfl⟩⟩
  · obtain ⟨a1, a2, a3, a4, a5, a6, a7, a8, a9, h1, h2, h3, h4, h5, h6, h7, h8, h9, hr, rfl⟩ := parseProfile_eq_some.mp h
    obtain ⟨-, -, hz, -⟩ := (profile_inRange_iff b a1 a2 a3 a4 a5 a6 a7 a8 a9).mp hr
    intro f
    refine ⟨rfl, rfl, rfl, rfl, rfl, rfl, rfl, (actionOf_eq_some.mp h1).2, (actionOf_eq_some.mp h2).2, rfl, ?_, fun i z hi => ?_,
      (boolOf_eq_some.mp h3).2, (boolOf_eq_some.mp h4).2, rfl, rfl, rfl, (boolOf_eq_some.mp h5).2, (sidesOf_eq_some.mp h6).2.1,
      (sidesOf_eq_some.mp h6).2.2, (formatOf_eq_some.mp h7).2.1, (formatOf_eq_some.mp h7).2.2, (formatOf_eq_some.mp h8).2.1,
      (formatOf_eq_some.mp h8).2.2, rfl, rfl, rfl, rfl, rfl, rfl, rfl, rfl, (boolOf_eq_some.mp h9).2⟩
    · simp [profileWith, zonesOf, f, hz]
    · simp only [profileWith, zonesOf, List.getElem?_map, Option.map_eq_some_iff] at hi
      obtain ⟨k, hk, rfl⟩ := hi
      have e := (List.getElem?_eq_some_iff.mp hk).2
      rw [List.getElem_range] at e
      rw [e]
  · intro f h
    refine ⟨rfl, rfl, rfl, rfl, toNat_addrField _ _, toNat_addrField _ _, toNat_addrField _ _, fun t => ⟨?_, ?_, ?_⟩, fun n => ⟨?_, ?_⟩⟩
    · exact (congrArg BitVec.toNat (Vector.getElem_ofFn _)).trans (toNat_addrField _ _)
    · exact (congrArg BitVec.toNat (Vector.getElem_ofFn _)).trans (toNat_addrField _ _)
    · exact (congrArg BitVec.toNat (Vector.getElem_ofFn _)).trans (toNat_addrField _ _)
    · exact (congrArg BitVec.toNat (Vector.getElem_ofFn _)).trans (toNat_addrField _ _)
    · refine (Vector.getElem_ofFn _).trans ?_
      show field b (168 + 16 * n.val + 8) 2 = field b (176 + 16 * n.val) 2
      rw [show 168 + 16 * n.val + 8 = 176 + 16 * n.val by omega]
  · intro f k
    refine ⟨?_, ?_, rfl, rfl, rfl, rfl, toNat_field _ _, rfl, toNat_field _ _⟩
    · rw [Nat.testBit_eq_decide_div_mod_eq]
      simp [k, parseTicket, f]
      rfl
    · rw [Nat.testBit_eq_decide_div_mod_eq]
      simp [k, parseTicket, f]
      rfl

end Sys2Proof.Machine

end

/-! PROOFS. What the end of a step can do to a transport: one rule for every relation that its stages keep, and what it leaves of the
waiting list. -/

section

namespace Sys2Proof.Machine

namespace State

variable {s u v : State} {t i : TransportNo} {R : Transport → Transport → Prop}

/-! ### The changes of the end of a step -/

/-- A relation kept by every change that the end of a step makes to a transport but for the picks (log 10). -/
structure StageSteps (R : Transport → Transport → Prop) : Prop where
  refl : ∀ x, R x x
  trans : ∀ {x y z}, R x y → R y z → R x z
  settled : ∀ (x : Transport) unused r rest, x.track = r :: rest → x.canSettle r = true → R x (x.settleRecord unused r).transport
  tested : ∀ x : Transport, R x x.endTests
  waits : ∀ (x : Transport) w, R x { x with pickWait := w }
  paused : ∀ x : Transport, R x x.pauseDone
  asked : ∀ x : Transport, x.closureDue = true → R x { x with batch := { x.batch with closure := .asked x.batch.lanesTouched } }
  closed : ∀ (x : Transport) n, R x (x.laneClosed n)
  outcome : ∀ x : Transport, x.state = .draining → x.batch.closure = .asked [] → R x x.beginOutcome
  left : ∀ x : Transport, x.state = .draining → x.batch.closure = .written →
    R x ({ x with batch := { x.batch with closure := .notAsked } } : Transport).leaveDraining
  touched : ∀ (x : Transport) n, R x (x.touch n)

/-- Such a relation, kept by every pick of a part with n pages too. -/
structure EndStepsAt (n : Nat) (R : Transport → Transport → Prop) : Prop extends StageSteps R where
  picked : ∀ {x y : Transport}, x.MayPick n y → R x y

/-- Such a relation, kept by every pick whatever the size of the store. -/
structure EndSteps (R : Transport → Transport → Prop) : Prop extends StageSteps R where
  picked : ∀ {x y : Transport} {n : Nat}, x.MayPick n y → R x y

/-- Every transport by itself. -/
def Along (R : Transport → Transport → Prop) (s u : State) : Prop := ∀ i, R (s.tr i) (u.tr i)

/-- Every transport by itself, in a part with n pages. -/
def AlongAt (n : Nat) (R : Transport → Transport → Prop) (s u : State) : Prop :=
  s.hold.total = n → u.hold.total = n ∧ Along R s u

namespace EndStepsAt

variable {n : Nat} (k : EndStepsAt n R)
include k

theorem next (h : AlongAt n R s u) (g : AlongAt n R u v) : AlongAt n R s v := fun e =>
  have ⟨h1, h2⟩ := h e
  have ⟨g1, g2⟩ := g h1
  ⟨g1, fun i => k.trans (h2 i) (g2 i)⟩

theorem same (h : ∀ i, u.tr i = s.tr i) (hd : u.hold.total = s.hold.total) : AlongAt n R s u := fun e =>
  ⟨hd.trans e, fun i => by rw [h i]; exact k.refl _⟩

theorem setTr {x : Transport} (h : R (s.tr t) x) : AlongAt n R s (s.setTr t x) := fun e => ⟨e, fun i => by
  rw [tr_setTr]
  split
  · next e => exact e ▸ h
  · exact k.refl _⟩

theorem foldl {α : Type} {f : State → α → State} (h : ∀ (s : State) (a : α), AlongAt n R s (f s a)) (s : State) (l : List α) :
    AlongAt n R s (l.foldl f s) := by
  induction l generalizing s with
  | nil => exact k.same (fun _ => rfl) rfl
  | cons a rest ih => exact k.next (h s a) (ih _)

theorem returnPages (s : State) (pages : List Nat) (m : Nat) : AlongAt n R s (s.returnPages pages m) := fun e =>
  ⟨(poolKept_returnPages s pages m).total.trans e, fun i => k.picked (e ▸ s.mayPick_returnPages pages m i)⟩

theorem settleHead {r : SheetRecord} {rest : List SheetRecord} (h : (s.tr t).track = r :: rest)
    (hc : (s.tr t).canSettle r = true) : AlongAt n R s (s.settleHead t r) := by
  unfold State.settleHead
  exact k.next (k.setTr (k.settled _ _ _ _ h hc)) (k.next (k.returnPages _ _ _) (k.returnPages _ _ _))

theorem settleTransport (s : State) (t : TransportNo) (m : Nat) : AlongAt n R s (s.settleTransport t m) := by
  induction m generalizing s with
  | zero => exact k.same (fun _ => rfl) rfl
  | succ m ih =>
    unfold State.settleTransport
    split
    · exact k.same (fun _ => rfl) rfl
    · next h =>
      split
      · next hc => exact k.next (k.settleHead h hc) (ih _)
      · exact k.same (fun _ => rfl) rfl

theorem modAll {f : Transport → Transport} (h : ∀ x, R x (f x)) (s : State) (l : List TransportNo) :
    AlongAt n R s (l.foldl (fun s t => s.modTr t f) s) :=
  k.foldl (f := fun s t => s.modTr t f) (fun _ _ => k.setTr (h _)) s l

theorem eachTransport {f : Transport → Transport} (h : ∀ x, R x (f x)) (s : State) : AlongAt n R s (s.eachTransport f) :=
  k.modAll h s allTransports

theorem askAdmission (s : State) (t : TransportNo) : AlongAt n R s (s.askAdmission t) := by
  unfold State.askAdmission
  split
  · next h =>
    rw [Bool.and_eq_true] at h
    split
    · next hg => exact fun e => ⟨(poolKept_grant s t hg.2).total.trans e, fun i => k.picked (e ▸ s.mayPick_grant t i _ h.1)⟩
    · exact k.same (fun _ => rfl) rfl
  · exact k.same (fun _ => rfl) rfl

theorem settleStage (s : State) : AlongAt n R s s.settleStage :=
  k.next (u := s.settleAll) (k.foldl (fun s t => k.settleTransport s t _) s _) (k.eachTransport k.tested _)

theorem pickStage (s : State) : AlongAt n R s s.pickStage :=
  k.next (u := s.serveList) (fun e => ⟨s.poolKept_serveList.total.trans e, fun i => k.picked (e ▸ s.mayPick_serveList i)⟩)
    (k.next (k.foldl k.askAdmission _ allTransports) (k.modAll (fun x => k.waits x _) _ _))

theorem drainStage (s : State) : AlongAt n R s s.drainStage := k.next (k.pickStage s) (k.eachTransport k.paused _)

theorem requestClosure (s : State) (t : TransportNo) (m : LaneNo) : AlongAt n R s (s.requestClosure t m) := by
  unfold State.requestClosure
  dsimp only
  split
  · split <;> exact k.same (fun _ => rfl) rfl
  · exact k.setTr (k.closed _ m)

theorem goOnClosing (s : State) (t : TransportNo) : AlongAt n R s (s.goOnClosing t) := by
  unfold State.goOnClosing
  split
  · next h =>
    split
    · next hc => exact k.setTr (k.outcome _ h hc)
    · next hc => exact k.setTr (k.left _ h hc)
    all_goals exact k.same (fun _ => rfl) rfl
  · exact k.same (fun _ => rfl) rfl

theorem endBatch (s : State) (t : TransportNo) : AlongAt n R s (s.endBatch t) := by
  unfold State.endBatch
  split
  · next h =>
    exact k.next (k.next (k.setTr (k.asked _ h)) (k.foldl (fun s n => k.requestClosure s t n) _ _)) (k.goOnClosing _ t)
  · exact k.goOnClosing s t

theorem continueTurn (s : State) (t : TransportNo) : AlongAt n R s (s.continueTurn t) := by
  unfold State.continueTurn
  split
  · exact k.same (fun _ => rfl) rfl
  · split
    · exact k.same (fun _ => rfl) rfl
    · split
      · refine k.setTr (s := s.modLane _ _) ?_
        split
        · exact k.refl _
        · exact k.touched _ _
      · exact k.same (fun _ => rfl) rfl

theorem lookForWork (s : State) : AlongAt n R s s.lookForWork := by
  unfold State.lookForWork
  split
  · exact k.same (fun _ => rfl) rfl
  · split
    · exact k.same (fun _ => rfl) rfl
    · unfold beginTurn
      split
      · exact k.same (fun _ => rfl) rfl
      · dsimp only
        split
        · exact k.same (fun _ => rfl) rfl
        · refine k.next ?_ (k.continueTurn _ _)
          exact k.same (fun _ => rfl) rfl

theorem haltQuiet (s : State) : AlongAt n R s s.haltQuiet := by
  unfold State.haltQuiet
  split <;> exact k.same (fun _ => rfl) rfl

theorem closeStage (s : State) : AlongAt n R s s.closeStage :=
  k.next (k.next (u := allTransports.foldl State.endBatch s) (k.foldl k.endBatch s _) (k.lookForWork _)) (k.haltQuiet _)

omit k in
theorem requestStatuses_kept (s : State) (t : TransportNo) (m : Nat) :
    (∀ i, (s.requestStatuses t m).tr i = s.tr i) ∧ (s.requestStatuses t m).hold = s.hold := by
  induction m generalizing s with
  | zero => exact ⟨fun _ => rfl, rfl⟩
  | succ m ih => exact ih (s.requestStatus t)

theorem requestReports (s before : State) (path : List State) (forced : List TransportNo) :
    AlongAt n R s (s.requestReports before path forced) :=
  k.foldl (f := fun u t => u.requestStatuses t (requestsOf t before path forced)) (fun u t =>
    k.same (requestStatuses_kept u t _).1 (congrArg HoldStore.total (requestStatuses_kept u t _).2)) s _

/-- A relation that the stages keep holds from the state of an event to the end of its step. -/
theorem finishVia (s before : State) (path : List State) (forced : List TransportNo) :
    AlongAt n R s (s.finishVia before path forced) := by
  rw [finishVia_eq]
  exact k.next (k.next (k.next (k.settleStage s) (k.drainStage _)) (k.closeStage _)) (k.requestReports _ _ _ _)

end EndStepsAt

namespace EndSteps

variable (k : EndSteps R)
include k

theorem atTotal (n : Nat) : EndStepsAt n R := { k.toStageSteps with picked := k.picked }

/-- What holds of a part with any number of pages. -/
theorem along (h : ∀ {n}, EndStepsAt n R → AlongAt n R s u) : Along R s u := (h (k.atTotal s.hold.total) rfl).2

theorem foldl {α : Type} {f : State → α → State} (h : ∀ (s : State) (a : α), Along R s (f s a)) (s : State) (l : List α) :
    Along R s (l.foldl f s) := by
  induction l generalizing s with
  | nil => exact fun i => k.refl _
  | cons a rest ih => exact fun i => k.trans (h s a i) (ih _ i)

theorem askAdmission (s : State) (t : TransportNo) : Along R s (s.askAdmission t) := k.along (·.askAdmission s t)

theorem settleStage (s : State) : Along R s s.settleStage := k.along (·.settleStage s)

theorem drainStage (s : State) : Along R s s.drainStage := k.along (·.drainStage s)

theorem endBatch (s : State) (t : TransportNo) : Along R s (s.endBatch t) := k.along (·.endBatch s t)

theorem lookForWork (s : State) : Along R s s.lookForWork := k.along (·.lookForWork s)

theorem haltQuiet (s : State) : Along R s s.haltQuiet := k.along (·.haltQuiet s)

theorem requestReports (s before : State) (path : List State) (forced : List TransportNo) :
    Along R s (s.requestReports before path forced) := k.along (·.requestReports s before path forced)

/-- A relation that the stages keep holds from the state of an event to the end of its step. -/
theorem finishVia (s before : State) (path : List State) (forced : List TransportNo) :
    Along R s (s.finishVia before path forced) := k.along (·.finishVia s before path forced)

end EndSteps

/-! ### A transport with nothing in its track -/

/-- What stays of a transport that is not RUNNING and has an empty track: the counters, and, unless it is DRAINING, the state and the
outcome being written. -/
def EmptyKept (x y : Transport) : Prop :=
  x.track = [] → x.state ≠ .running → y.track = [] ∧ y.state ≠ .running ∧ y.batch.counters = x.batch.counters ∧
    (x.state ≠ .draining → y.state = x.state ∧ y.batch.outcome = x.batch.outcome ∧ y.motor = x.motor)

theorem EmptyKept.of_motor {x y : Transport} {st : TransportState} {p : Purpose} {c h : Bool} (hd : x.state = .draining)
    (hst : st ≠ .running) (g : ({ x with state := st, purpose := p, coverWait := c, haltRequest := h } : Transport).MotorOnly y) :
    EmptyKept x y := by
  obtain ⟨mo, cl, a, ro, t, d, rfl, hr, hu⟩ := g
  exact fun ht _ => ⟨ht, hst, rfl, fun hn => absurd hd hn⟩

theorem endSteps_emptyKept : EndSteps EmptyKept where
  refl x := fun h hr => ⟨h, hr, rfl, fun _ => ⟨rfl, rfl, rfl⟩⟩
  trans h g := fun ht hr => by
    obtain ⟨h1, h2, h3, h4⟩ := h ht hr
    obtain ⟨g1, g2, g3, g4⟩ := g h1 h2
    refine ⟨g1, g2, g3.trans h3, fun hd => ?_⟩
    obtain ⟨e1, e2, e3⟩ := h4 hd
    obtain ⟨f1, f2, f3⟩ := g4 (by rwa [e1])
    exact ⟨f1.trans e1, f2.trans e2, f3.trans e3⟩
  settled x _ r rest h _ := fun ht => by
    rw [ht] at h
    cases h
  picked h := fun ht hr => by
    rw [h.eq_of_state_ne hr]
    exact ⟨ht, hr, rfl, fun _ => ⟨rfl, rfl, rfl⟩⟩
  tested x := fun ht hr => by
    have e : x.endTests = x := if_neg fun k => hr (by simp only [Transport.endTest, Bool.and_eq_true, beq_iff_eq] at k; exact k.1.1)
    rw [e]
    exact ⟨ht, hr, rfl, fun _ => ⟨rfl, rfl, rfl⟩⟩
  waits x w := fun ht hr => ⟨ht, hr, rfl, fun _ => ⟨rfl, rfl, rfl⟩⟩
  paused x := by
    unfold Transport.pauseDone
    split
    · next h => exact .of_motor h.1 (by decide) (Transport.motorOnly_beginRunOff _)
    · exact fun ht hr => ⟨ht, hr, rfl, fun _ => ⟨rfl, rfl, rfl⟩⟩
  asked x _ := fun ht hr => ⟨ht, hr, rfl, fun _ => ⟨rfl, rfl, rfl⟩⟩
  closed x n := by
    unfold Transport.laneClosed
    split <;> exact fun ht hr => ⟨ht, hr, rfl, fun _ => ⟨rfl, rfl, rfl⟩⟩
  outcome x hd _ := fun ht hr => ⟨ht, hr, rfl, fun hn => absurd hd hn⟩
  left x hd _ := by
    unfold Transport.leaveDraining
    dsimp only
    split
    · exact EmptyKept.of_motor (x := { x with batch := { x.batch with closure := .notAsked } }) (st := .off) hd (by decide)
        (Transport.motorOnly_motorOff _)
    · exact EmptyKept.of_motor (x := { x with batch := { x.batch with closure := .notAsked } }) (st := .ready) hd (by decide)
        (Transport.motorOnly_beginRunOff _)
  touched x n := by
    unfold Transport.touch
    split <;> exact fun ht hr => ⟨ht, hr, rfl, fun _ => ⟨rfl, rfl, rfl⟩⟩

/-! ### The waiting list at the end of a step -/

/-- No stage brings a transport to RUNNING. -/
theorem endSteps_notRunning : EndSteps fun x y => x.state ≠ .running → y.state ≠ .running where
  refl x := id
  trans h g := g ∘ h
  settled x _ r rest h _ := id
  picked h := fun hr => by
    rw [h.eq_of_state_ne hr]
    exact hr
  tested x := fun hr => by
    unfold Transport.endTests
    split
    · rcases x.endCondition_cases with h | ⟨-, h⟩ <;> rw [h]
      · exact hr
      · exact nofun
    · exact hr
  waits x w := id
  paused x := fun hr => by
    unfold Transport.pauseDone
    split
    · obtain ⟨mo, cl, a, ro, t, d, e, -⟩ := Transport.motorOnly_beginRunOff
        ({ x with state := .paused, purpose := .none, coverWait := false } : Transport)
      rw [e]
      exact nofun
    · exact hr
  asked x _ := id
  closed x n := by
    unfold Transport.laneClosed
    split <;> exact id
  outcome x hd _ := id
  left x hd _ := fun hr => by
    unfold Transport.leaveDraining
    dsimp only
    split
    · obtain ⟨mo, cl, a, ro, t, d, e, -⟩ := Transport.motorOnly_motorOff ({ x with
        batch := { x.batch with closure := .notAsked }, purpose := .none, coverWait := false, state := .off,
        haltRequest := false } : Transport)
      rw [e]
      exact nofun
    · obtain ⟨mo, cl, a, ro, t, d, e, -⟩ := Transport.motorOnly_beginRunOff ({ x with
        batch := { x.batch with closure := .notAsked }, purpose := .none, coverWait := false, state := .ready } : Transport)
      rw [e]
      exact nofun
  touched x n := by
    unfold Transport.touch
    split <;> exact id

theorem hold_foldl {α : Type} {f : State → α → State} (h : ∀ s a, (f s a).hold = s.hold) (s : State) (l : List α) :
    (l.foldl f s).hold = s.hold := by
  induction l generalizing s with
  | nil => rfl
  | cons a rest ih => exact (ih _).trans (h s a)

/-- No request of a transport is on the waiting list. -/
def NoRequest (s : State) (i : TransportNo) : Prop := ∀ r ∈ s.hold.waiting, r.transport ≠ i

theorem NoRequest.of_hold (h : s.NoRequest i) (e : u.hold = s.hold) : u.NoRequest i := by
  unfold NoRequest
  rw [e]
  exact h

theorem waiting_serveWaiting (s : State) (l : List Request) : ∀ r ∈ (s.serveWaiting l).hold.waiting, r ∈ l := by
  induction l generalizing s with
  | nil => exact fun _ h => h
  | cons q rest ih =>
    unfold serveWaiting
    split
    · split
      · exact fun r h => List.mem_cons_of_mem _ (ih _ r h)
      · exact fun r h => h
    · exact fun r h => List.mem_cons_of_mem _ (ih _ r h)

/-- A transport that is not RUNNING may not pick. -/
theorem not_eligible (h : (s.tr i).state ≠ .running) : (s.tr i).eligible = false := by
  rw [← Bool.not_eq_true]
  exact fun k => h (Transport.eligible_iff.mp k).1

theorem noRequest_serveList (h : (s.tr i).state ≠ .running) : s.serveList.NoRequest i := fun r hr e => by
  have hs := (List.mem_filter.mp (waiting_serveWaiting s _ r hr)).2
  unfold stands at hs
  rw [e, not_eligible h] at hs
  cases hs

theorem noRequest_askAdmission (h : (s.tr i).state ≠ .running) (hn : s.NoRequest i) (t : TransportNo) :
    (s.askAdmission t).NoRequest i := by
  unfold askAdmission
  split
  · next hc =>
    rw [Bool.and_eq_true] at hc
    split
    · next hg =>
      intro r hr
      have e : (s.grant t (s.needOf t)).hold.waiting = s.hold.waiting := by
        unfold grant reserve
        rw [modTr_hold, refreshMark_hold]
        rfl
      exact hn r (e ▸ hr)
    · intro r hr
      rcases List.mem_append.mp hr with hr | hr
      · exact hn r hr
      · rw [List.mem_singleton.mp hr]
        exact fun e => absurd hc.1 (by rw [show t = i from e, not_eligible h]; decide)
  · exact hn

theorem noRequest_pickStage (h : (s.tr i).state ≠ .running) : s.pickStage.NoRequest i := by
  have key : ∀ (l : List TransportNo) (u : State), (u.tr i).state ≠ .running → u.NoRequest i →
      (l.foldl askAdmission u).NoRequest i := fun l => by
    induction l with
    | nil => exact fun u _ hu => hu
    | cons t rest ih => exact fun u hr hu => ih _ (endSteps_notRunning.askAdmission u t i hr) (noRequest_askAdmission hr hu t)
  refine (key allTransports s.serveList ?_ (noRequest_serveList h)).of_hold ?_
  · rw [(s.mayPick_serveList i).eq_of_state_ne h]
    exact h
  · exact hold_foldl (f := fun s t => s.modTr t fun x => { x with pickWait := x.waitReason }) (fun _ _ => rfl) _ _

theorem hold_requestClosure (s : State) (t : TransportNo) (n : LaneNo) : (s.requestClosure t n).hold = s.hold := by
  unfold requestClosure
  dsimp only
  split
  · split <;> rfl
  · rfl

theorem hold_endBatch (s : State) (t : TransportNo) : (s.endBatch t).hold = s.hold := by
  have hgo : ∀ u : State, (u.goOnClosing t).hold = u.hold := fun u => by
    unfold goOnClosing
    split
    · split <;> rfl
    · rfl
  refine (hgo _).trans ?_
  split
  · exact hold_foldl (fun s n => hold_requestClosure s t n) _ _
  · rfl

theorem hold_continueTurn (s : State) (t : TransportNo) : (s.continueTurn t).hold = s.hold := by
  unfold continueTurn
  split
  · rfl
  · split
    · rfl
    · split <;> rfl

theorem hold_lookForWork (s : State) : s.lookForWork.hold = s.hold := by
  unfold lookForWork
  split
  · rfl
  · split
    · rfl
    · unfold beginTurn
      split
      · rfl
      · dsimp only
        split
        · rfl
        · exact hold_continueTurn _ _

/-- The third part of the end of a step leaves the hold store alone. -/
theorem hold_closeStage (s : State) : s.closeStage.hold = s.hold :=
  (lowMark_haltQuiet _).trans ((hold_lookForWork _).trans (hold_foldl hold_endBatch s _))

/-- A transport that is not RUNNING at the end of its event is not on the waiting list at the end of the step (R36). -/
theorem noRequest_finish (s before : State) (path : List State) (forced : List TransportNo) (h : (s.tr i).state ≠ .running) :
    (s.finishVia before path forced).NoRequest i := by
  rw [finishVia_eq]
  refine NoRequest.of_hold ?_ (requestReports_kept _ _ _ _).1
  refine NoRequest.of_hold ?_ (hold_closeStage _)
  refine (noRequest_pickStage (endSteps_notRunning.settleStage s i h)).of_hold ?_
  exact hold_foldl (f := fun s t => s.modTr t Transport.pauseDone) (fun _ _ => rfl) _ _

end State

end Sys2Proof.Machine

end

/-! PROOFS. The commands of a control block (09 section 9.5): what a posted block does, the answers without effect, ENABLE and DISABLE. -/

section

namespace Sys2Proof.Machine

/-! ### Posted blocks -/

theorem Posted.turn {k : List Byte} {c : Nat} (h : Posted k c) : turnPosted k = true := beq_iff_eq.mpr h.1

/-- The command of a posted block by its code (10 Table 10-7). -/
theorem Posted.command {k : List Byte} {c : Nat} (h : Posted k c) :
    (c = 1 → controlCommand k = .enable) ∧ (c = 2 → controlCommand k = .disable) ∧ (c = 3 → controlCommand k = .pause) ∧
    (c = 4 → controlCommand k = .resume) ∧ (c = 5 → controlCommand k = .abort) := by
  unfold controlCommand
  rw [h.2]
  refine ⟨?_, ?_, ?_, ?_, ?_⟩ <;> rintro rfl <;> rfl

theorem controlCommand_rule {k : List Byte} (h : field k 1 1 = 6) : controlCommand k = ruleArgument (field k 2 1) := by
  unfold controlCommand
  rw [h]
  rfl

/-- The ruling of a posted RULE by its argument (10 Table 10-7). -/
theorem PostedRule.command {k : List Byte} {a : Nat} (h : PostedRule k a) :
    (a = 1 → controlCommand k = .rule .accept) ∧ (a = 2 → controlCommand k = .rule .review) ∧
    (a = 3 → controlCommand k = .rule .refeed) ∧ (a = 4 → controlCommand k = .rule .discard) ∧
    (a = 5 → controlCommand k = .rule .clear) := by
  rw [controlCommand_rule h.1.2, h.2]
  refine ⟨?_, ?_, ?_, ?_, ?_⟩ <;> rintro rfl <;> rfl

theorem ruleArgument_unknown {a : Nat} (h : a = 0 ∨ 5 < a) : ruleArgument a = .unknown := by
  unfold ruleArgument
  split <;> first | rfl | omega

theorem controlCommand_unknown {k : List Byte}
    (h : field k 1 1 = 0 ∨ 6 < field k 1 1 ∨ (field k 1 1 = 6 ∧ (field k 2 1 = 0 ∨ 5 < field k 2 1))) :
    controlCommand k = .unknown := by
  rcases h with h | h | ⟨h, ha⟩
  · unfold controlCommand
    rw [h]
    rfl
  · unfold controlCommand
    split <;> first | rfl | omega
  · rw [controlCommand_rule h]
    exact ruleArgument_unknown ha

namespace State

variable {s : State} {t : TransportNo} {k : List Byte} {c : ControlCommand}

/-- The state in which the reads of a control block are behind the sweep (log 9). -/
def pastBlock (s : State) (t : TransportNo) : State := s.setRoom { s.room with sweep := .inFlight (1 + t.val + 1) }

/-- A control block posted with a row's command (R168). -/
theorem readControl_posted (hs : s.takesCommand (.control t) = true) (hp : turnPosted k = true) (hc : controlCommand k = c)
    (act : Word → State → State) :
    s.readControl t (.data k) c act = .next (act (BitVec.ofNat 32 (field k 4 4)) (s.pastBlock t)) := by
  unfold readControl
  rw [if_pos hs]
  exact if_pos ⟨hp, hc⟩

theorem command_posted (hs : s.takesCommand (.control t) = true) (hp : turnPosted k = true) (hc : controlCommand k = c)
    (act : State → Answer × State) : s.command t (.data k) c act =
      .next ((act (s.pastBlock t)).2.answer (.control t) (act (s.pastBlock t)).1 (BitVec.ofNat 32 (field k 4 4))) :=
  readControl_posted hs hp hc _

/-- A command that is answered without effect. -/
theorem command_answered (hs : s.takesCommand (.control t) = true) (hp : turnPosted k = true) (hc : controlCommand k = c)
    {act : State → Answer × State} {a : Answer} (ha : act (s.pastBlock t) = (a, s.pastBlock t)) :
    s.command t (.data k) c act = .next (s.setRoom { s.room with
      sweep := .inFlight (1 + t.val + 1)
      answer := some { block := .control t, code := a, number := BitVec.ofNat 32 (field k 4 4) + 1 } }) := by
  rw [command_posted hs hp hc, ha]
  rfl

/-- A command that is taken goes to the end of its step and is answered DONE. -/
theorem command_done (hs : s.takesCommand (.control t) = true) (hp : turnPosted k = true) (hc : controlCommand k = c)
    {act : State → Answer × State} {v : State} (ha : act (s.pastBlock t) = (.done, v.finish (s.pastBlock t) [])) :
    s.command t (.data k) c act =
      .next ((v.finish (s.pastBlock t) []).answer (.control t) .done (BitVec.ofNat 32 (field k 4 4))) := by
  rw [command_posted hs hp hc, ha]

end State

/-! ### The path-clear test and the judgement of a RULE -/

namespace Transport

variable {x : Transport}

theorem pathClear_iff (x : Transport) : x.pathClear = true ↔
    (∀ st, (x.pos.sensor (.station st)).level = false) ∧ x.pos.coverOpen.level = false := by
  have h : (∀ st, (x.pos.sensor (.station st)).level = false) ↔ x.pos.entry.level = false ∧ x.pos.df.level = false ∧
      x.pos.mark.level = false ∧ x.pos.exit.level = false :=
    ⟨fun h => ⟨h .entry, h .df, h .mark, h .exit⟩, fun ⟨h1, h2, h3, h4⟩ st => by cases st; exacts [h1, h2, h3, h4]⟩
  rw [h]
  unfold pathClear
  simp [and_assoc]

theorem judgeRule_of_not_held (h : x.state ≠ .held) (r : Ruling) : x.judgeRule r = .notHeld := if_pos h

theorem judgeRule_of_wrong {r : Ruling} (h : x.state = .held) (hf : rulingFits x.stopReason r = false) :
    x.judgeRule r = .wrongRuling := by
  unfold judgeRule
  rw [if_neg (not_not.mpr h), hf]
  rfl

theorem judgeRule_of_fits {r : Ruling} (h : x.state = .held) (hf : rulingFits x.stopReason r = true) :
    (¬x.pathClear = true → x.judgeRule r = .pathNotClear) ∧ (x.pathClear = true → x.judgeRule r = .done) := by
  unfold judgeRule
  rw [if_neg (not_not.mpr h), hf]
  exact ⟨fun k => by rw [Bool.not_eq_true] at k; rw [k]; rfl, fun k => by rw [k]; rfl⟩

end Transport

theorem rulingFits_suspect {r : StopReason} (h : r = .suspect) (k : Ruling) : rulingFits r k = (k != .clear) := if_pos h

theorem rulingFits_other {r : StopReason} (h : r ≠ .suspect) (k : Ruling) : rulingFits r k = (k == .clear) := if_neg h

/-! ### The answers without effect -/

open State in
/-- A RULE that is judged and not taken is answered without effect (R147). -/
theorem rule_answered {s : State} {t : TransportNo} {k : List Byte} {r : Ruling} (hs : s.takesCommand (.control t) = true)
    (hp : turnPosted k = true) (hc : controlCommand k = .rule r) {a : Answer} (ha : (s.tr t).judgeRule r = a) (hd : a ≠ .done)
    (gives : Bool) (f : Transport → SheetRecord → Transport) : s.rule t (.data k) r gives f = .next (s.setRoom { s.room with
      sweep := .inFlight (1 + t.val + 1)
      answer := some { block := .control t, code := a, number := BitVec.ofNat 32 (field k 4 4) + 1 } }) := by
  unfold State.rule
  refine command_answered hs hp hc ?_
  have e : ((s.pastBlock t).tr t).judgeRule r = a := ha
  dsimp only
  rw [e]
  exact if_neg hd

open State in
/-- Settles O41. -/
theorem answersWithoutEffect : Obligations.AnswersWithoutEffect := by
  intro s t hs
  refine ⟨fun c hc => ?_, fun k => ?_⟩
  · simp only [List.mem_cons, List.not_mem_nil, or_false] at hc
    rcases hc with rfl | rfl | rfl | rfl | rfl | rfl | rfl | rfl | rfl | rfl | rfl <;> exact if_pos hs
  · intro n x reply clear all clearRule
    have hclear : ¬clear → ¬x.pathClear = true := fun h g => h (x.pathClear_iff.mp g)
    have hall : ∀ a : Answer, a ≠ .done → (∀ r ∈ [Ruling.accept, .review, .refeed, .discard], x.judgeRule r = a) →
        all fun c => exec c s = reply a := fun a ha h =>
      ⟨fun p => rule_answered hs p.1.turn (p.command.1 rfl) (h _ (by simp)) ha _ _,
        fun p => rule_answered hs p.1.turn (p.command.2.1 rfl) (h _ (by simp)) ha _ _,
        fun p => rule_answered hs p.1.turn (p.command.2.2.1 rfl) (h _ (by simp)) ha _ _,
        fun p => rule_answered hs p.1.turn (p.command.2.2.2.1 rfl) (h _ (by simp)) ha _ _⟩
    have hclr : ∀ a : Answer, a ≠ .done → x.judgeRule .clear = a → clearRule fun c => exec c s = reply a := fun a ha h p =>
      rule_answered hs p.1.turn (p.command.2.2.2.2 rfl) h ha _ _
    have hfour : ∀ r ∈ [Ruling.accept, .review, .refeed, .discard], (r != .clear) = true ∧ (r == .clear) = false := by decide
    refine ⟨fun ht hc => ?_, fun hh hx p => ?_, fun hx p => ?_, fun hx p => ?_, fun hx p => ?_, fun hx p => ?_,
      fun hx hc p => ?_, fun hx => ⟨hall _ (by decide) fun r _ => ?_, hclr _ (by decide) ?_⟩, fun hx hr => hclr _ (by decide) ?_,
      fun hx hr => hall _ (by decide) fun r hm => ?_, fun hx hr hc => hall _ (by decide) fun r hm => ?_,
      fun hx hr hc => hclr _ (by decide) ?_⟩
    · exact command_answered hs (beq_iff_eq.mpr ht) (controlCommand_unknown hc) rfl
    · show execEnable t (.data k) s = _
      unfold execEnable
      rw [readControl_posted hs p.turn (p.command.1 rfl)]
      exact congrArg Host.Outcome.next ((if_neg hh).trans (if_neg hx))
    · show execDisable t (.data k) s = _
      unfold execDisable
      exact command_answered hs p.turn (p.command.2.1 rfl) (a := .busy) (if_neg hx)
    · show execPause t (.data k) s = _
      unfold execPause
      exact command_answered hs p.turn (p.command.2.2.1 rfl) (a := .busy) (if_neg hx)
    · show execResume t (.data k) s = _
      unfold execResume
      exact command_answered hs p.turn (p.command.2.2.2.1 rfl) (a := .busy) (if_neg hx)
    · show execAbort t (.data k) s = _
      unfold execAbort
      refine command_answered hs p.turn (p.command.2.2.2.2 rfl) (a := .busy) ?_
      have e : ((s.pastBlock t).tr t).state = x.state := rfl
      rw [e]
      rcases hx with h | h | h <;> rw [h] <;> rfl
    · show execAbort t (.data k) s = _
      unfold execAbort
      refine command_answered hs p.turn (p.command.2.2.2.2 rfl) (a := .pathNotClear) ?_
      have e : ((s.pastBlock t).tr t).state = x.state := rfl
      rw [e, hx]
      exact if_neg (hclear hc)
    · exact x.judgeRule_of_not_held hx r
    · exact x.judgeRule_of_not_held hx _
    · exact Transport.judgeRule_of_wrong hx (by rw [rulingFits_suspect hr]; rfl)
    · exact Transport.judgeRule_of_wrong hx (by rw [rulingFits_other hr]; exact (hfour r hm).2)
    · exact (Transport.judgeRule_of_fits hx (by rw [rulingFits_suspect hr]; exact (hfour r hm).1)).1 (hclear hc)
    · exact (Transport.judgeRule_of_fits hx (by rw [rulingFits_other hr]; rfl)).1 (hclear hc)

end Sys2Proof.Machine

end

/-! PROOFS. ENABLE with the end of its setup read, DISABLE, PAUSE and RESUME (02 section 2.1). -/

section

namespace Sys2Proof.Machine

namespace State

variable {s v before : State} {t i : TransportNo}

/-! ### The end of a step at a transport that is not running -/

theorem requestsOf_pos (h : (before.tr t).state ≠ (v.tr t).state) (path : List State) (forced : List TransportNo) :
    ∃ n, requestsOf t before (v :: path) forced = n + 1 := by
  have hc : (before.tr t).controlChanged (v.tr t) = true := (Transport.controlChanged_iff _ _).mpr (.inl h)
  have hpos : 0 < controlChanges t (before :: v :: path) := by
    rw [controlChanges, hc, one, if_pos rfl]
    omega
  refine ⟨requestsOf t before (v :: path) forced - 1, ?_⟩
  unfold requestsOf
  dsimp only
  rw [if_neg (by omega)]
  omega

theorem status_requestReports_of_changed (h : (before.tr t).state ≠ (v.tr t).state) (c : State) (path : List State)
    (forced : List TransportNo) : (c.requestReports before (v :: path) forced).room.status[t] ≠ .idle := by
  obtain ⟨n, hn⟩ := requestsOf_pos h path forced
  have hs := congrArg Prod.fst (statusOf_requestReports c before (v :: path) forced t)
  rw [hn] at hs
  exact fun k => askedOnce_iterate_ne _ _ (hs.symm.trans k)

/-- A step that changes a transport's control state has a status write in flight at its end (R48, R171). -/
theorem status_finish_of_changed (h : (before.tr t).state ≠ (v.tr t).state) (forced : List TransportNo) :
    (v.finish before forced).room.status[t] ≠ .idle := by
  rw [finish, finishVia_eq, List.nil_append]
  exact status_requestReports_of_changed h _ _ _

/-- What the end of a step leaves of a transport that is neither RUNNING nor DRAINING. -/
structure Standing (x y : Transport) : Prop where
  control : y.state = x.state ∧ y.purpose = x.purpose ∧ y.stopReason = x.stopReason ∧ y.pickWait = .none ∧
    y.haltRequest = x.haltRequest ∧ y.coverWait = x.coverWait
  motor : y.motor = x.motor ∧ y.clutch = x.clutch ∧ y.runOffTimer = x.runOffTimer ∧ y.runInEnd = x.runInEnd
  setup : y.pos = x.pos ∧ y.setup = x.setup ∧ y.dfu = x.dfu
  batch : y.batch.candidate = x.batch.candidate ∧ y.batch.take = x.batch.take ∧ y.batch.ticket = x.batch.ticket ∧
    y.batch.snapshot = x.batch.snapshot ∧ y.batch.active = x.batch.active
  empty : x.track = [] → y.track = [] ∧ y.batch.counters = x.batch.counters ∧ y.batch.outcome = x.batch.outcome

theorem standing_finish (v before : State) (forced : List TransportNo) (hr : (v.tr t).state ≠ .running)
    (hd : (v.tr t).state ≠ .draining) : Standing (v.tr t) ((v.finish before forced).tr t) := by
  have hkept := (within_finishVia v before [] forced).transports t
  have hwait := waitLaw_finishVia v before [] forced t
  have hsetup := ((quiet_finishVia v before [] forced).path t).2
  have hempty := endSteps_emptyKept.finishVia v before [] forced t
  unfold finish
  generalize v.finishVia before [] forced = u at *
  obtain ⟨c1, c2, c3, c4, c5, c6, c7, c8, c9, c10, c11, c12, -⟩ := hkept.still hr hd
  refine ⟨⟨c1, c2, c3, hwait (by rwa [c1]), c6, c7⟩, ⟨c4, c5, c12, c10⟩, ⟨c9, hsetup, c8⟩, hkept.batch, fun h => ?_⟩
  obtain ⟨e1, -, e3, e4⟩ := hempty h hr
  exact ⟨e1, e3, (e4 hd).2.1⟩

theorem hostMem_finish (v before : State) (forced : List TransportNo) : (v.finish before forced).hostMem = v.hostMem :=
  (quiet_finishVia v before [] forced).hostMem

theorem setupRead_finish (v before : State) (forced : List TransportNo) :
    (v.finish before forced).room.setupRead = v.room.setupRead := setupRead_of_core (quiet_finishVia v before [] forced).room

/-! ### ENABLE -/

/-- The end of an ENABLE's setup read is judged with the read no longer in flight (R23). -/
theorem exec_setupReadDone {n : Word} (h : s.room.setupRead = some (t, n)) (m : MemRead) : exec (.setupReadDone t m) s =
    .next (((s.setRoom { s.room with setupRead := none }).judgeSetup t m).2.answer (.control t)
      ((s.setRoom { s.room with setupRead := none }).judgeSetup t m).1 n) := by
  show execSetupReadDone t m s = _
  unfold execSetupReadDone
  rw [h]
  exact if_pos rfl

theorem judgeSetup_good {bytes : List Byte} {b : SetupBlock} (hb : parseSetup bytes = some b) :
    s.judgeSetup t (.data bytes) = (.done, (s.setTr t ((s.tr t).load b)).finish s []) := by
  unfold judgeSetup
  dsimp only
  rw [hb]
  rfl

theorem judgeSetup_bad {bytes : List Byte} (hb : parseSetup bytes = none) : s.judgeSetup t (.data bytes) = (.setupBad, s) := by
  unfold judgeSetup
  dsimp only
  rw [hb]

end State

open State in
/-- An ENABLE's setup block that is good (R23). -/
theorem enableLoads {s : State} {t : TransportNo} {n : Word} (h : s.room.setupRead = some (t, n)) {bytes : List Byte} {b : SetupBlock}
    (hb : parseSetup bytes = some b) (hoff : (s.tr t).state = .off) (ht : (s.tr t).track = []) :
    let x := s.tr t
    let s1 := s.setRoom { s.room with setupRead := none }
    ∃ u v : State, exec (.setupReadDone t (.data bytes)) s = .next u ∧
      u = (v.finish s1 []).answer (.control t) .done n ∧ s1.OnlyTransport v t ∧
      u.room.answer = some { block := .control t, code := .done, number := n + 1 } ∧ u.room.setupRead = none ∧
      (u.tr t).state = .ready ∧ (u.tr t).motor = .standing ∧ (u.tr t).purpose = .none ∧
      (u.tr t).stopReason = .none ∧ (u.tr t).pickWait = .none ∧ (u.tr t).setup = some b.fields ∧
      (u.tr t).pos = { x.pos with multiplier := b.multiplier, debounce := b.debounce } ∧
      (u.tr t).dfu.reference = x.dfu.reference ∧ (u.tr t).batch.counters = x.batch.counters ∧
      u.room.status[t] ≠ .idle := by
  intro x s1
  have hv : (s1.setTr t (x.load b)).tr t = x.load b := s1.tr_setTr_self t _
  have hstatus := status_finish_of_changed (before := s1) (v := s1.setTr t (x.load b)) (t := t)
    (by rw [hv]; exact fun k => by cases hoff.symm.trans k) []
  obtain ⟨c, m, p, -, e⟩ := standing_finish (t := t) (s1.setTr t (x.load b)) s1 [] (by rw [hv]; exact nofun) (by rw [hv]; exact nofun)
  have hread := setupRead_finish (s1.setTr t (x.load b)) s1 []
  have he : exec (.setupReadDone t (.data bytes)) s =
      .next (((s1.setTr t (x.load b)).finish s1 []).answer (.control t) .done n) := by
    have e : s1.judgeSetup t (.data bytes) = (.done, (s1.setTr t (x.load b)).finish s1 []) := judgeSetup_good hb
    rw [exec_setupReadDone h, e]
  rw [hv] at c m p e
  refine ⟨_, s1.setTr t (x.load b), he, rfl, .setTr s1 t _, rfl, ?_⟩
  clear he
  generalize (s1.setTr t (x.load b)).finish s1 [] = w at hstatus hread c m p e ⊢
  refine ⟨hread, ?_⟩
  obtain ⟨c1, c2, c3, c4, -⟩ := c
  obtain ⟨p1, p2, p3⟩ := p
  exact ⟨c1, m.1, c2, c3, c4, p2, p1, (congrArg DoubleFeedUnit.reference p3 :), (e ht).2.1, hstatus⟩

/-- What a DISABLE leaves of a transport (R24). -/
theorem Transport.disabled_spec (x : Transport) : x.disabled.pos = { x.pos with stallTimer := none } ∧
    x.disabled.motor = .standing ∧ x.disabled.clutch = false ∧ x.disabled.runOffTimer = none ∧ x.disabled.setup = x.setup ∧
    x.disabled.track = x.track := by
  obtain ⟨a, d, h⟩ := x.motorOff_eq
  unfold disabled
  rw [h]
  exact ⟨rfl, rfl, rfl, rfl, rfl, rfl⟩

open State in
/-- DISABLE taken in READY (R24). -/
theorem disableTaken {s : State} {t : TransportNo} {k : List Byte} (hs : s.takesCommand (.control t) = true) (hk : Posted k 2)
    (hx : (s.tr t).state = .ready) (hc : s.CountLaw) :
    let n := BitVec.ofNat 32 (field k 4 4)
    let s1 := s.setRoom { s.room with sweep := .inFlight (1 + t.val + 1) }
    ∃ u v : State, exec (.disable t (.data k)) s = .next u ∧ u = (v.finish s1 []).answer (.control t) .done n ∧
      s1.OnlyTransport v t ∧ u.room.answer = some { block := .control t, code := .done, number := n + 1 } ∧
      let x := s.tr t
      let y := u.tr t
      y.state = .off ∧ y.motor = .standing ∧ y.clutch = false ∧ y.runOffTimer = none ∧ y.pos.stallTimer = none ∧
      y.dfu.reference = 0 ∧ y.batch.counters = x.batch.counters ∧ y.setup = x.setup ∧ y.batch.take = none ∧
      y.batch.candidate = x.batch.candidate ∧ y.batch.outcome = x.batch.outcome ∧ u.hostMem = s.hostMem ∧
      y.pos.counter = x.pos.counter ∧ y.pos.multiplier = x.pos.multiplier ∧ y.pos.skipCount = x.pos.skipCount := by
  intro n s1
  obtain ⟨-, -, hempty, -⟩ := hc t
  have htrack : (s.tr t).track = [] := hempty (.inr (.inl hx))
  have hv : (s1.setTr t (s.tr t).disabled).tr t = (s.tr t).disabled := s1.tr_setTr_self t _
  obtain ⟨c, m, p, b, e⟩ := standing_finish (t := t) (s1.setTr t (s.tr t).disabled) s1 [] (by rw [hv]; exact nofun)
    (by rw [hv]; exact nofun)
  have hmem := hostMem_finish (s1.setTr t (s.tr t).disabled) s1 []
  have he : exec (.disable t (.data k)) s =
      .next (((s1.setTr t (s.tr t).disabled).finish s1 []).answer (.control t) .done n) := by
    show execDisable t (.data k) s = _
    unfold execDisable
    exact command_done hs hk.turn (hk.command.2.1 rfl) (if_pos hx)
  rw [hv] at c m p b e
  refine ⟨_, s1.setTr t (s.tr t).disabled, he, rfl, .setTr s1 t _, rfl, ?_⟩
  clear he
  generalize (s1.setTr t (s.tr t).disabled).finish s1 [] = w at c m p b e hmem ⊢
  intro x y
  obtain ⟨hpos, k1, k2, k3, k4, k5⟩ := x.disabled_spec
  obtain ⟨p1, p2, p3⟩ := p
  obtain ⟨m1, m2, m3, -⟩ := m
  obtain ⟨b1, b2, -⟩ := b
  obtain ⟨-, e2, e3⟩ := e (k5.trans htrack)
  have hp : y.pos = { x.pos with stallTimer := none } := p1.trans hpos
  refine ⟨c.1, m1.trans k1, m2.trans k2, m3.trans k3, (congrArg PositionUnit.stallTimer hp :),
    (congrArg DoubleFeedUnit.reference p3 :), e2, p2.trans k4, b2, b1, e3, hmem, (congrArg PositionUnit.counter hp :),
    (congrArg PositionUnit.multiplier hp :), (congrArg PositionUnit.skipCount hp :)⟩

open State in
/-- Settles O40. -/
theorem enableAndDisable : Obligations.EnableAndDisable := by
  refine ⟨fun s t k hs hk => ?_, fun s t n h => ?_, fun s t k hs hk hx hc => disableTaken hs hk hx hc⟩
  · intro n r
    refine ⟨fun hh => ?_, fun hh hx => ?_⟩
    · show execEnable t (.data k) s = _
      unfold execEnable
      rw [readControl_posted hs hk.turn (hk.command.1 rfl)]
      exact congrArg Host.Outcome.next (if_pos hh)
    · show execEnable t (.data k) s = _
      unfold execEnable
      rw [readControl_posted hs hk.turn (hk.command.1 rfl)]
      exact congrArg Host.Outcome.next ((if_neg hh).trans (if_pos hx))
  · intro x bad
    refine ⟨exec_setupReadDone h _, fun bytes => ⟨fun hb => ?_, fun b hb hoff _ ht => enableLoads h hb hoff ht⟩⟩
    rw [exec_setupReadDone h, judgeSetup_bad hb]
    rfl

/-! ### PAUSE and RESUME -/

namespace Transport

variable {x : Transport}

/-- What a motor start may change: the motor, the cover wait, the run-in, the timers and the sample step's gathering (R31). -/
theorem startMotor_eq (x : Transport) : ∃ m w a tm d ro, x.startMotor = { x with
      motor := m, coverWait := w, runInEnd := a, pos := { x.pos with stallTimer := tm }, dfu := d, runOffTimer := ro } ∧
    d.reference = x.dfu.reference := by
  unfold startMotor
  split
  · split
    · exact ⟨_, _, _, _, _, _, rfl, rfl⟩
    · unfold startRunIn finishRunIn
      dsimp only
      split
      · exact ⟨_, _, _, _, _, _, rfl, rfl⟩
      · exact ⟨_, _, _, _, _, _, rfl, rfl⟩
  · exact ⟨_, _, _, _, _, _, rfl, rfl⟩
  · exact ⟨_, _, _, _, _, _, rfl, rfl⟩
  · exact ⟨_, _, _, _, _, _, rfl, rfl⟩

theorem startMotor_of_runOff (h : x.motor = .runOff) : x.startMotor = { x with motor := .driving, runOffTimer := none } := by
  unfold startMotor
  rw [h]

theorem startMotor_of_open (h : x.motor = .standing) (hc : x.pos.coverOpen.level = true) :
    x.startMotor = { x with coverWait := true } := by
  unfold startMotor
  rw [h]
  exact if_pos hc

/-- The entry into RUNNING before its motor start. -/
def enteringRunning (x : Transport) : Transport := ({ x with state := .running, purpose := .none } : Transport).freshEntry

theorem enterRunning_kept (x : Transport) : x.enterRunning.state = .running ∧ x.enterRunning.purpose = .none ∧
    x.enterRunning.retries = x.retries ∧ x.enterRunning.batch = x.batch ∧ x.enterRunning.track = x.track ∧
    x.enterRunning.stopReason = x.stopReason ∧ x.enterRunning.haltRequest = x.haltRequest := by
  obtain ⟨m, w, a, tm, d, ro, e, -⟩ := x.enteringRunning.startMotor_eq
  rw [show x.enterRunning = _ from e]
  exact ⟨rfl, rfl, rfl, rfl, rfl, rfl, rfl⟩

/-- The motor at an entry into RUNNING (R31). -/
theorem enterRunning_motor (x : Transport) :
    (x.motor = .runOff → x.enterRunning.motor = .driving ∧ x.enterRunning.runOffTimer = none) ∧
    (x.motor = .standing → x.pos.coverOpen.level = true → x.enterRunning.motor = .standing ∧ x.enterRunning.coverWait = true) ∧
    (x.motor = .standing → x.pos.coverOpen.level = false → x.cfg.runInDistance ≠ 0 → x.enterRunning.motor = .runIn ∧
      x.enterRunning.runInEnd = .at (x.pos.counter + BitVec.ofNat 32 x.cfg.runInDistance) ∧
      x.enterRunning.pos.stallTimer = some x.cfg.stallTime) ∧
    (x.motor = .standing → x.pos.coverOpen.level = false → x.cfg.runInDistance = 0 → x.enterRunning.motor = .driving) := by
  obtain ⟨-, -, s3, s4, s5⟩ := x.enteringRunning.startRunIn_spec
  refine ⟨fun h => ?_, fun h hc => ?_, fun h hc hd => ?_, fun h hc hd => ?_⟩
  · rw [show x.enterRunning = _ from startMotor_of_runOff (x := x.enteringRunning) h]
    exact ⟨rfl, rfl⟩
  · rw [show x.enterRunning = _ from startMotor_of_open (x := x.enteringRunning) h hc]
    exact ⟨h, rfl⟩
  · rw [show x.enterRunning = _ from startMotor_of_standing (x := x.enteringRunning) h hc]
    exact ⟨(s5 hd).1, (s5 hd).2, s3⟩
  · rw [show x.enterRunning = _ from startMotor_of_standing (x := x.enteringRunning) h hc]
    exact s4 hd

/-- The run-off of a transport that enters READY or PAUSED (R33). -/
theorem beginRunOff_spec (x : Transport) : x.beginRunOff.state = x.state ∧ x.beginRunOff.purpose = x.purpose ∧
    x.beginRunOff.coverWait = x.coverWait ∧ (x.motor = .standing → x.beginRunOff.motor = .standing) ∧
    (x.motor ≠ .standing → x.cfg.runOffTime = 0 → x.beginRunOff.motor = .standing ∧ x.beginRunOff.pos.stallTimer = none) ∧
    (x.motor ≠ .standing → x.cfg.runOffTime ≠ 0 →
      x.beginRunOff.motor = .runOff ∧ x.beginRunOff.runOffTimer = some x.cfg.runOffTime) := by
  obtain ⟨a, d, e⟩ := x.abandonRunIn_eq
  unfold beginRunOff motorOn
  dsimp only
  by_cases hm : x.motor = .standing
  · rw [if_neg (by simp [hm])]
    exact ⟨rfl, rfl, rfl, fun h => h, fun h => absurd hm h, fun h => absurd hm h⟩
  · rw [if_pos (by simpa using hm)]
    by_cases hz : x.cfg.runOffTime = 0
    · rw [if_pos hz]
      obtain ⟨a', d', e'⟩ := x.abandonRunIn.motorOff_eq
      rw [e', e]
      exact ⟨rfl, rfl, rfl, fun h => absurd h hm, fun _ _ => ⟨rfl, rfl⟩, fun _ h => absurd hz h⟩
    · rw [if_neg hz, e]
      exact ⟨rfl, rfl, rfl, fun h => absurd h hm, fun _ h => absurd h hz, fun _ _ => ⟨rfl, rfl⟩⟩

end Transport

open State in
/-- PAUSE taken in RUNNING with an empty track (R25). -/
theorem pauseTaken {s : State} {t : TransportNo} {k : List Byte} (hs : s.takesCommand (.control t) = true) (hk : Posted k 3)
    (hx : (s.tr t).state = .running) (ht : (s.tr t).track = []) :
    let n := BitVec.ofNat 32 (field k 4 4)
    let x := s.tr t
    let s1 := s.setRoom { s.room with sweep := .inFlight (1 + t.val + 1) }
    ∃ u v : State, exec (.pause t (.data k)) s = .next u ∧ u = (v.finish s1 []).answer (.control t) .done n ∧
      s1.OnlyTransport v t ∧ u.room.answer = some { block := .control t, code := .done, number := n + 1 } ∧
      (u.tr t).state = .paused ∧ (u.tr t).purpose = .none ∧ (u.tr t).coverWait = false ∧
      u.hold.waiting.all (·.transport != t) ∧
      (x.motor = .standing → (u.tr t).motor = .standing) ∧
      (x.motor ≠ .standing → x.cfg.runOffTime = 0 → (u.tr t).motor = .standing ∧ (u.tr t).pos.stallTimer = none) ∧
      (x.motor ≠ .standing → x.cfg.runOffTime ≠ 0 →
        (u.tr t).motor = .runOff ∧ (u.tr t).runOffTimer = some x.cfg.runOffTime) := by
  intro n x s1
  have hp : x.paused = ({ x with state := .paused, purpose := .none, coverWait := false } : Transport).beginRunOff := if_pos ht
  have hspec := ({ x with state := .paused, purpose := .none, coverWait := false } : Transport).beginRunOff_spec
  rw [← hp] at hspec
  have hv : (s1.setTr t x.paused).tr t = x.paused := s1.tr_setTr_self t _
  obtain ⟨b1, b2, b3, b4, b5, b6⟩ := hspec
  have hst : ((s1.setTr t x.paused).tr t).state = .paused := (congrArg Transport.state hv).trans b1
  have hnot : ((s1.setTr t x.paused).tr t).state ≠ .running := by rw [hst]; decide
  obtain ⟨c, m, p, -, -⟩ := standing_finish (t := t) (s1.setTr t x.paused) s1 [] hnot (by rw [hst]; decide)
  have hwait : ((s1.setTr t x.paused).finish s1 []).NoRequest t := noRequest_finish _ _ _ _ hnot
  have he : exec (.pause t (.data k)) s = .next (((s1.setTr t x.paused).finish s1 []).answer (.control t) .done n) := by
    show execPause t (.data k) s = _
    unfold execPause
    exact command_done hs hk.turn (hk.command.2.2.1 rfl) (if_pos hx)
  rw [hv] at c m p
  refine ⟨_, s1.setTr t x.paused, he, rfl, .setTr s1 t _, rfl, ?_⟩
  clear he
  generalize (s1.setTr t x.paused).finish s1 [] = w at c m p hwait ⊢
  obtain ⟨c1, c2, -, -, -, c6⟩ := c
  obtain ⟨m1, -, m3, -⟩ := m
  refine ⟨c1.trans b1, c2.trans b2, c6.trans b3, ?_, fun h => m1.trans (b4 h), fun h hz => ?_, fun h hz => ?_⟩
  · exact List.all_eq_true.mpr fun r hr => bne_iff_ne.mpr (hwait r hr)
  · obtain ⟨g1, g2⟩ := b5 h hz
    exact ⟨m1.trans g1, (congrArg PositionUnit.stallTimer p.1).trans g2⟩
  · obtain ⟨g1, g2⟩ := b6 h hz
    exact ⟨m1.trans g1, m3.trans g2⟩

open State in
/-- Settles O42. -/
theorem pauseAndResume : Obligations.PauseAndResume := by
  intro s t k hs n x s1 done
  refine ⟨fun hk hx ht => ?_, fun hk hx ht => ?_, fun hk hx => ?_⟩
  · show execPause t (.data k) s = _
    unfold execPause
    refine command_done hs hk.turn (hk.command.2.2.1 rfl) (v := s1.setTr t { x with state := .draining, purpose := .pause }) ?_
    refine (if_pos hx).trans ?_
    have e : x.paused = { x with state := .draining, purpose := .pause } := if_neg ht
    exact congrArg (fun y => (Answer.done, (s1.setTr t y).finish s1 [])) e
  · exact pauseTaken hs hk hx ht
  · have hv : (s1.setTr t ({ x with retries := 0 } : Transport).enterRunning).tr t = ({ x with retries := 0 } : Transport).enterRunning :=
      s1.tr_setTr_self t _
    refine ⟨s1.setTr t ({ x with retries := 0 } : Transport).enterRunning, ?_, .setTr s1 t _, ?_⟩
    · show execResume t (.data k) s = _
      unfold execResume
      exact command_done hs hk.turn (hk.command.2.2.2.1 rfl) (if_pos hx)
    · rw [hv]
      obtain ⟨k1, k2, k3, k4, k5, -⟩ := ({ x with retries := 0 } : Transport).enterRunning_kept
      exact ⟨k1, k2, k3, k4, k5, ({ x with retries := 0 } : Transport).enterRunning_motor⟩

end Sys2Proof.Machine

end

/-! PROOFS. ABORT and the rulings (08 sections 8.2 and 8.3): the records that leave, and how a transport leaves HELD. -/

section

namespace Sys2Proof.Machine

theorem sat32_sat32 (a n m : Nat) : sat32 (sat32 a n) m = min (2 ^ 32 - 1) (a + n + m) := by
  unfold sat32
  omega

namespace Transport

variable {x z : Transport} {r : SheetRecord}

/-! ### The entry into DRAINING from HELD -/

theorem enterDraining_of_empty (p : Purpose) (h : x.track = []) :
    x.enterDraining p = ({ x with state := .draining, purpose := p, stopReason := .none } : Transport).freshEntry := if_pos h

theorem enterDraining_of_records (p : Purpose) (h : x.track ≠ []) :
    x.enterDraining p = ({ x with state := .draining, purpose := p, stopReason := .none } : Transport).freshEntry.startMotor := if_neg h

/-- What an entry into DRAINING from HELD sets and what it leaves (R31, R154). -/
theorem enterDraining_kept (x : Transport) (p : Purpose) : (x.enterDraining p).state = .draining ∧ (x.enterDraining p).purpose = p ∧
    (x.enterDraining p).stopReason = .none ∧ (x.enterDraining p).haltRequest = x.haltRequest ∧
    (x.enterDraining p).track = x.track ∧ (x.enterDraining p).batch = x.batch ∧ (∀ sd, (x.enterDraining p).unit sd = x.unit sd) ∧
    (x.enterDraining p).dfu.reference = x.dfu.reference := by
  by_cases h : x.track = []
  · rw [enterDraining_of_empty p h]
    exact ⟨rfl, rfl, rfl, rfl, rfl, rfl, fun sd => by cases sd <;> rfl, rfl⟩
  · obtain ⟨m, w, a, tm, d, ro, e, hd⟩ :=
      (({ x with state := .draining, purpose := p, stopReason := .none } : Transport).freshEntry).startMotor_eq
    rw [enterDraining_of_records p h, e]
    exact ⟨rfl, rfl, rfl, rfl, rfl, rfl, fun sd => by cases sd <;> rfl, hd⟩

/-- The motor of a transport that enters DRAINING with a record left, from STANDING with the cover closed (R31). -/
theorem enterDraining_motor (p : Purpose) (ht : x.track ≠ []) (hm : x.motor = .standing) (hc : x.pos.coverOpen.level = false) :
    (x.enterDraining p).pos.stallTimer = some x.cfg.stallTime ∧
    (x.cfg.runInDistance = 0 → (x.enterDraining p).motor = .driving) ∧
    (x.cfg.runInDistance ≠ 0 → (x.enterDraining p).motor = .runIn ∧ (x.enterDraining p).dfu.gathering = true ∧
      (x.enterDraining p).runInEnd = .at (x.pos.counter + BitVec.ofNat 32 x.cfg.runInDistance)) := by
  have e := (enterDraining_of_records p ht).trans
    (startMotor_of_standing (x := ({ x with state := .draining, purpose := p, stopReason := .none } : Transport).freshEntry) hm hc)
  obtain ⟨-, -, s3, s4, s5⟩ :=
    (({ x with state := .draining, purpose := p, stopReason := .none } : Transport).freshEntry).startRunIn_spec
  rw [e]
  refine ⟨s3, s4, fun h => ⟨(s5 h).1, ?_, (s5 h).2⟩⟩
  unfold startRunIn
  exact congrArg (fun y : Transport => y.dfu.gathering) (if_neg h)

/-! ### The way out of HELD -/

/-- What a ruling leaves of the control state before the transport goes on (R149 to R153). -/
structure Disposed (x z : Transport) : Prop where
  purpose : z.purpose = x.purpose := by rfl
  haltRequest : z.haltRequest = x.haltRequest := by rfl
  motor : z.motor = x.motor := by rfl
  pos : z.pos = x.pos := by rfl
  setup : z.setup = x.setup := by rfl

/-- What the way out of HELD leaves alone. -/
theorem leaveHeld_kept (z : Transport) : z.leaveHeld.track = z.track ∧ z.leaveHeld.batch = z.batch ∧
    (∀ sd, z.leaveHeld.unit sd = z.unit sd) ∧ z.leaveHeld.stopReason = .none ∧ z.leaveHeld.haltRequest = z.haltRequest := by
  have hdrain : ∀ p, (z.enterDraining p).track = z.track ∧ (z.enterDraining p).batch = z.batch ∧
      (∀ sd, (z.enterDraining p).unit sd = z.unit sd) ∧ (z.enterDraining p).stopReason = .none ∧
      (z.enterDraining p).haltRequest = z.haltRequest := fun p => by
    obtain ⟨-, -, d3, d4, d5, d6, d7, -⟩ := z.enterDraining_kept p
    exact ⟨d5, d6, d7, d3, d4⟩
  unfold leaveHeld
  split
  · obtain ⟨m, w, a, tm, d, ro, e, -⟩ := (({ z with stopReason := .none } : Transport).enteringRunning).startMotor_eq
    rw [show ({ z with stopReason := .none } : Transport).enterRunning = _ from e]
    exact ⟨rfl, rfl, fun sd => by cases sd <;> rfl, rfl, rfl⟩
  · split
    · exact ⟨rfl, rfl, fun sd => by cases sd <;> rfl, rfl, rfl⟩
    · exact hdrain _
  all_goals exact hdrain _

theorem leaveHeld_of_none (h : z.purpose = .none) : z.leaveHeld = ({ z with stopReason := .none } : Transport).enterRunning := by
  unfold leaveHeld
  rw [h]

theorem leaveHeld_of_pause_empty (h : z.purpose = .pause) (ht : z.track = []) :
    z.leaveHeld = { z with state := .paused, purpose := .none, stopReason := .none } := by
  unfold leaveHeld
  rw [h]
  exact if_pos ht

theorem leaveHeld_of_drain (h : z.purpose ≠ .none) (hp : z.purpose = .pause → z.track ≠ []) :
    z.leaveHeld = z.enterDraining z.purpose := by
  unfold leaveHeld
  cases hz : z.purpose with
  | none => exact absurd hz h
  | pause => exact if_neg (hp hz)
  | endBatch => rfl
  | abort => rfl
  | halt => rfl

/-- A transport that a ruling has disposed of leaves HELD by its held purpose (R154). -/
theorem leavesHeld (d : x.Disposed z) : x.LeavesHeld z.leaveHeld := by
  obtain ⟨ht, -, -, hs, hr⟩ := z.leaveHeld_kept
  have hcfg : z.cfg = x.cfg := by unfold cfg; rw [d.setup]
  have hnone : x.purpose = .none → z.leaveHeld = ({ z with stopReason := .none } : Transport).enterRunning := fun h =>
    leaveHeld_of_none (d.purpose.trans h)
  have hdrain : x.purpose ≠ .none → (x.purpose = .pause → z.track ≠ []) → z.leaveHeld = z.enterDraining x.purpose := fun h hp => by
    rw [← d.purpose] at h hp ⊢
    exact leaveHeld_of_drain h hp
  have hempty : x.purpose = .pause → z.track = [] → z.leaveHeld = { z with state := .paused, purpose := .none, stopReason := .none } :=
    fun h he => leaveHeld_of_pause_empty (d.purpose.trans h) he
  refine ⟨hs, hr.trans d.haltRequest, fun h => ?_, fun h he => ?_, fun h he => ?_, fun h => ?_, fun hm hst he => ?_,
    fun hm hc hd hst => ?_⟩
  · obtain ⟨k1, k2, -⟩ := ({ z with stopReason := .none } : Transport).enterRunning_kept
    rw [hnone h]
    exact ⟨k1, k2⟩
  · rw [ht] at he
    rw [hdrain (by rw [h]; decide) fun _ => he, h]
    exact ⟨(z.enterDraining_kept _).1, (z.enterDraining_kept _).2.1⟩
  · rw [ht] at he
    rw [hempty h he]
    exact ⟨rfl, rfl, d.motor⟩
  · have hp : x.purpose ≠ .none ∧ x.purpose ≠ .pause := by rcases h with h | h | h <;> rw [h] <;> decide
    rw [hdrain hp.1 fun k => absurd k hp.2]
    exact ⟨(z.enterDraining_kept _).1, (z.enterDraining_kept _).2.1⟩
  · rw [ht] at he
    by_cases hn : x.purpose = .none
    · rw [hnone hn] at hst
      exact absurd (hst.symm.trans (({ z with stopReason := .none } : Transport).enterRunning_kept).1) (by decide)
    · by_cases hp : x.purpose = .pause
      · rw [hempty hp he]
        exact d.motor.trans hm
      · rw [hdrain hn fun k => absurd k hp, enterDraining_of_empty _ he]
        exact d.motor.trans hm
  · have hzm : z.motor = .standing := d.motor.trans hm
    have hzc : z.pos.coverOpen.level = false := by rw [d.pos]; exact hc
    have hzd : z.cfg.runInDistance ≠ 0 := by rw [hcfg]; exact hd
    by_cases hn : x.purpose = .none
    · rw [hnone hn]
      exact ((({ z with stopReason := .none } : Transport).enterRunning_motor).2.2.1 hzm hzc hzd).1
    · by_cases he : x.purpose = .pause ∧ z.track = []
      · rw [hempty he.1 he.2] at hst
        exact absurd hst (by simp)
      · have e := hdrain hn fun k g => he ⟨k, g⟩
        rcases hst with hst | ⟨-, hst⟩
        · rw [e] at hst
          exact absurd ((z.enterDraining_kept _).1.symm.trans hst) (by decide)
        · rw [ht] at hst
          rw [e]
          exact ((enterDraining_motor _ hst hzm hzc).2.2 hzd).1

/-! ### The records that leave -/

/-- The counters after the WITHDRAWN records left (R149). -/
theorem removeWithdrawn_counters (x : Transport) :
    let gone := x.track.filter fun r => r.life == .withdrawn
    x.removeWithdrawn.batch.counters = { x.batch.counters with
      withdrawn := sat32 x.batch.counters.withdrawn gone.length
      suspectsHeld := sat32 x.batch.counters.suspectsHeld (gone.countP (·.suspect)) } := by
  intro gone
  have h1 : x.track.countP (fun r => r.life == .withdrawn) = gone.length := List.countP_eq_length_filter
  have h2 : x.track.countP (fun r => r.life == .withdrawn && r.suspect) = gone.countP (·.suspect) := by
    rw [List.countP_filter]
    exact List.countP_congr fun r _ => by rw [Bool.and_comm]
  unfold removeWithdrawn modCounters Counters.withdraw
  dsimp only
  rw [h1, h2]

theorem removeWithdrawn_track (x : Transport) : x.removeWithdrawn.track = x.track.filter fun r => r.life != .withdrawn := rfl

/-- The offender is found among the records that stay. -/
theorem offender_removeWithdrawn (hr : r ∈ x.track) (hp : r.life = .parked) (h : ∀ q ∈ x.track, q.life = .parked → q = r) :
    x.removeWithdrawn.offender = some r := by
  unfold offender findRecord
  rw [removeWithdrawn_track]
  have hmem : r ∈ x.track.filter fun q => q.life != .withdrawn := List.mem_filter.mpr ⟨hr, by rw [hp]; decide⟩
  cases hf : (x.track.filter fun q => q.life != .withdrawn).find? (fun q => q.life == .parked) with
  | none => exact absurd (List.find?_eq_none.mp hf r hmem) (by simp [hp])
  | some q =>
    have hq := List.mem_of_find?_eq_some hf
    have hl : q.life = .parked := by simpa using List.find?_some hf
    rw [h q (List.mem_filter.mp hq).1 hl]

end Transport

end Sys2Proof.Machine

end

/-! PROOFS. The rulings taken (08 section 8.3), and the ABORT of a HELD transport without an offender. -/

section

namespace Sys2Proof.Machine

namespace State

variable {s : State} {t : TransportNo} {k : List Byte} {r : SheetRecord}

/-! ### A ruling taken -/

theorem dispose_of_offender (h : (s.tr t).offender = some r) (gives : Bool) (f : Transport → SheetRecord → Transport)
    (g : Transport → Transport) : s.dispose t gives f g =
      if gives then (s.setTr t (g (f (s.tr t) r))).returnSides r else s.setTr t (g (f (s.tr t) r)) := by
  unfold dispose
  rw [h]
  rfl

theorem dispose_of_none (h : (s.tr t).offender = none) (gives : Bool) (f : Transport → SheetRecord → Transport)
    (g : Transport → Transport) : s.dispose t gives f g = s.setTr t (g (s.tr t)) := by
  unfold dispose
  rw [h]
  rfl

/-- A transport after a ruling: the WITHDRAWN records gone, the offender disposed of by f, HELD left (R149 to R154). -/
def ruledTo (s : State) (t : TransportNo) (f : Transport → Transport) : State :=
  (s.pastBlock t).setTr t (f (s.tr t).removeWithdrawn).leaveHeld

theorem modTr_removeWithdrawn_tr (s : State) (t : TransportNo) :
    ((s.pastBlock t).modTr t (·.removeWithdrawn)).tr t = (s.tr t).removeWithdrawn := (s.pastBlock t).tr_setTr_self t _

/-- A ruling that is taken, by its judgement (R147). -/
theorem rule_taken {c : Ruling} (hs : s.takesCommand (.control t) = true) (hp : turnPosted k = true) (hc : controlCommand k = .rule c)
    (hj : (s.tr t).judgeRule c = .done) (gives : Bool) (f : Transport → SheetRecord → Transport) {v : State}
    (hv : ((s.pastBlock t).modTr t (·.removeWithdrawn)).dispose t gives f (·.leaveHeld) = v) :
    s.rule t (.data k) c gives f = .next ((v.finish (s.pastBlock t) []).answer (.control t) .done (BitVec.ofNat 32 (field k 4 4))) := by
  unfold State.rule
  refine command_done hs hp hc ?_
  have e : ((s.pastBlock t).tr t).judgeRule c = .done := hj
  dsimp only
  rw [e, hv]
  exact if_pos rfl

/-- A ruling with an offender, which returns its sides or keeps them. -/
theorem dispose_ruled (ho : (s.tr t).removeWithdrawn.offender = some r) (gives : Bool) (f : Transport → SheetRecord → Transport) :
    ((s.pastBlock t).modTr t (·.removeWithdrawn)).dispose t gives f (·.leaveHeld) =
      if gives then (s.ruledTo t fun x => f x r).returnSides r else s.ruledTo t fun x => f x r := by
  rw [dispose_of_offender (r := r) (by rw [modTr_removeWithdrawn_tr]; exact ho), modTr_removeWithdrawn_tr]
  unfold ruledTo modTr
  rw [setTr_setTr]

theorem dispose_returned (ho : (s.tr t).removeWithdrawn.offender = some r) (f : Transport → SheetRecord → Transport) :
    ((s.pastBlock t).modTr t (·.removeWithdrawn)).dispose t true f (·.leaveHeld) = (s.ruledTo t fun x => f x r).returnSides r :=
  (dispose_ruled ho true f).trans (if_pos rfl)

theorem dispose_kept (ho : (s.tr t).removeWithdrawn.offender = some r) (f : Transport → SheetRecord → Transport) :
    ((s.pastBlock t).modTr t (·.removeWithdrawn)).dispose t false f (·.leaveHeld) = s.ruledTo t fun x => f x r :=
  (dispose_ruled ho false f).trans (if_neg Bool.false_ne_true)

theorem dispose_ruled_none (ho : (s.tr t).removeWithdrawn.offender = none) (gives : Bool) (f : Transport → SheetRecord → Transport) :
    ((s.pastBlock t).modTr t (·.removeWithdrawn)).dispose t gives f (·.leaveHeld) = s.ruledTo t id := by
  rw [dispose_of_none (by rw [modTr_removeWithdrawn_tr]; exact ho), modTr_removeWithdrawn_tr]
  unfold ruledTo modTr
  rw [setTr_setTr]
  rfl

/-- What a ruling makes of its transport. -/
theorem ruledTo_spec (s : State) (t : TransportNo) {f : Transport → Transport} (hd : (s.tr t).Disposed (f (s.tr t).removeWithdrawn)) :
    (s.pastBlock t).OnlyTransport (s.ruledTo t f) t ∧ (s.tr t).LeavesHeld ((s.ruledTo t f).tr t) ∧
    ((s.ruledTo t f).tr t).track = (f (s.tr t).removeWithdrawn).track ∧
    ((s.ruledTo t f).tr t).batch = (f (s.tr t).removeWithdrawn).batch ∧
    ∀ sd, ((s.ruledTo t f).tr t).unit sd = (f (s.tr t).removeWithdrawn).unit sd := by
  have hv : (s.ruledTo t f).tr t = (f (s.tr t).removeWithdrawn).leaveHeld := (s.pastBlock t).tr_setTr_self t _
  obtain ⟨k1, k2, k3, -, -⟩ := (f (s.tr t).removeWithdrawn).leaveHeld_kept
  rw [hv]
  exact ⟨.setTr _ t _, Transport.leavesHeld hd, k1, k2, k3⟩

/-- The judgement of a RULE that fits its stop with the path clear (R147, R148). -/
theorem judged_done {c : Ruling} (hx : (s.tr t).state = .held) (hf : rulingFits (s.tr t).stopReason c = true)
    (hst : ∀ st, ((s.tr t).pos.sensor (.station st)).level = false) (hcov : (s.tr t).pos.coverOpen.level = false) :
    (s.tr t).judgeRule c = .done :=
  (Transport.judgeRule_of_fits hx hf).2 ((s.tr t).pathClear_iff.mpr ⟨hst, hcov⟩)

end State

/-! ### ACCEPT and REVIEW -/

namespace Transport

variable {x : Transport} {r : SheetRecord}

theorem Disposed.trans {y z : Transport} (h : x.Disposed y) (g : y.Disposed z) : x.Disposed z :=
  ⟨g.purpose.trans h.purpose, g.haltRequest.trans h.haltRequest, g.motor.trans h.motor, g.pos.trans h.pos, g.setup.trans h.setup⟩

theorem disposed_removeWithdrawn (x : Transport) : x.Disposed x.removeWithdrawn := by
  unfold removeWithdrawn modCounters
  exact {}

theorem disposed_release (x : Transport) (m : RulingMark) (r : SheetRecord) : x.Disposed (x.release m r) := by
  unfold release modCounters modRecord
  exact {}

theorem disposed_refeed (x : Transport) (r : SheetRecord) : x.Disposed (x.refeed r) := by
  unfold refeed modCounters endCaptures
  exact {}

theorem disposed_discard (x : Transport) (r : SheetRecord) : x.Disposed (x.discardOffender r) := by
  unfold discardOffender modCounters modRecord endCaptures
  exact {}

/-- The counters of a transport whose offender a ruling released (R150). -/
theorem release_counters (x : Transport) (m : RulingMark) (r : SheetRecord) :
    let c := x.batch.counters
    let d := (x.removeWithdrawn.release m r).batch.counters
    let gone := x.track.filter fun r => r.life == .withdrawn
    d.withdrawn = min (2 ^ 32 - 1) (c.withdrawn + gone.length) ∧
    d.suspectsHeld = min (2 ^ 32 - 1) (c.suspectsHeld + gone.countP (·.suspect) + 1) ∧
    (m = .accepted → d.ruledAccept = min (2 ^ 32 - 1) (c.ruledAccept + 1)) ∧
    (m = .review → d.ruledReview = min (2 ^ 32 - 1) (c.ruledReview + 1)) := by
  intro c d gone
  have e : d = { x.removeWithdrawn.batch.counters with
      suspectsHeld := sat32 x.removeWithdrawn.batch.counters.suspectsHeld 1,
      ruledAccept := sat32 x.removeWithdrawn.batch.counters.ruledAccept (one (m == .accepted)),
      ruledReview := sat32 x.removeWithdrawn.batch.counters.ruledReview (one (m == .review)) } := rfl
  rw [e, removeWithdrawn_counters]
  exact ⟨rfl, sat32_sat32 _ _ _, by rintro rfl; rfl, by rintro rfl; rfl⟩

end Transport

open State in
/-- Settles O44. -/
theorem ruleAcceptReview : Obligations.RuleAcceptReview := by
  intro s t k r hs n x s1 done c gone released hx hsusp hst hcov hlaw hr hp huniq
  have hoff := Transport.offender_removeWithdrawn hr hp huniq
  have hj : ∀ c : Ruling, c ≠ .clear → x.judgeRule c = .done := fun c hc =>
    judged_done hx (by rw [rulingFits_suspect hsusp]; exact bne_iff_ne.mpr hc) hst hcov
  have hrel : ∀ m, released (s.ruledTo t fun y => y.release m r) m := fun m => by
    obtain ⟨h1, h2, h3, h4, -⟩ := s.ruledTo_spec t (f := fun y => y.release m r)
      (x.disposed_removeWithdrawn.trans (Transport.disposed_release _ m r))
    obtain ⟨c1, c2, -⟩ := x.release_counters m r
    exact ⟨h1, h2, h3, (congrArg (·.counters.withdrawn) h4).trans c1, (congrArg (·.counters.suspectsHeld) h4).trans c2⟩
  have hbatch : ∀ m, ((s.ruledTo t fun y => y.release m r).tr t).batch = (x.removeWithdrawn.release m r).batch := fun m =>
    (s.ruledTo_spec t (f := fun y => y.release m r)
      (x.disposed_removeWithdrawn.trans (Transport.disposed_release _ m r))).2.2.2.1
  refine ⟨fun h => ⟨s.ruledTo t fun y => y.release .accepted r, ?_, hrel _, ?_⟩,
    fun h => ⟨s.ruledTo t fun y => y.release .review r, ?_, hrel _, ?_⟩⟩
  · exact rule_taken hs h.1.turn (h.command.1 rfl) (hj _ (by decide)) false _ (dispose_kept hoff _)
  · exact (congrArg (·.counters.ruledAccept) (hbatch _)).trans ((x.release_counters .accepted r).2.2.1 rfl)
  · exact rule_taken hs h.1.turn (h.command.2.1 rfl) (hj _ (by decide)) false _ (dispose_kept hoff _)
  · exact (congrArg (·.counters.ruledReview) (hbatch _)).trans ((x.release_counters .review r).2.2.2 rfl)

/-! ### REFEED, DISCARD and CLEAR -/

namespace Transport

variable {x : Transport} {r : SheetRecord}

theorem refeed_counters (x : Transport) (r : SheetRecord) :
    let c := x.batch.counters
    let d := (x.removeWithdrawn.refeed r).batch.counters
    let gone := x.track.filter fun r => r.life == .withdrawn
    d.withdrawn = min (2 ^ 32 - 1) (c.withdrawn + gone.length + 1) ∧ d.refed = min (2 ^ 32 - 1) (c.refed + 1) ∧
    d.suspectsHeld = min (2 ^ 32 - 1) (c.suspectsHeld + gone.countP (·.suspect) + 1) := by
  intro c d gone
  have e : d = { x.removeWithdrawn.batch.counters with
      withdrawn := sat32 x.removeWithdrawn.batch.counters.withdrawn 1
      suspectsHeld := sat32 x.removeWithdrawn.batch.counters.suspectsHeld 1
      refed := sat32 x.removeWithdrawn.batch.counters.refed 1 } := rfl
  rw [e, removeWithdrawn_counters]
  exact ⟨sat32_sat32 _ _ _, rfl, sat32_sat32 _ _ _⟩

theorem discard_counters (x : Transport) (r : SheetRecord) :
    let c := x.batch.counters
    let d := (x.removeWithdrawn.discardOffender r).batch.counters
    let gone := x.track.filter fun r => r.life == .withdrawn
    d.withdrawn = min (2 ^ 32 - 1) (c.withdrawn + gone.length) ∧
    d.suspectsHeld = min (2 ^ 32 - 1) (c.suspectsHeld + gone.countP (·.suspect) + 1) := by
  intro c d gone
  have e : d = { x.removeWithdrawn.batch.counters with
      suspectsHeld := sat32 x.removeWithdrawn.batch.counters.suspectsHeld 1 } := rfl
  rw [e, removeWithdrawn_counters]
  exact ⟨rfl, sat32_sat32 _ _ _⟩

/-- The track after a DISCARD, the offender's sides discarded (R152). -/
theorem discard_track (hlaw : x.PageLaw) (hr : r ∈ x.track) : (x.removeWithdrawn.discardOffender r).track =
    (x.track.filter fun q => q.life != .withdrawn).map fun q => if q.id = r.id then { q with
      life := .done, discardMark := true, front := r.front.discarded, back := r.back.discarded } else q := by
  refine List.map_congr_left fun q hq => ?_
  split
  · next h =>
    rw [hlaw.eq_of_id hr (List.mem_filter.mp hq).1 h]
    rfl
  · rfl

theorem unit_refeed_ne (x : Transport) (r : SheetRecord) (sd : Side) (e : Bool) :
    ((x.refeed r).unit sd).activity ≠ .capturing r.id e := by
  have hu : (x.refeed r).unit sd = (x.endCaptures r.id).unit sd := by cases sd <;> rfl
  rw [hu]
  exact fun h => (endCaptures_activity h).2 rfl

theorem unit_discardOffender_ne (x : Transport) (r : SheetRecord) (sd : Side) (e : Bool) :
    ((x.discardOffender r).unit sd).activity ≠ .capturing r.id e := by
  have hu : (x.discardOffender r).unit sd = (x.endCaptures r.id).unit sd := by cases sd <;> rfl
  rw [hu]
  exact fun h => (endCaptures_activity h).2 rfl

end Transport

theorem SideRecord.discarded_spec {y : SideRecord} (h : y.capture ≠ .notTaken) :
    y.discarded.capture = .discarded ∧ y.discarded.pages = [] ∧ y.discarded.reserve = 0 := by
  unfold discarded
  rw [if_neg h]
  exact ⟨rfl, rfl, rfl⟩

open State in
/-- Settles O45. -/
theorem ruleRefeedDiscardClear : Obligations.RuleRefeedDiscardClear := by
  intro s t k hs n x s1 done c gone kept left uncaptured hx hst hcov hlaw
  refine ⟨fun h hsusp => ⟨s.ruledTo t id, ?_, ?_⟩, fun hsusp r hr hp huniq => ?_⟩
  · refine rule_taken hs h.1.turn (h.command.2.2.2.2 rfl) (judged_done hx (by rw [rulingFits_other hsusp]; rfl) hst hcov) false _ ?_
    cases ho : (s.tr t).removeWithdrawn.offender with
    | none => exact dispose_ruled_none ho false _
    | some r => exact dispose_kept ho _
  · obtain ⟨h1, h2, h3, h4, -⟩ := s.ruledTo_spec t (f := id) x.disposed_removeWithdrawn
    exact ⟨⟨h1, h2⟩, h3, (congrArg (·.counters) h4).trans x.removeWithdrawn_counters⟩
  · have hoff := Transport.offender_removeWithdrawn hr hp huniq
    have hj : ∀ c : Ruling, c ≠ .clear → x.judgeRule c = .done := fun c hc =>
      judged_done hx (by rw [rulingFits_suspect hsusp]; exact bne_iff_ne.mpr hc) hst hcov
    refine ⟨fun h => ⟨s.ruledTo t fun y => y.refeed r, ?_, ?_⟩, fun h => ⟨s.ruledTo t fun y => y.discardOffender r, ?_, ?_⟩⟩
    · exact rule_taken hs h.1.turn (h.command.2.2.1 rfl) (hj _ (by decide)) true _ (dispose_returned hoff _)
    · obtain ⟨h1, h2, h3, h4, h5⟩ := s.ruledTo_spec t (f := fun y => y.refeed r)
        (x.disposed_removeWithdrawn.trans (Transport.disposed_refeed _ r))
      obtain ⟨c1, c2, c3⟩ := x.refeed_counters r
      refine ⟨⟨h1, h2⟩, fun sd e => ?_, h3, (congrArg (·.counters.withdrawn) h4).trans c1,
        (congrArg (·.counters.refed) h4).trans c2, (congrArg (·.counters.suspectsHeld) h4).trans c3⟩
      rw [h5 sd]
      exact x.removeWithdrawn.unit_refeed_ne r sd e
    · exact rule_taken hs h.1.turn (h.command.2.2.2.1 rfl) (hj _ (by decide)) true _ (dispose_returned hoff _)
    · obtain ⟨h1, h2, h3, h4, h5⟩ := s.ruledTo_spec t (f := fun y => y.discardOffender r)
        (x.disposed_removeWithdrawn.trans (Transport.disposed_discard _ r))
      obtain ⟨c1, c2⟩ := x.discard_counters r
      refine ⟨⟨h1, h2⟩, fun sd e => ?_, h3.trans (Transport.discard_track hlaw hr), fun sd hn => SideRecord.discarded_spec hn,
        (congrArg (·.counters.withdrawn) h4).trans c1, (congrArg (·.counters.suspectsHeld) h4).trans c2⟩
      rw [h5 sd]
      exact x.removeWithdrawn.unit_discardOffender_ne r sd e

end Sys2Proof.Machine

end

/-! PROOFS. The ABORT of a HELD transport without an offender (08 section 8.3): its count of records refed is not touched. -/

section

namespace Sys2Proof.Machine

/-- A HELD transport with an empty track whose count of records refed lies beyond the range of 05 Table 5-8. -/
def heldBeyond : Transport := { state := .held, batch := { counters := { refed := 2 ^ 32 } } }

theorem heldBeyond_pageLaw : heldBeyond.PageLaw :=
  Transport.pageLaw_of (by decide) (fun r hr => by cases hr) (fun r hr => by cases hr) fun sd => by
    cases sd <;> exact fun _ _ k => by cases k

/-- A sweep has reached the control blocks of four such transports. -/
def abortState : State := { transports := .replicate 4 heldBeyond, room := { sweep := .inFlight 0 } }

/-- The bytes of a control block posted with ABORT. -/
def abortBlock : List Byte := [1, 5, 0, 0, 0, 0, 0, 0]

/-- What the ABORT leaves before the end of its step. -/
def abortedState : State := (abortState.pastBlock 0).abortHeld 0

open State in
theorem abort_exec : exec (.abort 0 (.data abortBlock)) abortState =
    .next ((abortedState.finish (abortState.pastBlock 0) []).answer (.control 0) .done (BitVec.ofNat 32 (field abortBlock 4 4))) := by
  show execAbort 0 (.data abortBlock) abortState = _
  unfold execAbort
  refine command_done rfl rfl rfl ?_
  have e : ((abortState.pastBlock 0).tr 0).state = .held := rfl
  have hc : ((abortState.pastBlock 0).tr 0).pathClear = true := rfl
  rw [e]
  dsimp only
  rw [hc]
  rfl

theorem abortedState_tr : (abortedState.tr 0).track = [] ∧ (abortedState.tr 0).state = .draining ∧
    (abortedState.tr 0).batch.counters.refed = 2 ^ 32 := by
  have hv : abortedState = (abortState.pastBlock 0).setTr 0 (({ heldBeyond.removeWithdrawn with
      haltRequest := heldBeyond.haltRequest || heldBeyond.purpose == .halt } : Transport).enterDraining .abort) := by
    unfold abortedState State.abortHeld
    rw [State.dispose_of_none rfl]
    exact State.setTr_setTr _ _ _ _
  rw [hv, State.tr_setTr_self]
  exact ⟨rfl, rfl, rfl⟩

theorem State.tr_answer (u : State) (b : CommandBlock) (c : Answer) (n : Word) (i : TransportNo) : (u.answer b c n).tr i = u.tr i := rfl

open State in
theorem refed_finish (w before : State) {t : TransportNo} (ht : (w.tr t).track = []) (hs : (w.tr t).state = .draining) :
    ((w.finish before []).tr t).batch.counters.refed = (w.tr t).batch.counters.refed := by
  obtain ⟨-, -, e, -⟩ := endSteps_emptyKept.finishVia w before [] [] t ht (by rw [hs]; decide)
  unfold finish
  rw [e]

open State in
/-- Refutes O43: where no offender stands in the track, an ABORT of a HELD transport leaves the count of records refed alone, also
where a state holds it beyond 2^32 - 1. -/
theorem not_abortTaken : ¬ Obligations.AbortTaken := by
  intro h
  obtain ⟨-, -, hheld⟩ := h abortState 0 abortBlock rfl ⟨rfl, rfl⟩
  obtain ⟨v, -, hnone, -, hstate, -, -, -, htrack, -, -, hrefed, -⟩ := hheld rfl
    heldBeyond_pageLaw (fun st => by cases st <;> rfl) rfl (fun r hr => by cases hr)
  have hexec := abort_exec.symm.trans (hnone rfl)
  obtain ⟨a1, a2, a3⟩ := abortedState_tr
  have hsame := congrArg (fun u : State => (u.tr 0).batch.counters.refed) (Host.Outcome.next.inj hexec)
  dsimp only at hsame
  rw [tr_answer, tr_answer, refed_finish _ _ a1 a2, refed_finish _ _ htrack hstate, a3, hrefed] at hsame
  exact absurd hsame (by decide)

end Sys2Proof.Machine

end

/-! PROOFS. Records written to host memory: the addresses that the fields of a record name, and what each field holds after. -/

section

namespace Sys2Proof.Machine

theorem length_leBytes (v n : Nat) : (leBytes v n).length = n := by
  induction n generalizing v with
  | zero => rfl
  | succ n ih => simp [leBytes, ih]

theorem length_zeroBytes (n : Nat) : (zeroBytes n).length = n := List.length_replicate ..

/-- Bytes one after the other are held exactly when each part is at its place. -/
theorem holds_append {m : List Host.Cell} {base : Addr} {o : Nat} {a b : List Byte} :
    Holds m base o (a ++ b) ↔ Holds m base o a ∧ Holds m base (o + a.length) b := by
  refine ⟨fun h => ⟨fun i x hx => h i x ?_, fun i x hx => ?_⟩, fun ⟨ha, hb⟩ i x hx => ?_⟩
  · rw [List.getElem?_append_left (List.getElem?_eq_some_iff.mp hx).1, hx]
  · rw [Nat.add_assoc]
    exact h _ x (by rw [List.getElem?_append_right (Nat.le_add_right ..), Nat.add_sub_cancel_left, hx])
  · by_cases hi : i < a.length
    · exact ha i x (by rwa [List.getElem?_append_left hi] at hx)
    · have := hb (i - a.length) x (by rwa [List.getElem?_append_right (not_lt.mp hi)] at hx)
      rwa [show o + a.length + (i - a.length) = o + i by omega] at this

/-- A part of the bytes held, at its place. -/
theorem Holds.part {m : List Host.Cell} {base : Addr} {o : Nat} {bytes : List Byte} (h : Holds m base o bytes) (k n : Nat) :
    Holds m base (o + k) ((bytes.drop k).take n) := by
  intro i x hx
  rw [Nat.add_assoc]
  refine h _ x ?_
  rw [List.getElem?_take] at hx
  split at hx
  · rwa [List.getElem?_drop] at hx
  · cases hx

/-- The places that the fields of a record name, in the order written. -/
def placesOf (fs : List (Nat × List Byte)) : List Nat := fs.flatMap fun f => (List.range f.2.length).map (f.1 + ·)

theorem map_fst_recordCells (base : Addr) (fs : List (Nat × List Byte)) :
    (recordCells base fs).map (·.1) = (placesOf fs).map (byteAddress base) := by
  induction fs with
  | nil => rfl
  | cons f rest ih =>
    show (cellsAt base f.1 f.2 ++ recordCells base rest).map (·.1) = _
    rw [List.map_append, ih, map_fst_cellsAt]
    simp [placesOf, Function.comp_def]

theorem cellsAt_mem_recordCells {base : Addr} {fs : List (Nat × List Byte)} {f : Nat × List Byte} (hf : f ∈ fs) :
    ∀ c ∈ cellsAt base f.1 f.2, c ∈ recordCells base fs := by
  induction fs with
  | nil => cases hf
  | cons g rest ih =>
    intro c hc
    rcases List.mem_cons.mp hf with rfl | hf
    · exact List.mem_append_left _ hc
    · exact List.mem_append_right _ (ih hf c hc)

/-- A record whose fields overlap nowhere is held field by field after it is written. -/
theorem Holds.of_record {base : Addr} {fs : List (Nat × List Byte)} (m : List Host.Cell) (hn : (placesOf fs).Nodup)
    (hb : ∀ o ∈ placesOf fs, o < 2 ^ 64) : ∀ f ∈ fs, Holds (writeCells (recordCells base fs) m) base f.1 f.2 := fun _ hf =>
  .of_writes m (map_fst_recordCells base fs) hn hb (cellsAt_mem_recordCells hf)

/-- The bytes of a status block between its two copies of the change number (10 Table 10-9), each at its place. -/
theorem holds_statusFields {m : List Host.Cell} {base : Addr} {x : Transport} (h : Holds m base 4 (statusFields x)) :
    Holds m base 4 (leBytes x.state.code 1) ∧ Holds m base 5 (leBytes x.stopReason.code 1) ∧
    Holds m base 6 (leBytes x.pickWait.code 1) ∧ Holds m base 7 (leBytes x.purpose.code 1) ∧
    Holds m base 8 (leBytes (x.batch.ticket.elim 0 (·.batchId.toNat)) 4) ∧ Holds m base 12 (leBytes x.track.length 1) ∧
    Holds m base 13 (leBytes x.queue.length 1) ∧ Holds m base 14 (leBytes x.pos.skipCount 1) ∧ Holds m base 15 [0] ∧
    Holds m base 16 (leBytes x.batch.counters.picked 4) ∧ Holds m base 20 (leBytes x.batch.counters.settled 4) ∧
    Holds m base 24 (leBytes x.dfu.reference 2) ∧ Holds m base 26 (zeroBytes 34) := by
  unfold statusFields at h
  simp only [holds_append, List.length_append, length_leBytes, length_zeroBytes, and_assoc] at h
  exact h

theorem placesOf_status (change : Word) (x : Transport) :
    placesOf [(0, leBytes change.toNat 4), (4, statusFields x), (60, leBytes change.toNat 4)] = List.range 64 := by
  have e : (statusFields x).length = 56 := by
    simp only [statusFields, List.length_append, length_leBytes, length_zeroBytes]
  simp only [placesOf, List.flatMap_cons, List.flatMap_nil, length_leBytes, e]
  decide

end Sys2Proof.Machine

end

/-! PROOFS. Answers, status blocks and the end of the halt (09 sections 9.3 to 9.7). -/

section

namespace Sys2Proof.Machine

namespace RoomInterface

theorem owedOf_setOwed_self (r : RoomInterface) (b : CommandBlock) (w : Option AnswerWrite) : (r.setOwed b w).owedOf b = w := by
  cases b with
  | room => rfl
  | control t => exact Vector.getElem_set_self ..

theorem owedOf_setOwed_of_ne (r : RoomInterface) {b c : CommandBlock} (w : Option AnswerWrite) (h : c ≠ b) :
    (r.setOwed b w).owedOf c = r.owedOf c := by
  cases b with
  | room =>
    cases c with
    | room => exact absurd rfl h
    | control i => rfl
  | control t =>
    cases c with
    | room => rfl
    | control i =>
      exact Vector.getElem_set_ne t.isLt i.isLt fun e => h (congrArg CommandBlock.control (Fin.ext e.symm))

/-- A change of the answer owed of a block leaves the rest alone. -/
theorem setOwed_kept (r : RoomInterface) (b : CommandBlock) (w : Option AnswerWrite) :
    (r.setOwed b w).evt = r.evt ∧ (r.setOwed b w).answer = r.answer := by
  cases b <;> exact ⟨rfl, rfl⟩

end RoomInterface

namespace State

variable {s : State} {t : TransportNo}

/-- The status write and the change number of a transport replaced. -/
def withStatus (s : State) (t : TransportNo) (w : StatusWrite) (c : Word) : State :=
  s.setRoom { s.room with status := s.room.status.set t.val w t.isLt, change := s.room.change.set t.val c t.isLt }

theorem status_withStatus (w : StatusWrite) (c : Word) : (s.withStatus t w c).room.status[t] = w := Vector.getElem_set_self ..

theorem change_withStatus (w : StatusWrite) (c : Word) : (s.withStatus t w c).room.change[t] = c := Vector.getElem_set_self ..

theorem withStatus_withStatus (w v : StatusWrite) (c d : Word) : (s.withStatus t w c).withStatus t v d = s.withStatus t v d := by
  show s.setRoom _ = s.setRoom _
  simp only [withStatus, setRoom_room, Vector.set_set]

theorem requestStatus_of_idle (h : s.room.status[t] = .idle) :
    s.requestStatus t = s.withStatus t (.inFlight false) (s.room.change[t] + 1) := by
  unfold requestStatus modRoom
  dsimp only
  rw [h]
  rfl

theorem set_change_self : s.room.change.set t.val s.room.change[t] t.isLt = s.room.change := Vector.set_getElem_self ..

theorem requestStatus_of_inFlight {owed : Bool} (h : s.room.status[t] = .inFlight owed) :
    s.requestStatus t = s.withStatus t (.inFlight true) s.room.change[t] := by
  unfold requestStatus modRoom withStatus
  dsimp only
  rw [h, set_change_self]

/-- Requests while a write is in flight leave one owed, however many they are. -/
theorem requestStatuses_of_inFlight (n : Nat) {owed : Bool} (h : s.room.status[t] = .inFlight owed) :
    s.requestStatuses t (n + 1) = s.withStatus t (.inFlight true) s.room.change[t] := by
  induction n generalizing s owed with
  | zero => exact requestStatus_of_inFlight h
  | succ n ih =>
    show (s.requestStatus t).requestStatuses t (n + 1) = _
    rw [requestStatus_of_inFlight h, ih (status_withStatus ..), change_withStatus, withStatus_withStatus]

/-- The status writes that a step requests: the first begins, or is owed, and the others leave one owed (R171). -/
theorem requestStatuses_spec (s : State) (t : TransportNo) :
    s.requestStatuses t 0 = s ∧
    (s.room.status[t] = .idle → s.requestStatuses t 1 = s.withStatus t (.inFlight false) (s.room.change[t] + 1) ∧
      ∀ n, s.requestStatuses t (n + 2) = s.withStatus t (.inFlight true) (s.room.change[t] + 1)) ∧
    (s.room.status[t] ≠ .idle → ∀ n, s.requestStatuses t (n + 1) = s.withStatus t (.inFlight true) s.room.change[t]) := by
  refine ⟨rfl, fun h => ⟨requestStatus_of_idle h, fun n => ?_⟩, fun h n => ?_⟩
  · show (s.requestStatus t).requestStatuses t (n + 1) = _
    rw [requestStatus_of_idle h, requestStatuses_of_inFlight n (status_withStatus ..), change_withStatus, withStatus_withStatus]
  · cases e : s.room.status[t] with
    | idle => exact absurd e h
    | inFlight owed => exact requestStatuses_of_inFlight n e

end State

/-! ### The bytes of an answer and of a status block -/

theorem controlCode_bytes : ∀ p ∈ [((1 : Byte), Answer.done), (2, .busy), (3, .notHeld), (4, .wrongRuling), (5, .pathNotClear),
    (6, .setupBad), (7, .halting), (8, .unknown)], leBytes p.2.controlCode 1 = [p.1] := by decide

theorem roomCode_bytes : ∀ p ∈ [((1 : Byte), Answer.done), (2, .badLane), (3, .busy), (8, .unknown)],
    leBytes p.2.roomCode 1 = [p.1] := by decide

theorem stateCode_bytes : ∀ p ∈ [((0 : Byte), TransportState.off), (1, .ready), (2, .running), (3, .draining), (4, .paused),
    (5, .held)], leBytes p.2.code 1 = [p.1] := by decide

theorem stopReasonCode_bytes : ∀ p ∈ [((0 : Byte), StopReason.none), (1, .suspect), (2, .jamEarly), (3, .jamLate),
    (4, .trailLate), (5, .stall), (6, .cover), (7, .misfeed)], leBytes p.2.code 1 = [p.1] := by decide

theorem pickWaitCode_bytes : ∀ p ∈ [((0 : Byte), PickWait.none), (1, .runOn), (2, .runIn), (3, .trackFull), (4, .gap), (5, .tray),
    (6, .count), (7, .mark), (8, .space)], leBytes p.2.code 1 = [p.1] := by decide

theorem purposeCode_bytes : ∀ p ∈ [((0 : Byte), Purpose.none), (1, .pause), (2, .endBatch), (3, .abort), (4, .halt)],
    leBytes p.2.code 1 = [p.1] := by decide

/-- The answer of a control block: code, answer number, the turn last (10 Table 10-7). -/
theorem controlAnswer_held (k : RoomTable) (w : AnswerWrite) (t : TransportNo) (m : List Host.Cell) (h : w.block = .control t) :
    let cells := answerCells k w
    let held := Holds (writeCells cells m) k.control[t]
    cells.map (·.1) = [3, 4, 5, 6, 7, 0].map (byteAddress k.control[t]) ∧ held 3 (leBytes w.code.controlCode 1) ∧
    held 4 (leBytes w.number.toNat 4) ∧ held 0 [0] := by
  unfold answerCells
  rw [h]
  have hp : placesOf [(3, leBytes w.code.controlCode 1), (4, leBytes w.number.toNat 4), (0, [0])] = [3, 4, 5, 6, 7, 0] := rfl
  have hh := Holds.of_record (base := k.control[t]) m (by rw [hp]; decide) (by rw [hp]; decide)
  exact ⟨(map_fst_recordCells _ _).trans (by rw [hp]), hh (3, leBytes w.code.controlCode 1) (by simp),
    hh (4, leBytes w.number.toNat 4) (by simp), hh (0, [0]) (by simp)⟩

/-- The answer of the room control block: code and turn (10 Table 10-8). -/
theorem roomAnswer_held (k : RoomTable) (w : AnswerWrite) (m : List Host.Cell) (h : w.block = .room) :
    let cells := answerCells k w
    let held := Holds (writeCells cells m) k.room
    cells.map (·.1) = [3, 0].map (byteAddress k.room) ∧ held 3 (leBytes w.code.roomCode 1) ∧ held 0 [0] := by
  unfold answerCells
  rw [h]
  have hp : placesOf [(3, leBytes w.code.roomCode 1), (0, [0])] = [3, 0] := rfl
  have hh := Holds.of_record (base := k.room) m (by rw [hp]; decide) (by rw [hp]; decide)
  exact ⟨(map_fst_recordCells _ _).trans (by rw [hp]), hh (3, leBytes w.code.roomCode 1) (by simp), hh (0, [0]) (by simp)⟩

theorem answerInFlight_eq {s : State} {w : AnswerWrite} {k : RoomTable} (h : s.room.answer = some w) (hk : s.room.table = some k) :
    s.answerInFlight = answerCells k w := by
  unfold State.answerInFlight
  rw [h, hk]

theorem statusInFlight_eq {s : State} {t : TransportNo} {owed : Bool} {k : RoomTable} (h : s.room.status[t] = .inFlight owed)
    (hk : s.room.table = some k) : s.statusInFlight t = statusCells k.status[t] s.room.change[t] (s.tr t) := by
  unfold State.statusInFlight
  rw [h, hk]

/-- A status block: its leading copy, its fields, its trailing copy (10 Table 10-9). -/
theorem status_held (base : Addr) (change : Word) (x : Transport) (m : List Host.Cell) :
    let cells := statusCells base change x
    let held := Holds (writeCells cells m) base
    cells.map (·.1) = (List.range 64).map (byteAddress base) ∧ held 0 (leBytes change.toNat 4) ∧
    held 60 (leBytes change.toNat 4) ∧ held 4 (statusFields x) := by
  unfold statusCells
  have hp := placesOf_status change x
  have hh := Holds.of_record (base := base) m (by rw [hp]; exact List.nodup_range)
    (by rw [hp]; exact fun o ho => lt_trans (List.mem_range.mp ho) (by norm_num))
  exact ⟨(map_fst_recordCells _ _).trans (by rw [hp]), hh (0, leBytes change.toNat 4) (by simp),
    hh (60, leBytes change.toNat 4) (by simp), hh (4, statusFields x) (by simp)⟩

/-! ### The ends of the writes -/

namespace State

variable {s : State}

/-- An answer write that ends well sets its event (R168, R170). -/
theorem exec_answerWriteDone_ok {w : AnswerWrite} (h : s.room.answer = some w) : exec (.answerWriteDone .ok) s =
    .next ((s.setHostMem (writeCells s.answerInFlight s.hostMem)).setRoom { s.room with
      answer := none, evt := s.room.evt ||| 1#16 <<< (blockEvent w.block).bit }) := by
  show execAnswerWriteDone .ok s = _
  unfold execAnswerWriteDone
  rw [h]
  rfl

/-- A bus error of an answer write leaves the answer owed (R169). -/
theorem exec_answerWriteDone_busError {w : AnswerWrite} (h : s.room.answer = some w) (k : Nat) :
    exec (.answerWriteDone (.busError k)) s =
    .next ((s.setHostMem (writeCells (s.answerInFlight.take k) s.hostMem)).setRoom
      (({ s.room with answer := none, evt := s.room.evt ||| 0x4000#16 } : RoomInterface).setOwed w.block (some w))) := by
  show execAnswerWriteDone (.busError k) s = _
  unfold execAnswerWriteDone
  rw [h]
  rfl

theorem exec_owedAnswerWrite {b : CommandBlock} {w : AnswerWrite} (hr : s.sweepReaches (blockPlace b))
    (h : s.room.owedOf b = some w) (turn : MemRead) :
    exec (.owedAnswerWrite b turn) s = .next ((s.serveOwed b w turn).sweepPast (blockPlace b)) := by
  show execOwedAnswerWrite b turn s = _
  unfold execOwedAnswerWrite
  rw [if_pos hr, h]

theorem serveOwed_data (b : CommandBlock) (w : AnswerWrite) (bytes : List Byte) : s.serveOwed b w (.data bytes) =
    s.modRoom fun r => if turnPosted bytes then { r.setOwed b none with answer := some w } else r.setOwed b none := rfl

theorem answer_of_sweepReaches {place : Nat} (h : s.sweepReaches place) : s.room.answer = none := by
  unfold sweepReaches at h
  split at h
  · cases h
  · simp only [Bool.and_eq_true, Option.isNone_iff_eq_none] at h
    exact h.1.2

/-- A status write in flight ends, and a further one that is owed begins (R171). -/
theorem statusEnded_eq (t : TransportNo) (owed : Bool) : s.statusEnded t owed = s.setRoom { s.room with
    status := s.room.status.set t.val (if owed then .inFlight false else .idle) t.isLt
    change := if owed then s.room.change.set t.val (s.room.change[t] + 1) t.isLt else s.room.change } := by
  cases owed with
  | false => rfl
  | true =>
    show (s.modRoom _).requestStatus t = _
    have hi : (s.modRoom fun r => { r with status := r.status.set t.val .idle t.isLt }).room.status[t] = .idle :=
      Vector.getElem_set_self ..
    rw [requestStatus_of_idle hi]
    simp only [withStatus, modRoom, setRoom_room, Vector.set_set, if_true]
    rfl

/-- The event of a status block write that ends (R171). -/
def statusEvent (t : TransportNo) : BusWrite → Event
  | .ok => .transport t
  | .busError _ => .memfault

theorem exec_statusBlockWriteDone {t : TransportNo} {owed : Bool} (h : s.room.status[t] = .inFlight owed) (result : BusWrite) :
    exec (.statusBlockWriteDone t result) s =
      .next (((s.hostWrite result (s.statusInFlight t)).setEvent (statusEvent t result)).statusEnded t owed) := by
  show execStatusBlockWriteDone t result s = _
  unfold execStatusBlockWriteDone
  rw [h]
  cases result <;> rfl

theorem mem_allLanes (n : LaneNo) : n ∈ allLanes := List.mem_finRange n

theorem quiet_iff : s.quiet = true ↔ s.room.sweep = .idle ∧ s.room.answer = none ∧ (∀ t : TransportNo, s.room.status[t] = .idle) ∧
    ∀ n, (s.lane n).binTake = false ∧ (s.lane n).restart = false ∧ (s.lane n).handBack = none := by
  unfold quiet
  simp only [Bool.and_eq_true, beq_iff_eq, Option.isNone_iff_eq_none, List.all_eq_true, mem_allTransports, forall_const,
    mem_allLanes, Bool.not_eq_true', and_assoc]

end State

/-- Settles O46. -/
theorem answersAndStatusWrites : Obligations.AnswersAndStatusWrites := by
  refine ⟨⟨fun s w h => ?_, fun s b w hr h => ?_⟩, fun s w k h hk => ⟨fun t hb => ?_, fun hb => ?_⟩, fun s t owed k h hk => ?_,
    fun s t owed h => ?_, fun s t => s.requestStatuses_spec t, fun s => ?_⟩
  · refine ⟨⟨_, State.exec_answerWriteDone_ok h, rfl, ?_⟩, fun k => ⟨_, State.exec_answerWriteDone_busError h k, rfl, ?_⟩⟩
    · cases w.block <;> rfl
    · exact ⟨(RoomInterface.setOwed_kept ..).2, (RoomInterface.setOwed_kept ..).1, RoomInterface.owedOf_setOwed_self ..,
        fun b hb => RoomInterface.owedOf_setOwed_of_ne _ _ hb |>.trans (by cases b <;> rfl), rfl⟩
  · have ha := State.answer_of_sweepReaches hr
    refine ⟨fun bytes hp => ⟨_, State.exec_owedAnswerWrite hr h _, ?_⟩, fun bytes hp => ⟨_, State.exec_owedAnswerWrite hr h _, ?_⟩,
      ⟨_, State.exec_owedAnswerWrite hr h _, ha, ?_, rfl, rfl⟩⟩
    · rw [State.serveOwed_data, hp]
      have ho := s.room.owedOf_setOwed_self b none
      refine ⟨rfl, ?_, (s.room.setOwed_kept b none).1, rfl⟩
      cases b <;> exact ho
    · rw [State.serveOwed_data, hp]
      have ho := s.room.owedOf_setOwed_self b none
      refine ⟨(s.room.setOwed_kept b none).2.trans ha, ?_, (s.room.setOwed_kept b none).1, rfl⟩
      cases b <;> exact ho
    · cases b <;> exact h
  · rw [answerInFlight_eq h hk]
    obtain ⟨hc, h3, h4, h0⟩ := controlAnswer_held k w t s.hostMem hb
    exact ⟨hc, h4, h0, fun b hm => controlCode_bytes _ hm ▸ h3⟩
  · rw [answerInFlight_eq h hk]
    obtain ⟨hc, h3, h0⟩ := roomAnswer_held k w s.hostMem hb
    exact ⟨hc, h0, fun b hm => roomCode_bytes _ hm ▸ h3⟩
  · rw [statusInFlight_eq h hk]
    obtain ⟨hc, hlead, htrail, hf⟩ := status_held k.status[t] s.room.change[t] (s.tr t) s.hostMem
    obtain ⟨f4, f5, f6, f7, f8, rest⟩ := holds_statusFields hf
    exact ⟨hc, hlead, htrail, fun b hm => stateCode_bytes _ hm ▸ f4, fun b hm => stopReasonCode_bytes _ hm ▸ f5,
      fun b hm => pickWaitCode_bytes _ hm ▸ f6, fun b hm => purposeCode_bytes _ hm ▸ f7,
      fun c hc => by rw [hc] at f8; exact f8, fun hn => by rw [hn] at f8; exact f8, rest⟩
  · refine ⟨(State.exec_statusBlockWriteDone h _).trans ?_, fun k => (State.exec_statusBlockWriteDone h _).trans ?_⟩
    · rw [State.statusEnded_eq]; rfl
    · rw [State.statusEnded_eq]; rfl
  · have hi : (s.allOff = true ∧ s.quiet = true) ↔ (∀ t, (s.tr t).state = .off) ∧ s.room.sweep = .idle ∧ s.room.answer = none ∧
        (∀ t : TransportNo, s.room.status[t] = .idle) ∧
        ∀ n, (s.lane n).binTake = false ∧ (s.lane n).restart = false ∧ (s.lane n).handBack = none := by
      rw [State.allOff_iff, State.quiet_iff]
    refine ⟨fun hp h => if_pos ⟨hp, hi.mpr h⟩, fun h => if_neg fun ⟨hp, hq⟩ => ?_⟩
    exact h.elim (absurd hp) (absurd (hi.mp hq))

end Sys2Proof.Machine

end

/-! PROOFS. The candidate found at a sweep (05 section 5.1). -/

section

namespace Sys2Proof.Machine

namespace State

variable {s : State} {t : TransportNo}

theorem mayTake_iff (hp : s.room.part = .active) (hs : (s.tr t).state = .ready) : s.mayTake t = true ↔
    (s.tr t).pos.coverOpen.level = false ∧ (s.tr t).batch.take = none ∧ (s.tr t).batch.outcome = none := by
  unfold mayTake
  simp only [hs, hp, beq_self_eq_true, Bool.true_and, Bool.and_eq_true, Bool.not_eq_true', Option.isNone_iff_eq_none, and_assoc]

/-- The candidate and the take of a transport replaced. -/
def withCandidate (s : State) (t : TransportNo) (c : Candidate) (k : Option Addr) : State :=
  s.setTr t { s.tr t with batch := { (s.tr t).batch with candidate := c, take := k } }

theorem withCandidate_of_kept {c : Candidate} (h : (s.tr t).batch.candidate = c) :
    s.withCandidate t c (s.tr t).batch.take = s := by
  subst h
  exact setTr_self s t

/-- What a step 3 of a sweep leaves, by what its reads found. -/
theorem ticketTake_eq (hr : s.sweepReaches (5 + t.val)) (hp : s.room.part = .active) (hs : (s.tr t).state = .ready)
    {link turn : MemRead} {f : Found} (hf : followCandidate (s.tr t).batch.candidate link turn = f) :
    exec (.ticketTake t link turn) s =
      .next ((s.withCandidate t f.candidate (if s.mayTake t then f.posted else (s.tr t).batch.take)).setRoom { s.room with
        sweep := .inFlight (5 + t.val + 1), evt := if f.fault then s.room.evt ||| 0x4000#16 else s.room.evt }) := by
  refine (if_pos ⟨hr, hp, hs⟩ : execTicketTake t link turn s = _).trans ?_
  rw [hf]
  unfold noteCandidate
  cases f.fault <;> rfl

/-- A ticket that is not found posted leaves no take: where one may begin, none is in flight. -/
theorem take_of_not_posted (hp : s.room.part = .active) (hs : (s.tr t).state = .ready) :
    (if s.mayTake t then none else (s.tr t).batch.take) = (s.tr t).batch.take := by
  split
  · next h => exact ((mayTake_iff hp hs).mp h).2.1.symm
  · rfl

end State

theorem findAt_data (a : Addr) (bytes : List Byte) :
    findAt a (.data bytes) = { candidate := .at a, fault := false, posted := if turnPosted bytes then some a else none } := rfl

/-- A candidate that is at no ticket yet is followed from its link. -/
theorem followCandidate_of_link {c : Candidate} (h : ∀ a, c ≠ .at a) (link turn : MemRead) :
    followCandidate c link turn = followLink c link turn := by
  match c with
  | .at a => exact absurd rfl (h a)
  | .head => rfl
  | .after f => rfl

section

variable {c : Candidate} {link : List Byte} {turn : MemRead}

theorem followLink_zero (h : addrField link 0 = 0) :
    followLink c (.data link) turn = { candidate := c, fault := false, posted := none } := if_pos h

theorem followLink_misaligned (h : (addrField link 0).toNat % 64 ≠ 0) :
    followLink c (.data link) turn = { candidate := c, fault := true, posted := none } := by
  have h0 : addrField link 0 ≠ 0 := fun e => h (by rw [e]; rfl)
  exact (if_neg h0).trans (if_neg (mt (multipleOf_iff _ _).mp h))

theorem followLink_ticket (h0 : addrField link 0 ≠ 0) (h : (addrField link 0).toNat % 64 = 0) :
    followLink c (.data link) turn = findAt (addrField link 0) turn := (if_neg h0).trans (if_pos ((multipleOf_iff _ _).mpr h))

end

/-- Settles O47. -/
theorem ticketFound : Obligations.TicketFound := by
  intro s t hr hp hs x past fault may put
  have hmay : s.mayTake t = true ↔ may := State.mayTake_iff hp hs
  have hno : (if s.mayTake t then none else (s.tr t).batch.take) = (s.tr t).batch.take := State.take_of_not_posted hp hs
  have eq := fun {link turn f} => State.ticketTake_eq (link := link) (turn := turn) (f := f) hr hp hs
  refine ⟨fun a link turn ha ht => ⟨fun hm => ?_, fun hm => ?_⟩, fun a link turn ha ht => ?_, fun a link ha => ?_, fun hc => ?_⟩
  · rw [eq (f := ⟨.at a, false, some a⟩) (by rw [ha, followCandidate, findAt_data, if_pos ht]), if_pos (hmay.mpr hm)]
    rfl
  · rw [eq (f := ⟨.at a, false, some a⟩) (by rw [ha, followCandidate, findAt_data, if_pos ht]), if_neg (mt hmay.mp hm)]
    exact congrArg (fun v : State => Host.Outcome.next (v.setRoom _)) (State.withCandidate_of_kept ha)
  · rw [eq (f := ⟨.at a, false, none⟩) (by rw [ha, followCandidate, findAt_data, if_neg (by simp [ht])]), hno]
    exact congrArg (fun v : State => Host.Outcome.next (v.setRoom _)) (State.withCandidate_of_kept ha)
  · rw [eq (f := ⟨.at a, true, none⟩) (by rw [ha]; rfl), hno]
    exact congrArg (fun v : State => Host.Outcome.next (v.setRoom _)) (State.withCandidate_of_kept ha)
  · have hl := followCandidate_of_link hc
    refine ⟨fun turn => ?_, fun link => ⟨fun turn h0 => ?_, fun turn h64 => ?_, fun h0 h64 => ⟨?_, fun turn => ⟨fun ht hm => ?_,
      fun h => ?_⟩⟩⟩⟩
    · rw [eq (f := ⟨x.batch.candidate, true, none⟩) (hl ..), hno]
      exact congrArg (fun v : State => Host.Outcome.next (v.setRoom _)) (State.withCandidate_of_kept rfl)
    · rw [eq (f := ⟨x.batch.candidate, false, none⟩) ((hl ..).trans (followLink_zero h0)), hno]
      exact congrArg (fun v : State => Host.Outcome.next (v.setRoom _)) (State.withCandidate_of_kept rfl)
    · rw [eq (f := ⟨x.batch.candidate, true, none⟩) ((hl ..).trans (followLink_misaligned h64)), hno]
      exact congrArg (fun v : State => Host.Outcome.next (v.setRoom _)) (State.withCandidate_of_kept rfl)
    · rw [eq ((hl ..).trans (followLink_ticket h0 h64)), findAt, hno]
      rfl
    · rw [eq ((hl ..).trans (followLink_ticket h0 h64)), findAt_data, if_pos ht, if_pos (hmay.mpr hm)]
      rfl
    · rw [eq ((hl ..).trans (followLink_ticket h0 h64)), findAt_data]
      have hk : (if s.mayTake t then (if turnPosted turn then some (addrField link 0) else none) else (s.tr t).batch.take) =
          (s.tr t).batch.take := by
        rcases h with h | h
        · rw [if_neg (by simp [h] : ¬turnPosted turn = true), hno]
        · exact if_neg (mt hmay.mp h)
      simp only [hk]
      rfl

end Sys2Proof.Machine

end

/-! PROOFS. The end of a take: the checks of a ticket in order, and the batch it starts (05 section 5.2). -/

section

namespace Sys2Proof.Machine

variable {k : TicketFields} {profiles routes : Nat} {unused : LaneNo → Bool} {main alt route : MemRead} {rt m q : List Byte}
  {n : LaneNo}

theorem judgeTicket_of_badProfile (h : profiles ≤ k.main ∨ (k.alt ≠ 255 ∧ profiles ≤ k.alt)) :
    judgeTicket k profiles routes unused main alt route = .refused .profileRange := if_pos h

theorem judgeTicket_of_badRoute (h : ¬(profiles ≤ k.main ∨ (k.alt ≠ 255 ∧ profiles ≤ k.alt))) (hr : routes ≤ k.route) :
    judgeTicket k profiles routes unused main alt route = .refused .routeRange := (if_neg h).trans (if_pos hr)

/-- With its profiles and its route in range a ticket is judged by its route table. -/
theorem judgeTicket_of_inRange (h : ¬(profiles ≤ k.main ∨ (k.alt ≠ 255 ∧ profiles ≤ k.alt))) (hr : k.route < routes) :
    judgeTicket k profiles routes unused main alt .busError = .abandoned ∧
    (32 < field rt 0 1 → judgeTicket k profiles routes unused main alt (.data rt) = .refused .routeRange) ∧
    (field rt 0 1 ≤ 32 → judgeTicket k profiles routes unused main alt (.data rt) = judgeLane k unused main alt rt) :=
  ⟨(if_neg h).trans (if_neg (not_le.mpr hr)), fun h32 => (if_neg h).trans ((if_neg (not_le.mpr hr)).trans (if_pos h32)),
    fun h32 => (if_neg h).trans ((if_neg (not_le.mpr hr)).trans (if_neg (not_lt.mpr h32)))⟩

theorem judgeLane_of_none (h : 8 ≤ k.account) : judgeLane k unused main alt rt = .refused .laneRange :=
  dif_neg (not_lt.mpr h)

theorem judgeLane_of_unused (hn : n.val = k.account) (h : unused n = true) :
    judgeLane k unused main alt rt = .refused .laneRange := by
  have e : (⟨k.account, hn ▸ n.isLt⟩ : LaneNo) = n := Fin.ext hn.symm
  exact (dif_pos (hn ▸ n.isLt)).trans (by rw [e]; exact if_pos h)

theorem judgeLane_of_used (hn : n.val = k.account) (h : unused n = false) :
    judgeLane k unused main alt rt = judgeProfiles k main alt rt n := by
  have e : (⟨k.account, hn ▸ n.isLt⟩ : LaneNo) = n := Fin.ext hn.symm
  exact (dif_pos (hn ▸ n.isLt)).trans (by rw [e]; exact if_neg (by rw [h]; exact nofun))

theorem judgeProfiles_of_bad_main (h : parseProfile m = none) :
    judgeProfiles k (.data m) (.data q) rt n = .refused .profileBad := by
  unfold judgeProfiles
  dsimp only
  rw [h]
  split <;> rfl

theorem judgeProfiles_of_unread_alt (h : k.alt ≠ 255) : judgeProfiles k (.data m) .busError rt n = .abandoned := if_neg h

theorem judgeProfiles_of_bad_alt {p : Profile} (hm : parseProfile m = some p) (h : k.alt ≠ 255) (hq : parseProfile q = none) :
    judgeProfiles k (.data m) (.data q) rt n = .refused .altBad := by
  unfold judgeProfiles
  dsimp only
  rw [if_neg h, hm, hq]

/-- With its profiles good, the alt profile where it has one, a ticket starts its batch. -/
theorem judgeProfiles_of_good {p : Profile} {second : Option Profile} (hm : parseProfile m = some p)
    (h : (k.alt = 255 ∧ second = none) ∨
      (k.alt ≠ 255 ∧ ∃ q, alt = .data q ∧ parseProfile q = second ∧ second ≠ none)) :
    judgeProfiles k (.data m) alt rt n = .start k p second (parseRoutes rt) n := by
  unfold judgeProfiles
  dsimp only
  rcases h with ⟨h255, rfl⟩ | ⟨h255, q, rfl, hq, hs⟩
  · rw [if_pos h255, hm]
  · obtain ⟨r, rfl⟩ := Option.ne_none_iff_exists'.mp hs
    rw [if_neg h255, hm]
    dsimp only
    rw [hq]

/-- What the start of a batch leaves of its transport (R92). -/
theorem Transport.startBatch_spec (x : Transport) (b : BatchContext) : (x.startBatch b).state = .running ∧
    (x.startBatch b).retries = 0 ∧ (x.startBatch b).pos.skipCount = 0 ∧ (x.startBatch b).pos.counter = x.pos.counter ∧
    (x.startBatch b).batch = b ∧ (x.motor = .runOff → (x.startBatch b).motor = .driving) ∧
    (x.motor = .standing → x.pos.coverOpen.level = true → (x.startBatch b).motor = .standing ∧ (x.startBatch b).coverWait = true) := by
  let y : Transport := { x with batch := b, pos := { x.pos with skipCount := 0 }, retries := 0 }
  obtain ⟨k1, -, k3, k4, -⟩ := y.enterRunning_kept
  obtain ⟨m1, m2, -⟩ := y.enterRunning_motor
  obtain ⟨m, w, a, tm, d, ro, e, -⟩ := y.enteringRunning.startMotor_eq
  have hp : y.enterRunning.pos = { y.pos with stallTimer := tm } := congrArg Transport.pos e
  exact ⟨k1, k3, (congrArg (·.skipCount) hp :), (congrArg (·.counter) hp :), k4, fun h => (m1 h).1, m2⟩

namespace State

variable {s : State} {t : TransportNo} {a : Addr}

theorem exec_ticketTakeDone (hs : (s.tr t).state = .ready) (ha : (s.tr t).batch.take = some a) (ticket main alt route : MemRead) :
    exec (.ticketTakeDone t ticket main alt route) s = .next (s.endTake t a (s.judgeTake ticket main alt route)) := by
  show execTicketTakeDone t ticket main alt route s = _
  unfold execTicketTakeDone
  rw [ha]
  exact if_pos hs

theorem judgeTake_of_table {table : RoomTable} (h : s.room.table = some table) (b : List Byte) (main alt route : MemRead) :
    s.judgeTake (.data b) main alt route = judgeTicket (parseTicket b) table.profileCount table.routeCount
      (fun n => (s.lane n).state == .unused) main alt route := by
  unfold judgeTake
  rw [h]
  rfl

end State

/-- Settles O48. -/
theorem takeEnds : Obligations.TakeEnds := by
  intro s t a hs ha x refused copied abandoned
  have eq := State.exec_ticketTakeDone hs ha
  have hrefused : ∀ reason, Host.Outcome.next (s.endTake t a (.refused reason)) = refused reason := fun _ => rfl
  have habandoned : Host.Outcome.next (s.endTake t a .abandoned) = abandoned := rfl
  refine ⟨fun main alt route => eq .., fun b table htab => ?_⟩
  have judge := fun main alt route => State.judgeTake_of_table htab b main alt route
  refine ⟨fun main alt route hb => ?_, fun hb hr main alt route => ?_, fun hb hr main alt => ?_, fun hb hr rt => ⟨fun h32 main alt => ?_,
    fun h32 => ⟨fun hl main alt => ?_, fun n hn hu => ?_⟩⟩⟩
  · rw [eq, judge, judgeTicket_of_badProfile hb, hrefused]
  · rw [eq, judge, judgeTicket_of_badRoute hb hr, hrefused]
  · rw [eq, judge, (judgeTicket_of_inRange (rt := []) hb hr).1, habandoned]
  · rw [eq, judge, (judgeTicket_of_inRange hb hr).2.1 h32, hrefused]
  · rw [eq, judge, (judgeTicket_of_inRange hb hr).2.2 h32]
    rcases hl with hl | ⟨n, hn, hu⟩
    · rw [judgeLane_of_none hl, hrefused]
    · rw [judgeLane_of_unused hn (by simpa using hu), hrefused]
  · have lane := fun main alt => (eq (.data b) main alt (.data rt)).trans (congrArg (fun o => Host.Outcome.next (s.endTake t a o))
      ((judge main alt (.data rt)).trans (((judgeTicket_of_inRange hb hr).2.2 h32).trans
        (judgeLane_of_used hn (by simpa using hu)))))
    refine ⟨fun alt => (lane ..).trans habandoned, fun m => ⟨fun h255 => ?_, fun q hm => ?_, fun p hm => ⟨fun q h255 hq => ?_,
      fun alt second h => ?_⟩⟩⟩
    · rw [lane, judgeProfiles_of_unread_alt h255, habandoned]
    · rw [lane, judgeProfiles_of_bad_main hm, hrefused]
    · rw [lane, judgeProfiles_of_bad_alt hm h255 hq, hrefused]
    · let c := x.newBatch a (parseTicket b) p second (parseRoutes rt) n
      obtain ⟨s1, s2, s3, s4, s5, s6, s7⟩ := x.startBatch_spec c
      have hv : (s.setTr t (x.startBatch c)).tr t = x.startBatch c := State.tr_setTr_self ..
      refine ⟨s.setTr t (x.startBatch c), ?_, .setTr s t _, ?_⟩
      · rw [lane, judgeProfiles_of_good hm h]
        rfl
      · rw [hv, s5]
        exact ⟨s1, s2, s3, s4, rfl, rfl, rfl, rfl, rfl, rfl, rfl, rfl, rfl, rfl, s6, s7⟩

end Sys2Proof.Machine

end

/-! PROOFS. The bytes of an outcome, and DRAINING left for READY or OFF at the end of the step that wrote it (05 section 5.7). -/

section

namespace Sys2Proof.Machine

/-! ### The bytes of an outcome -/

theorem outcomeCode_bytes : ∀ p ∈ [((1 : Byte), OutcomeCode.complete), (2, .short), (3, .over), (4, .aborted), (5, .interrupted),
    (6, .refused)], leBytes p.2.code 1 = [p.1] := by decide

theorem refusalCode_bytes : ∀ p ∈ [((0 : Byte), RefusalReason.none), (1, .profileRange), (2, .profileBad), (3, .altBad),
    (4, .routeRange), (5, .laneRange)], leBytes p.2.code 1 = [p.1] := by decide

/-- Words one after the other, each held at its place. -/
theorem Holds.word {m : List Host.Cell} {base : Addr} {l : List Nat} {o : Nat}
    (h : Holds m base o (l.flatMap fun v => leBytes v 4)) (i n : Nat) (hi : l[i]? = some n) : Holds m base (o + 4 * i) (leBytes n 4) := by
  induction l generalizing o i with
  | nil => cases hi
  | cons v rest ih =>
    obtain ⟨hv, hr⟩ := holds_append.mp h
    cases i with
    | zero => cases hi; exact hv
    | succ i =>
      have := ih (o := o + 4) (by rwa [length_leBytes] at hr) i hi
      rwa [show o + 4 + 4 * i = o + 4 * (i + 1) by omega] at this

/-- The fields of an outcome in the order written (10 Tables 10-5, 10-6). -/
def outcomeFields (w : OutcomeWrite) : List (Nat × List Byte) :=
  [(6, leBytes w.code.code 1), (7, leBytes w.reason.code 1), (64, w.counters.toList.flatMap fun v => leBytes v 4), (0, [0])]

theorem outcomeCells_eq (w : OutcomeWrite) : outcomeCells w = recordCells w.ticket (outcomeFields w) := rfl

theorem placesOf_outcome (w : OutcomeWrite) : placesOf (outcomeFields w) = [6, 7] ++ (List.range 88).map (64 + ·) ++ [0] := by
  have e : (w.counters.toList.flatMap fun v => leBytes v 4).length = 88 := by
    simp only [Counters.toList, List.flatMap_cons, List.flatMap_nil, List.length_append, length_leBytes, List.length_nil]
  simp only [placesOf, outcomeFields, List.flatMap_cons, List.flatMap_nil, length_leBytes, e]
  rfl

theorem nodup_outcomePlaces : ([6, 7] ++ (List.range 88).map (64 + ·) ++ [0]).Nodup := by decide

theorem bounded_outcomePlaces : ∀ o ∈ [6, 7] ++ (List.range 88).map (64 + ·) ++ [0], o < 2 ^ 64 := by decide

theorem outcome_held (w : OutcomeWrite) (m : List Host.Cell) : ∀ f ∈ outcomeFields w,
    Holds (writeCells (outcomeCells w) m) w.ticket f.1 f.2 := by
  rw [outcomeCells_eq]
  refine Holds.of_record m ?_ ?_
  · rw [placesOf_outcome]; exact nodup_outcomePlaces
  · rw [placesOf_outcome]; exact bounded_outcomePlaces

namespace State

variable {s u v : State} {t i : TransportNo}

/-! ### DRAINING left -/

/-- A transport that drains for a batch whose outcome is written (R106). -/
structure Awaits (x : Transport) : Prop where
  draining : x.state = .draining
  empty : x.track = []
  purpose : x.purpose ≠ .pause
  written : x.batch.closure = .written

/-- What the leaving of DRAINING comes to (R28). -/
structure LeftFor (x y : Transport) : Prop where
  empty : y.track = []
  closure : y.batch.closure = .notAsked
  purpose : y.purpose = .none
  off : x.purpose = .halt ∨ x.haltRequest = true → y.state = .off ∧ y.motor = .standing
  ready : x.purpose ≠ .halt → x.haltRequest = false → y.state = .ready

theorem LeftFor.out {x y : Transport} (h : LeftFor x y) : y.state = .off ∨ y.state = .ready := by
  by_cases hp : x.purpose = .halt
  · exact .inl (h.off (.inl hp)).1
  · cases hh : x.haltRequest with
    | true => exact .inl (h.off (.inr hh)).1
    | false => exact .inr (h.ready hp hh)

/-- The end of a step keeps a transport that waits to leave DRAINING waiting, or lets it leave; one that has left stays as it is. -/
def LeavesKept (x y : Transport) : Prop :=
  (Awaits x → y.batch.outcome = x.batch.outcome ∧
    ((Awaits y ∧ y.purpose = x.purpose ∧ y.haltRequest = x.haltRequest) ∨ LeftFor x y)) ∧
  (x.track = [] → x.batch.closure = .notAsked → x.state = .off ∨ x.state = .ready →
    y.track = [] ∧ y.batch.closure = .notAsked ∧ y.state = x.state ∧ y.purpose = x.purpose ∧ y.motor = x.motor ∧
    y.batch.outcome = x.batch.outcome)

/-- A change that touches none of what the leaving turns on. -/
theorem LeavesKept.of_kept {x y : Transport} (h : y.state = x.state ∧ y.track = x.track ∧ y.purpose = x.purpose ∧
    y.haltRequest = x.haltRequest ∧ y.motor = x.motor ∧ y.batch.closure = x.batch.closure ∧ y.batch.outcome = x.batch.outcome) :
    LeavesKept x y := by
  obtain ⟨h1, h2, h3, h4, h5, h6, h7⟩ := h
  exact ⟨fun ⟨a, b, c, d⟩ => ⟨h7, .inl ⟨⟨h1.trans a, h2.trans b, by rwa [h3], h6.trans d⟩, h3, h4⟩⟩,
    fun a b c => ⟨h2.trans a, h6.trans b, h1, h3, h5, h7⟩⟩

/-- A change of another kind of transport. -/
theorem LeavesKept.of_other {x y : Transport} (h : ¬Awaits x)
    (g : ¬(x.track = [] ∧ x.batch.closure = .notAsked ∧ (x.state = .off ∨ x.state = .ready))) : LeavesKept x y :=
  ⟨fun k => absurd k h, fun a b c => absurd ⟨a, b, c⟩ g⟩

theorem LeavesKept.trans {x y z : Transport} (h : LeavesKept x y) (g : LeavesKept y z) : LeavesKept x z := by
  refine ⟨fun hx => ?_, fun a b c => ?_⟩
  · obtain ⟨ho, ⟨hy, hp, hh⟩ | hl⟩ := h.1 hx
    · obtain ⟨go, gz⟩ := g.1 hy
      refine ⟨go.trans ho, gz.imp (fun ⟨k, kp, kh⟩ => ⟨k, kp.trans hp, kh.trans hh⟩) fun k => ?_⟩
      exact ⟨k.empty, k.closure, k.purpose, fun e => k.off (by rwa [hp, hh]), fun e f => k.ready (by rwa [hp]) (by rwa [hh])⟩
    · obtain ⟨g1, g2, g3, g4, g5, g6⟩ := g.2 hl.empty hl.closure hl.out
      exact ⟨g6.trans ho, .inr ⟨g1, g2, g4.trans hl.purpose, fun e => ⟨g3.trans (hl.off e).1, g5.trans (hl.off e).2⟩,
        fun e f => g3.trans (hl.ready e f)⟩⟩
  · obtain ⟨h1, h2, h3, h4, h5, h6⟩ := h.2 a b c
    obtain ⟨g1, g2, g3, g4, g5, g6⟩ := g.2 h1 h2 (by rwa [h3])
    exact ⟨g1, g2, g3.trans h3, g4.trans h4, g5.trans h5, g6.trans h6⟩

theorem leftFor_leaveDraining (x : Transport) (ht : x.track = []) :
    LeftFor x ({ x with batch := { x.batch with closure := .notAsked } } : Transport).leaveDraining ∧
    ({ x with batch := { x.batch with closure := .notAsked } } : Transport).leaveDraining.batch.outcome = x.batch.outcome := by
  unfold Transport.leaveDraining
  dsimp only
  split
  · next h =>
    obtain ⟨m, -, -, -, e, -, b⟩ := Transport.motorOff_spec ({ x with
      batch := { x.batch with closure := .notAsked }, purpose := .none, coverWait := false, state := .off,
      haltRequest := false } : Transport)
    obtain ⟨mo, cl, a, ro, st, d, eq, -⟩ := Transport.motorOnly_motorOff ({ x with
      batch := { x.batch with closure := .notAsked }, purpose := .none, coverWait := false, state := .off,
      haltRequest := false } : Transport)
    refine ⟨⟨?_, by rw [b], ?_, fun _ => ⟨e, m⟩, fun h1 h2 => absurd h fun k => k.elim h1 (by rw [h2]; exact nofun)⟩, by rw [b]⟩
    · rw [eq]; exact ht
    · rw [eq]
  · next h =>
    obtain ⟨mo, cl, a, ro, st, d, eq, -⟩ := Transport.motorOnly_beginRunOff ({ x with
      batch := { x.batch with closure := .notAsked }, purpose := .none, coverWait := false, state := .ready } : Transport)
    rw [eq]
    exact ⟨⟨ht, rfl, rfl, fun k => absurd k h, fun _ _ => rfl⟩, rfl⟩

theorem endSteps_leavesKept : EndSteps LeavesKept where
  refl x := .of_kept ⟨rfl, rfl, rfl, rfl, rfl, rfl, rfl⟩
  trans := LeavesKept.trans
  settled x _ r rest h _ := .of_other (fun k => by rw [k.empty] at h; cases h) (fun k => by rw [k.1] at h; cases h)
  picked {x y n} h := by
    by_cases hr : x.state = .running
    · exact .of_other (fun k => by cases hr.symm.trans k.draining) fun k => by rcases k.2.2 with e | e <;> cases hr.symm.trans e
    · rw [h.eq_of_state_ne hr]
      exact .of_kept ⟨rfl, rfl, rfl, rfl, rfl, rfl, rfl⟩
  tested x := by
    by_cases hr : x.state = .running
    · exact .of_other (fun k => by cases hr.symm.trans k.draining) fun k => by rcases k.2.2 with e | e <;> cases hr.symm.trans e
    · have e : x.endTests = x := if_neg fun k => hr (by
        simp only [Transport.endTest, Bool.and_eq_true, beq_iff_eq] at k; exact k.1.1)
      rw [e]
      exact .of_kept ⟨rfl, rfl, rfl, rfl, rfl, rfl, rfl⟩
  waits x w := .of_kept ⟨rfl, rfl, rfl, rfl, rfl, rfl, rfl⟩
  paused x := by
    unfold Transport.pauseDone
    split
    · next h => exact .of_other (fun k => k.purpose h.2.1) fun k => by rcases k.2.2 with e | e <;> cases h.1.symm.trans e
    · exact .of_kept ⟨rfl, rfl, rfl, rfl, rfl, rfl, rfl⟩
  asked x h := by
    simp only [Transport.closureDue, Bool.and_eq_true, beq_iff_eq] at h
    obtain ⟨⟨⟨⟨⟨hd, -⟩, -⟩, -⟩, -⟩, hn⟩ := h
    exact .of_other (fun k => by cases hn.symm.trans k.written) fun k => by rcases k.2.2 with e | e <;> cases hd.symm.trans e
  closed x n := by
    unfold Transport.laneClosed
    split
    · next h => exact .of_other (fun k => by cases h.symm.trans k.written) fun k => by cases h.symm.trans k.2.1
    all_goals exact .of_kept ⟨rfl, rfl, rfl, rfl, rfl, rfl, rfl⟩
  outcome x hd hc := .of_other (fun k => by cases hc.symm.trans k.written) fun k => by cases hc.symm.trans k.2.1
  left x hd hc := ⟨fun k => ⟨(leftFor_leaveDraining x k.empty).2, .inr (leftFor_leaveDraining x k.empty).1⟩,
    fun _ k => by cases hc.symm.trans k⟩
  touched x n := by
    unfold Transport.touch
    split <;> exact .of_kept ⟨rfl, rfl, rfl, rfl, rfl, rfl, rfl⟩

/-- A batch end lets a transport leave that waits for it (R106). -/
theorem leaves_endBatch (h : Awaits (s.tr t)) : LeftFor (s.tr t) ((s.endBatch t).tr t) := by
  have hc : (s.tr t).closureDue ≠ true := fun k => by
    simp only [Transport.closureDue, Bool.and_eq_true, beq_iff_eq] at k
    cases k.2.symm.trans h.written
  have e : s.endBatch t = s.modTr t fun x =>
      ({ x with batch := { x.batch with closure := .notAsked } } : Transport).leaveDraining := by
    unfold endBatch
    rw [if_neg hc]
    unfold goOnClosing
    rw [if_pos h.draining, h.written]
  rw [e, tr_modTr_self]
  exact (leftFor_leaveDraining _ h.empty).1

theorem LeftFor.next {x y z : Transport} (hl : LeftFor x y) (k : LeavesKept y z) : LeftFor x z := by
  obtain ⟨g1, g2, g3, g4, g5, -⟩ := k.2 hl.empty hl.closure hl.out
  exact ⟨g1, g2, g4.trans hl.purpose, fun e => ⟨g3.trans (hl.off e).1, g5.trans (hl.off e).2⟩, fun e f => g3.trans (hl.ready e f)⟩

/-- A transport that waited has left once the change lets one leave that still waits. -/
theorem LeavesKept.left {x y z : Transport} (h : LeavesKept x y) (hx : Awaits x) (g : Awaits y → LeftFor y z) (k : LeavesKept y z) :
    LeftFor x z := by
  obtain ⟨ho, ⟨hy, hp, hh⟩ | hl⟩ := h.1 hx
  · have l := g hy
    exact ⟨l.empty, l.closure, l.purpose, fun e => l.off (by rwa [hp, hh]), fun e f => l.ready (by rwa [hp]) (by rwa [hh])⟩
  · exact hl.next k

theorem leaves_foldl (l : List TransportNo) (ht : t ∈ l) (x : Transport) (hx : Awaits x) (h : LeavesKept x (s.tr t)) :
    LeftFor x ((l.foldl endBatch s).tr t) := by
  induction l generalizing s with
  | nil => cases ht
  | cons a rest ih =>
    rw [List.foldl_cons]
    by_cases e : t = a
    · subst e
      exact (h.left hx leaves_endBatch (endSteps_leavesKept.endBatch s t t)).next (endSteps_leavesKept.foldl endSteps_leavesKept.endBatch _ rest t)
    · exact ih ((List.mem_cons.mp ht).resolve_left e) (h.trans (endSteps_leavesKept.endBatch s a t))

/-- By the third part of its step a transport has left DRAINING whose outcome was written. -/
theorem leaves_closeStage (v : State) (h : Awaits (v.tr t)) : LeftFor (v.tr t) ((v.settleStage.drainStage.closeStage).tr t) := by
  have k := (endSteps_leavesKept.settleStage v t).trans (endSteps_leavesKept.drainStage v.settleStage t)
  have l := leaves_foldl allTransports (mem_allTransports t) _ h k
  exact (l.next (endSteps_leavesKept.lookForWork _ t)).next (endSteps_leavesKept.haltQuiet _ t)

end State

end Sys2Proof.Machine

end

/-! PROOFS. The end of an outcome or refusal write (05 sections 5.2, 5.7). -/

section

namespace Sys2Proof.Machine

namespace State

variable {s u v : State} {t i : TransportNo}

/-- A path that ends in another control state than it began with changes it somewhere on the way. -/
theorem controlChanges_pos {a : State} {path : List State} (h : (a.tr t).state ≠ ((path.getLastD a).tr t).state) :
    0 < controlChanges t (a :: path) := by
  induction path generalizing a with
  | nil => exact absurd rfl h
  | cons b rest ih =>
    unfold controlChanges
    by_cases e : (a.tr t).state = (b.tr t).state
    · rw [e] at h
      exact Nat.add_pos_right _ (ih (by rwa [List.getLastD_cons] at h))
    · have hc : (a.tr t).controlChanged (b.tr t) = true := (Transport.controlChanged_iff _ _).mpr (.inl e)
      rw [hc, one, if_pos rfl]
      omega

theorem askedOnce_twice (p : StatusWrite × Word) (n : Nat) : (askedOnce^[n + 2] p).1 = .inFlight true := by
  rw [Function.iterate_succ_apply']
  have h := askedOnce_iterate_ne p n
  generalize askedOnce^[n + 1] p = q at h
  obtain ⟨w, k⟩ := q
  cases w with
  | idle => exact absurd rfl h
  | inFlight b => rfl

/-- The stages of a step's end request no status write. -/
theorem statusOf_stages (v : State) (t : TransportNo) : (v.settleStage.drainStage.closeStage).statusOf t = v.statusOf t := by
  have hsame : v.SameMark (allTransports.foldl endBatch v.settleStage.drainStage).lookForWork :=
    (((sameMark_settleStage v).trans (sameMark_drainStage _)).trans (.foldl sameMark_endBatch _ _)).trans (sameMark_lookForWork _)
  have hr : ∀ r : RoomInterface, { r with evt := 0 } = { v.room with evt := 0 } → (r.status[t], r.change[t]) = v.statusOf t :=
    fun r e => by
      have h1 : r.status = v.room.status := (congrArg (·.status) e :)
      have h2 : r.change = v.room.change := (congrArg (·.change) e :)
      rw [h1, h2]
      rfl
  have hb := hr _ hsame.room
  unfold closeStage
  generalize (allTransports.foldl endBatch v.settleStage.drainStage).lookForWork = u at hb ⊢
  unfold haltQuiet
  split <;> exact hb

/-- A step that forces a status write and changes the control state leaves one in flight and one owed (R171). -/
theorem status_finish_twice {before : State} {forced : List TransportNo} (hf : t ∈ forced)
    (h : (before.tr t).state ≠ ((v.settleStage.drainStage.closeStage).tr t).state) :
    (v.finish before forced).room.status[t] = .inFlight true ∧
    (v.room.status[t] = .idle → (v.finish before forced).room.change[t] = v.room.change[t] + 1) := by
  have hw := statusOf_stages v t
  rw [finish, finishVia_eq, List.nil_append]
  generalize v.settleStage.drainStage.closeStage = c at h hw ⊢
  generalize v.settleStage = a
  generalize a.drainStage = b
  have hs := statusOf_requestReports c before [v, a, b, c] forced t
  have hn := (requestsOf_cases (forced := forced) (controlChanges_eq t before [v, a, b, c])).2.2.2
    (.inr ⟨hf, controlChanges_eq t before [v, a, b, c] ▸ controlChanges_pos (path := [v, a, b, c]) h⟩)
  rw [hw] at hs
  generalize requestsOf t before [v, a, b, c] forced = n at hs hn
  obtain ⟨m, rfl⟩ : ∃ m, n = m + 2 := ⟨n - 2, by omega⟩
  generalize c.requestReports before [v, a, b, c] forced = w at hs ⊢
  refine ⟨(congrArg Prod.fst hs).trans (askedOnce_twice _ m), fun hi => (congrArg Prod.snd hs).trans ?_⟩
  rw [show v.statusOf t = (.idle, v.room.change[t]) from Prod.ext hi rfl, askedOnce_iterate, if_neg (by omega), if_neg (by omega)]

/-- The current batch is the same. -/
def SameBatch (x y : Transport) : Prop := y.batch.batch = x.batch.batch

/-- The current batch of a transport stays to the end of the step. -/
theorem endSteps_batch : EndSteps SameBatch where
  refl _ := rfl
  trans h g := Eq.trans g h
  settled x _ r rest _ _ := by
    show (x.batch.settle r).batch = _
    unfold BatchContext.settle
    dsimp only
    split
    · rfl
    · next d _ => cases d <;> rfl
    · rfl
  picked h := by
    rcases h with rfl | ⟨-, rfl⟩ <;> rfl
  tested x := by
    unfold Transport.endTests
    split
    · rcases x.endCondition_cases with h | ⟨-, h⟩ <;> rw [h] <;> rfl
    · rfl
  waits _ _ := rfl
  paused x := by
    unfold Transport.pauseDone
    split
    · obtain ⟨mo, cl, a, ro, st, d, eq, -⟩ := Transport.motorOnly_beginRunOff
        ({ x with state := .paused, purpose := .none, coverWait := false } : Transport)
      rw [eq]
      rfl
    · rfl
  asked _ _ := rfl
  closed x n := by
    unfold Transport.laneClosed
    split <;> rfl
  outcome _ _ _ := rfl
  left x _ _ := by
    unfold Transport.leaveDraining
    dsimp only
    split
    · obtain ⟨mo, cl, a, ro, st, d, eq, -⟩ := Transport.motorOnly_motorOff ({ x with
        batch := { x.batch with closure := .notAsked }, purpose := .none, coverWait := false, state := .off,
        haltRequest := false } : Transport)
      rw [eq]
      rfl
    · obtain ⟨mo, cl, a, ro, st, d, eq, -⟩ := Transport.motorOnly_beginRunOff ({ x with
        batch := { x.batch with closure := .notAsked }, purpose := .none, coverWait := false, state := .ready } : Transport)
      rw [eq]
      rfl
  touched x n := by
    unfold Transport.touch
    split <;> rfl

/-- A transport whose outcome was written has left DRAINING at the end of the step (R28, R106). -/
theorem leaves_finish (v before : State) (forced : List TransportNo) (h : Awaits (v.tr t)) :
    LeftFor (v.tr t) ((v.finish before forced).tr t) := by
  rw [finish, finishVia_eq]
  exact (leaves_closeStage v h).next (endSteps_leavesKept.requestReports _ _ _ _ t)

/-! ### The end of the write -/

/-- What the end of an outcome or refusal write leaves before the end of its step. -/
def outcomeEnded (s : State) (t : TransportNo) (w : OutcomeWrite) (result : BusWrite) : State :=
  let s1 := (s.hostWrite result (outcomeCells w)).modTr t fun x => { x with batch := x.batch.finished w }
  match result with
  | .ok => s1
  | .busError _ => s1.setEvent .memfault

/-- A finished ticket leaves the counters, and its batch is no longer current unless it was refused. -/
theorem finished_spec (b : BatchContext) (w : OutcomeWrite) : (b.finished w).candidate = .after w.ticket ∧
    (b.finished w).outcome = none ∧ (b.finished w).counters = b.counters ∧ (b.finished w).ticket = b.ticket ∧
    (w.code = .refused → (b.finished w).batch = b.batch ∧ (b.finished w).closure = b.closure) ∧
    (w.code ≠ .refused → (b.finished w).batch = none ∧ (b.finished w).closure = .written) := by
  unfold BatchContext.finished
  split
  · next h => exact ⟨rfl, rfl, rfl, rfl, fun _ => ⟨rfl, rfl⟩, fun k => absurd h k⟩
  · next h => exact ⟨rfl, rfl, rfl, rfl, fun k => absurd k h, fun _ => ⟨rfl, rfl⟩⟩

theorem exec_outcomeWriteDone {w : OutcomeWrite} (h : (s.tr t).batch.outcome = some w) (result : BusWrite) :
    exec (.outcomeWriteDone t result) s = .next ((s.outcomeEnded t w result).finish s [t]) := by
  show execOutcomeWriteDone t result s = _
  unfold execOutcomeWriteDone
  rw [h]
  rfl

theorem outcomeEnded_spec (s : State) (t : TransportNo) (w : OutcomeWrite) (result : BusWrite) :
    (s.outcomeEnded t w result).tr t = { s.tr t with batch := (s.tr t).batch.finished w } ∧
    (∀ i, i ≠ t → (s.outcomeEnded t w result).tr i = s.tr i) ∧ (s.outcomeEnded t w result).hold = s.hold ∧
    (s.outcomeEnded t w result).lanes = s.lanes ∧ (s.outcomeEnded t w result).writer = s.writer ∧
    (s.outcomeEnded t w result).hostMem = writeCells (landedCells result (outcomeCells w)) s.hostMem ∧
    (s.outcomeEnded t w result).room.status = s.room.status ∧ (s.outcomeEnded t w result).room.change = s.room.change ∧
    (result ≠ .ok → (s.outcomeEnded t w result).Memfault) := by
  let s1 := (s.hostWrite result (outcomeCells w)).modTr t fun x => { x with batch := x.batch.finished w }
  have h1 : s1.tr t = { s.tr t with batch := (s.tr t).batch.finished w } := tr_modTr_self ..
  have h2 : ∀ i, i ≠ t → s1.tr i = s.tr i := fun i hi => tr_setTr_of_ne _ _ hi
  have h3 : s1.hold = s.hold ∧ s1.lanes = s.lanes ∧ s1.writer = s.writer ∧
      s1.hostMem = writeCells (landedCells result (outcomeCells w)) s.hostMem ∧ s1.room = s.room := ⟨rfl, rfl, rfl, rfl, rfl⟩
  have hv : s.outcomeEnded t w result = s1 ∧ result = .ok ∨ s.outcomeEnded t w result = s1.setEvent .memfault := by
    cases result with
    | ok => exact .inl ⟨rfl, rfl⟩
    | busError n => exact .inr rfl
  generalize s.outcomeEnded t w result = v at hv ⊢
  generalize s1 = u at *
  obtain ⟨e1, e2, e3, e4, e5⟩ := h3
  rcases hv with ⟨rfl, rfl⟩ | rfl
  · exact ⟨h1, h2, e1, e2, e3, e4, by rw [e5], by rw [e5], fun h => absurd rfl h⟩
  · exact ⟨h1, h2, e1, e2, e3, e4, (congrArg (·.status) e5 :), (congrArg (·.change) e5 :), fun _ => memfault_setEvent _⟩

/-- MEMFAULT once set stays to the end of the step. -/
theorem memfault_of_eventsKept (h : s.Memfault) (k : s.EventsKept u) : u.Memfault := by
  unfold Memfault at h ⊢
  rcases k with e | e
  · rwa [e]
  · rw [e]
    rwa [BitVec.and_or_distrib_right, show (0x2000#16 &&& 0x4000#16) = 0#16 from rfl, BitVec.or_zero]

theorem status_finish_forced (v before : State) {forced : List TransportNo} (h : t ∈ forced) :
    (v.finish before forced).room.status[t] ≠ .idle := by
  rw [finish, finishVia_eq]
  exact status_requestReports _ _ _ h

end State

/-- Settles O49. -/
theorem outcomeWriteEnds : Obligations.OutcomeWriteEnds := by
  refine ⟨fun w m => ?_, ?_⟩
  · have hh := outcome_held w m
    refine ⟨?_, fun b hb => ?_, fun b hb => ?_, fun i n hi => ?_, hh (0, [0]) (by simp [outcomeFields])⟩
    · rw [outcomeCells_eq, map_fst_recordCells, placesOf_outcome]
    · exact outcomeCode_bytes _ hb ▸ hh (6, leBytes w.code.code 1) (by simp [outcomeFields])
    · exact refusalCode_bytes _ hb ▸ hh (7, leBytes w.reason.code 1) (by simp [outcomeFields])
    · exact (hh (64, w.counters.toList.flatMap fun v => leBytes v 4) (by simp [outcomeFields])).word i n hi
  · intro s t w result hlaw ho x hcase
    obtain ⟨-, -, hempty, hclosing, hwriting, -⟩ := hlaw t
    have hstatus := State.status_finish_forced (s.outcomeEnded t w result) s (List.mem_singleton.mpr rfl : t ∈ [t])
    obtain ⟨v1, v2, v3, v4, v5, v6, v7, v8, v9⟩ := s.outcomeEnded_spec t w result
    have hexec := State.exec_outcomeWriteDone ho result
    generalize s.outcomeEnded t w result = v at *
    have htrack : x.track = [] := by
      rcases hcase with ⟨-, hs⟩ | ⟨hc, -⟩
      · exact hempty (.inr (.inl hs))
      · exact (hclosing (by rw [hwriting.mpr ⟨w, ho, hc⟩]; exact nofun)).1
    have hv : (v.tr t).track = [] := by rw [v1]; exact htrack
    have hrun : (v.tr t).state ≠ .running := by
      rw [v1]
      rcases hcase with ⟨-, hs⟩ | ⟨-, hs⟩ <;> exact fun k => by cases hs.symm.trans k
    obtain ⟨f1, f2, f3, f4, f5, f6⟩ := State.finished_spec x.batch w
    have hkept : Transport.EndKept (v.tr t) ((v.finish s [t]).tr t) := (State.within_finishVia v s [] [t]).transports t
    have hevents : v.EventsKept (v.finish s [t]) := (State.within_finishVia v s [] [t]).events
    have hkeptEmpty : State.EmptyKept (v.tr t) ((v.finish s [t]).tr t) := State.endSteps_emptyKept.finishVia v s [] [t] t
    have hcounters := (hkeptEmpty hv hrun).2.2.1
    have hbatch : State.SameBatch (v.tr t) ((v.finish s [t]).tr t) := State.endSteps_batch.finishVia v s [] [t] t
    have hleaves : State.LeavesKept (v.tr t) ((v.finish s [t]).tr t) := State.endSteps_leavesKept.finishVia v s [] [t] t
    have hleft := State.leaves_finish (t := t) v s [t]
    have htwice := State.status_finish_twice (t := t) (v := v) (before := s) (List.mem_singleton.mpr rfl : t ∈ [t])
    have hstages := State.leaves_closeStage (t := t) v
    have hmem := State.hostMem_finish v s [t]
    refine ⟨v.finish s [t], v, hexec, rfl, v2, v3, v4, v5, ?_⟩
    clear hexec
    generalize v.finish s [t] = u at *
    generalize v.settleStage.drainStage.closeStage = c at htwice hstages
    obtain ⟨hcand, -, hticket, -⟩ := hkept.batch
    have hvb : (v.tr t).batch = x.batch.finished w := (congrArg Transport.batch v1 :)
    unfold State.SameBatch at hbatch
    rw [hvb] at hcand hticket hcounters hbatch
    have hmemfault : result ≠ .ok → u.room.evt &&& 0x4000#16 ≠ 0 := fun h => State.memfault_of_eventsKept (v9 h) hevents
    have hrest : u.hostMem = writeCells (landedCells result (outcomeCells w)) s.hostMem ∧ (u.tr t).batch.candidate = .after w.ticket ∧
        (u.tr t).batch.counters = x.batch.counters ∧ (u.tr t).batch.ticket = x.batch.ticket :=
      ⟨hmem.trans v6, hcand.trans f1, hcounters.trans f3, hticket.trans f4⟩
    obtain ⟨r1, r2, r3, r4⟩ := hrest
    rcases hcase with ⟨hc, hs⟩ | ⟨hc, hs⟩
    · have hnot : x.batch.closure = .notAsked := by
        by_contra k
        rcases (hclosing k).2.1 with e | e <;> cases hs.symm.trans e
      obtain ⟨-, -, l3, -, -, l6⟩ := hleaves.2 hv (by rw [hvb, (f5 hc).2, hnot]) (.inr (by rw [v1]; exact hs))
      refine ⟨r1, r2, ?_, r3, r4, hstatus, hmemfault, fun _ => ⟨?_, hbatch.trans (f5 hc).1⟩, fun k => absurd hc k⟩
      · rw [l6, hvb, f2]
      · rw [l3, v1]; exact hs
    · have haw : State.Awaits (v.tr t) := by
        obtain ⟨-, -, -, hp⟩ := hclosing (by rw [hwriting.mpr ⟨w, ho, hc⟩]; exact nofun)
        exact ⟨by rw [v1]; exact hs, hv, by rw [v1]; exact hp, by rw [hvb, (f6 hc).2]⟩
      have hl := hleft haw
      have hch : (s.tr t).state ≠ (c.tr t).state := fun k => by
        rcases (hstages haw).out with e | e <;> cases hs.symm.trans (k.trans e)
      have hpurpose : (v.tr t).purpose = x.purpose ∧ (v.tr t).haltRequest = x.haltRequest := by rw [v1]; exact ⟨rfl, rfl⟩
      obtain ⟨t1, t2⟩ := htwice hch
      rw [v7, v8] at t2
      refine ⟨r1, r2, (hleaves.1 haw).1.trans (by rw [hvb, f2]), r3, r4, hstatus, hmemfault, fun k => absurd k hc, fun _ =>
        ⟨hbatch.trans (f6 hc).1, hl.closure, hl.purpose, t1, t2, fun k => hl.off ?_, fun k1 k2 => hl.ready ?_ ?_⟩⟩
      · rwa [hpurpose.1, hpurpose.2]
      · rwa [hpurpose.1]
      · rwa [hpurpose.2]

end Sys2Proof.Machine

end

/-! PROOFS. The end of a batch: the end tests, drains done, the closure asked of every lane touched, and the outcome (02 section 2.2,
05 section 5.7). -/

section

namespace Sys2Proof.Machine

namespace Transport

variable {x : Transport}

theorem live_eq (x : Transport) : x.live = (x.track.filter fun r => r.life != .withdrawn).length := List.countP_eq_length_filter ..

/-- The END_ON_EMPTY test or the count test of R30. -/
theorem endTest_iff : x.endTest = true ↔ x.state = .running ∧ (∀ r ∈ x.track, r.life ≠ .picked) ∧ ∃ k, x.batch.ticket = some k ∧
    ((k.endOnEmpty = true ∧ x.pos.trayEmpty.level = true) ∨
      (k.stopAtCount = true ∧ k.expected ≠ 0 ∧ k.expected ≤ x.batch.counters.settled - x.batch.counters.overrun + x.live)) := by
  unfold endTest countReached
  cases x.batch.ticket with
  | none => simp
  | some k =>
    simp only [Option.any_some, Bool.and_eq_true, Bool.or_eq_true, beq_iff_eq, List.all_eq_true, bne_iff_ne, decide_eq_true_eq,
      Option.some.injEq, exists_eq_left', and_assoc]

theorem endTests_of (h : x.endTest = true) : x.endTests = { x with state := .draining, purpose := .endBatch } :=
  (if_pos h).trans (if_pos (endTest_iff.mp h).1)

theorem pauseDone_batch (x : Transport) : x.pauseDone.batch = x.batch ∧ x.pauseDone.track = x.track := by
  unfold pauseDone
  split
  · obtain ⟨mo, cl, a, ro, st, d, eq, -⟩ := motorOnly_beginRunOff
      ({ x with state := .paused, purpose := .none, coverWait := false } : Transport)
    rw [eq]
    exact ⟨rfl, rfl⟩
  · exact ⟨rfl, rfl⟩

theorem closureDue_iff : x.closureDue = true ↔ x.state = .draining ∧
    (x.purpose = .endBatch ∨ x.purpose = .abort ∨ x.purpose = .halt) ∧ x.track = [] ∧ x.queue = [] ∧ x.batch.closure = .notAsked := by
  unfold closureDue
  simp only [Bool.and_eq_true, beq_iff_eq, bne_iff_ne, List.isEmpty_iff, and_assoc]
  cases x.purpose <;> simp

end Transport

theorem outcomeOf_spec (purpose : Purpose) (expected settled overrun : Nat) : let n := settled - overrun
    let code := outcomeOf purpose expected settled overrun
    (purpose = .abort → code = .aborted) ∧ (purpose = .halt → code = .interrupted) ∧
    (purpose ≠ .abort → purpose ≠ .halt →
      (0 < expected → n < expected → code = .short) ∧ (0 < expected → expected < n → code = .over) ∧
      (expected = 0 ∨ n = expected → code = .complete)) := by
  intro n code
  refine ⟨fun h => if_pos h, fun h => ?_, fun ha hh => ?_⟩
  · subst h
    rfl
  · have e : code = if 0 < expected ∧ n < expected then .short else if 0 < expected ∧ expected < n then .over else .complete :=
      (if_neg ha).trans (if_neg hh)
    refine ⟨fun h0 hn => e.trans (if_pos ⟨h0, hn⟩), fun h0 hn => e.trans ((if_neg (by omega)).trans (if_pos ⟨h0, hn⟩)),
      fun h => e.trans ((if_neg (by omega)).trans (if_neg (by omega)))⟩

namespace State

variable {s v : State} {t : TransportNo} {n : LaneNo}

theorem holdsRequest_iff (s : State) (n : LaneNo) : s.holdsRequest n = true ↔ (s.lane n).handBack ≠ none ∨
    ((s.lane n).state = .opened ∧ (s.entryInProgress n = true ∨ ∃ b, (s.lane n).bin = some b ∧ 0 < b.count)) := by
  unfold holdsRequest
  simp only [Bool.or_eq_true, Bool.and_eq_true, beq_iff_eq, Option.isSome_iff_ne_none, Option.any_eq_true, decide_eq_true_eq, ne_eq]

theorem headPiece_of_queue {x y : Transport} (h : y.queue = x.queue) : y.headPiece = x.headPiece := by
  unfold Transport.headPiece
  rw [h]

theorem servedLane_of_kept (hw : v.writer = s.writer) (hq : ∀ i, (v.tr i).queue = (s.tr i).queue) : v.servedLane = s.servedLane := by
  unfold servedLane
  rw [hw]
  split
  · rfl
  · rw [headPiece_of_queue (hq _)]

/-- An entry in progress is told by the writer's turn and the queues. -/
theorem entryInProgress_of_kept (hw : v.writer = s.writer) (hq : ∀ i, (v.tr i).queue = (s.tr i).queue) (n : LaneNo) :
    v.entryInProgress n = s.entryInProgress n := by
  unfold entryInProgress
  rw [servedLane_of_kept hw hq]

theorem holdsRequest_of_kept (hl : v.lane n = s.lane n) (he : v.entryInProgress n = s.entryInProgress n) :
    v.holdsRequest n = s.holdsRequest n := by
  unfold holdsRequest
  rw [hl, he]

theorem setLane_setLane (s : State) (n : LaneNo) (x y : Lane) : (s.setLane n x).setLane n y = s.setLane n y := by
  unfold setLane
  simp only [Vector.set_set]

/-- A lane that holds a request, with one more of transport t: its hand-back begins, unless one is in flight or an entry is being
written into its bin (R131, R140). -/
def askedOf (p : Bool) (t : TransportNo) (l : Lane) : Lane :=
  if l.handBack.isSome || p then { l with requests := l.requests ++ [t] }
  else { l with requests := l.requests ++ [t], handBack := some { isPartial := false, batchEnd := true }, flushTimer := none,
                closeAsked := false }

/-- Requests beside a hand-back or an entry in progress wait. -/
theorem askedOf_iterate_waiting {p : Bool} {l : Lane} (h : (l.handBack.isSome || p) = true) (k : Nat) :
    (askedOf p t)^[k] l = { l with requests := l.requests ++ List.replicate k t } := by
  induction k generalizing l with
  | zero => rw [List.replicate_zero, List.append_nil]; rfl
  | succ k ih =>
    rw [Function.iterate_succ_apply, show askedOf p t l = { l with requests := l.requests ++ [t] } from if_pos h,
      ih (l := { l with requests := l.requests ++ [t] }) h, List.append_assoc, List.singleton_append, ← List.replicate_succ]

/-- The first request of a lane with nothing in flight begins its hand-back, and the others wait. -/
theorem askedOf_iterate_begun {l : Lane} (h : l.handBack = none) (k : Nat) : (askedOf false t)^[k + 1] l = { l with
    requests := l.requests ++ List.replicate (k + 1) t, handBack := some { isPartial := false, batchEnd := true },
    flushTimer := none, closeAsked := false } := by
  rw [Function.iterate_succ_apply, show askedOf false t l = _ from if_neg (by rw [h]; exact nofun), askedOf_iterate_waiting rfl,
    List.replicate_succ]
  simp only [List.append_assoc, List.singleton_append]

theorem requestClosure_of_held (h : s.holdsRequest n = true) :
    s.requestClosure t n = s.setLane n (askedOf (s.entryInProgress n) t (s.lane n)) := by
  refine (if_pos h).trans ?_
  unfold askedOf
  split
  · rfl
  · unfold modLane
    rw [setLane_setLane, lane_setLane_self]
    unfold Lane.beginHandBack
    have e : (!((s.lane n).requests ++ [t]).isEmpty) = true := by simp
    dsimp only
    rw [e]

theorem requestClosure_of_unheld (h : s.holdsRequest n = false) : s.requestClosure t n = s.modTr t (·.laneClosed n) :=
  if_neg (by rw [h]; exact nofun)

/-- What the requests of a closure leave (R104, R140): the lanes that hold one have it once for each time the lane is named, the
others are reported closed. -/
structure ClosuresAsked (s v : State) (t : TransportNo) (L : List LaneNo) : Prop where
  others : ∀ i, i ≠ t → v.tr i = s.tr i
  own : ∀ ls, (s.tr t).batch.closure = .asked ls → v.tr t = { s.tr t with batch := { (s.tr t).batch with
    closure := .asked (ls.filter fun n => !(L.contains n && !s.holdsRequest n)) } }
  rest : { v with transports := s.transports, lanes := s.lanes } = s
  unheld : ∀ n, s.holdsRequest n = false → v.lane n = s.lane n
  held : ∀ n, s.holdsRequest n = true → v.lane n = (askedOf (s.entryInProgress n) t)^[L.count n] (s.lane n)

/-- One request changes neither which lanes hold one nor where an entry is in progress. -/
theorem requestClosure_kept (s : State) (t : TransportNo) (n m : LaneNo) :
    (s.requestClosure t n).entryInProgress m = s.entryInProgress m ∧ (s.requestClosure t n).holdsRequest m = s.holdsRequest m := by
  cases h : s.holdsRequest n with
  | false =>
    have hq : ∀ i, ((s.modTr t (·.laneClosed n)).tr i).queue = (s.tr i).queue := fun i => by
      rw [tr_modTr]
      split
      · next e =>
        subst e
        unfold Transport.laneClosed
        split <;> rfl
      · rfl
    have he : (s.modTr t (·.laneClosed n)).entryInProgress m = s.entryInProgress m := entryInProgress_of_kept (s := s) (v := s.modTr t (·.laneClosed n)) rfl hq m
    rw [requestClosure_of_unheld h]
    exact ⟨he, holdsRequest_of_kept rfl he⟩
  | true =>
    have he : ∀ l, (s.setLane n l).entryInProgress m = s.entryInProgress m := fun l => entryInProgress_of_kept rfl (fun _ => rfl) m
    rw [requestClosure_of_held h]
    refine ⟨he _, ?_⟩
    unfold State.holdsRequest
    rw [he]
    by_cases hm : m = n
    · subst hm
      unfold State.holdsRequest at h
      rw [lane_setLane_self, h]
      unfold askedOf
      split
      · exact h
      · rfl
    · rw [lane_setLane_of_ne _ _ hm]

theorem ClosuresAsked.cons {L : List LaneNo} (k : ClosuresAsked (s.requestClosure t n) v t L) : ClosuresAsked s v t (n :: L) := by
  have hh := fun m => (requestClosure_kept s t n m).2
  have he := fun m => (requestClosure_kept s t n m).1
  obtain ⟨k1, k2, k3, k4, k5⟩ := k
  cases h : s.holdsRequest n with
  | false =>
    rw [requestClosure_of_unheld h] at k1 k2 k3 k4 k5 hh he
    refine ⟨fun i hi => (k1 i hi).trans (tr_setTr_of_ne _ _ hi), fun ls hls => ?_, ?_, fun m hm => k4 m (by rwa [hh]),
      fun m hm => ?_⟩
    · have ht : (s.modTr t (·.laneClosed n)).tr t = { s.tr t with batch := { (s.tr t).batch with
          closure := .asked (ls.filter (· != n)) } } := by
        rw [tr_modTr_self]
        unfold Transport.laneClosed
        rw [hls]
      rw [k2 (ls.filter (· != n)) (by rw [ht]), ht, List.filter_filter]
      have e : (ls.filter fun m => !(L.contains m && !(s.modTr t (·.laneClosed n)).holdsRequest m) && m != n) =
          ls.filter fun m => !((n :: L).contains m && !s.holdsRequest m) := by
        refine List.filter_congr fun m _ => ?_
        rw [hh, List.contains_cons]
        by_cases hm : m = n
        · subst hm; simp [h]
        · rw [beq_false_of_ne hm, Bool.false_or, bne_iff_ne.mpr hm, Bool.and_true]
      rw [e]
    · exact congrArg (fun u : State => { u with transports := s.transports, lanes := s.lanes }) k3
    · have hne : n ≠ m := fun e => by rw [e, hm] at h; cases h
      rw [List.count_cons_of_ne hne, k5 m (by rwa [hh]), he]
      rfl
  | true =>
    rw [requestClosure_of_held h] at k1 k2 k3 k4 k5 hh he
    refine ⟨k1, fun ls hls => (k2 ls hls).trans ?_, ?_, fun m hm => ?_, fun m hm => ?_⟩
    · have e : (ls.filter fun m => !(L.contains m && !(s.setLane n (askedOf (s.entryInProgress n) t (s.lane n))).holdsRequest m)) =
          ls.filter fun m => !((n :: L).contains m && !s.holdsRequest m) := by
        refine List.filter_congr fun m _ => ?_
        rw [hh, List.contains_cons]
        by_cases hm : m = n
        · subst hm; simp [h]
        · rw [beq_false_of_ne hm, Bool.false_or]
      rw [e]
      rfl
    · exact congrArg (fun u : State => { u with transports := s.transports, lanes := s.lanes }) k3
    · have hne : m ≠ n := fun e => by rw [e, h] at hm; cases hm
      rw [k4 m (by rwa [hh]), lane_setLane_of_ne _ _ hne]
    · rw [k5 m (by rwa [hh]), he]
      by_cases hne : m = n
      · subst hne
        rw [lane_setLane_self, List.count_cons_self, Function.iterate_succ_apply]
      · rw [lane_setLane_of_ne _ _ hne, List.count_cons_of_ne (Ne.symm hne)]

/-- The closure requested of a list of lanes. -/
theorem closuresAsked_foldl (s : State) (t : TransportNo) (L : List LaneNo) :
    ClosuresAsked s (L.foldl (fun s n => s.requestClosure t n) s) t L := by
  induction L generalizing s with
  | nil =>
    refine ⟨fun _ _ => rfl, fun ls hls => ?_, rfl, fun _ _ => rfl, fun _ _ => rfl⟩
    have e : (ls.filter fun n => !(([] : List LaneNo).contains n && !s.holdsRequest n)) = ls := List.filter_eq_self.mpr fun _ _ => rfl
    rw [e, ← hls]
    rfl
  | cons n rest ih => exact (ih _).cons

/-- The closure of a batch asked, before its lanes are named. -/
def closureAsked (s : State) (t : TransportNo) : State :=
  s.modTr t fun x => { x with batch := { x.batch with closure := .asked x.batch.lanesTouched } }

theorem closureAsked_kept (s : State) (t : TransportNo) (n : LaneNo) :
    (s.closureAsked t).entryInProgress n = s.entryInProgress n ∧ (s.closureAsked t).holdsRequest n = s.holdsRequest n := by
  have hq : ∀ i, ((s.closureAsked t).tr i).queue = (s.tr i).queue := fun i => by
    unfold closureAsked
    rw [tr_modTr]
    split
    · next e => subst e; rfl
    · rfl
  have he : (s.closureAsked t).entryInProgress n = s.entryInProgress n := entryInProgress_of_kept (s := s) (v := s.closureAsked t) rfl hq n
  exact ⟨he, holdsRequest_of_kept rfl he⟩

/-- The closure asked of every lane touched (R104): those that hold a request have it, and the batch waits for them. -/
theorem askClosures_spec (s : State) (t : TransportNo) :
    (s.askClosures t).tr t = { s.tr t with batch := { (s.tr t).batch with
      closure := .asked ((s.tr t).batch.lanesTouched.filter s.holdsRequest) } } ∧
    (∀ i, i ≠ t → (s.askClosures t).tr i = s.tr i) ∧
    { s.askClosures t with transports := s.transports, lanes := s.lanes } = s ∧
    (∀ n, s.holdsRequest n = false → (s.askClosures t).lane n = s.lane n) ∧
    ∀ n, s.holdsRequest n = true → (s.askClosures t).lane n =
      (askedOf (s.entryInProgress n) t)^[(s.tr t).batch.lanesTouched.count n] (s.lane n) := by
  obtain ⟨k1, k2, k3, k4, k5⟩ := closuresAsked_foldl (s.closureAsked t) t (s.tr t).batch.lanesTouched
  have hh := fun n => (closureAsked_kept s t n).2
  have he := fun n => (closureAsked_kept s t n).1
  have ht : (s.closureAsked t).tr t = { s.tr t with batch := { (s.tr t).batch with closure := .asked (s.tr t).batch.lanesTouched } } :=
    tr_modTr_self ..
  have e : s.askClosures t = (s.tr t).batch.lanesTouched.foldl (fun s n => s.requestClosure t n) (s.closureAsked t) := rfl
  rw [e]
  refine ⟨?_, fun i hi => (k1 i hi).trans (tr_setTr_of_ne _ _ hi), ?_, fun n hn => k4 n (by rwa [hh]),
    fun n hn => (k5 n (by rwa [hh])).trans (by rw [he]; rfl)⟩
  · rw [k2 _ (by rw [ht]), ht]
    have hf : ((s.tr t).batch.lanesTouched.filter fun n => !((s.tr t).batch.lanesTouched.contains n && !(s.closureAsked t).holdsRequest n))
        = (s.tr t).batch.lanesTouched.filter s.holdsRequest := by
      refine List.filter_congr fun n hn => ?_
      rw [hh, List.contains_iff_mem.mpr hn, Bool.true_and, Bool.not_not]
    rw [hf]
  · exact congrArg (fun u : State => { u with transports := s.transports, lanes := s.lanes }) k3

theorem eq_of_parts {u : State} (h : { v with transports := u.transports, lanes := u.lanes } = u) (ht : ∀ i, v.tr i = u.tr i)
    (hl : ∀ n, v.lane n = u.lane n) : v = u := by
  have e1 : v.transports = u.transports := Vector.ext fun i hi => ht ⟨i, hi⟩
  have e2 : v.lanes = u.lanes := Vector.ext fun i hi => hl ⟨i, hi⟩
  rw [← e1, ← e2] at h
  exact h

/-- With no lane that holds a request the closure asked waits for none. -/
theorem askClosures_of_free (h : ∀ n ∈ (s.tr t).batch.lanesTouched, s.holdsRequest n = false) :
    s.askClosures t = s.setTr t { s.tr t with batch := { (s.tr t).batch with closure := .asked [] } } := by
  obtain ⟨a1, a2, a3, a4, a5⟩ := s.askClosures_spec t
  have hf : (s.tr t).batch.lanesTouched.filter s.holdsRequest = [] :=
    List.filter_eq_nil_iff.mpr fun n hn k => by cases (h n hn).symm.trans k
  rw [hf] at a1
  refine eq_of_parts ?_ (fun i => ?_) fun n => ?_
  · exact congrArg (fun u : State => { u with
      transports := (s.setTr t { s.tr t with batch := { (s.tr t).batch with closure := .asked [] } }).transports }) a3
  · rw [tr_setTr]
    split
    · next e => rw [e]; exact a1
    · next e => exact a2 i e
  · cases hn : s.holdsRequest n with
    | false => exact a4 n hn
    | true =>
      have hc : (s.tr t).batch.lanesTouched.count n = 0 :=
        List.count_eq_zero.mpr fun hm => by cases (h n hm).symm.trans hn
      rw [a5 n hn, hc]
      rfl

theorem goOnClosing_asked (hd : (s.tr t).state = .draining) (hc : (s.tr t).batch.closure = .asked []) :
    s.goOnClosing t = s.setTr t (s.tr t).beginOutcome := by
  unfold goOnClosing
  rw [if_pos hd, hc]
  rfl

/-- A closure that has nothing to go on with. -/
theorem goOnClosing_waits (h : (s.tr t).state ≠ .draining ∨
    ((s.tr t).batch.closure ≠ .asked [] ∧ (s.tr t).batch.closure ≠ .written)) : s.goOnClosing t = s := by
  unfold goOnClosing
  split
  · next hd =>
    obtain ⟨h1, h2⟩ := h.resolve_left fun k => k hd
    split
    · next e => exact absurd e h1
    · next e => exact absurd e h2
    all_goals rfl
  · rfl

end State

/-- Settles O50. -/
theorem batchEnds : Obligations.BatchEnds := by
  refine ⟨fun x => ?_, fun x => ?_, outcomeOf_spec, fun s t => ?_⟩
  · intro c live due
    have hdue : x.endTest = true ↔ due := by
      rw [Transport.endTest_iff, Transport.live_eq]
    exact ⟨fun h => Transport.endTests_of (hdue.mpr h), fun h => if_neg (mt hdue.mp h)⟩
  · intro done y
    refine ⟨fun h => if_neg h, fun h => ?_⟩
    obtain ⟨b1, b2, -, b4, b5, b6⟩ :=
      ({ x with state := .paused, purpose := .none, coverWait := false } : Transport).beginRunOff_spec
    have e : y = ({ x with state := .paused, purpose := .none, coverWait := false } : Transport).beginRunOff := if_pos h
    obtain ⟨p1, p2⟩ := x.pauseDone_batch
    rw [← e] at b1 b2 b4 b5 b6
    exact ⟨b1, b2, p1, p2, b4, b5, b6⟩
  · intro x u due c outcome written touched holds
    have hdue : x.closureDue = true ↔ due := Transport.closureDue_iff
    have hholds : ∀ n, s.holdsRequest n = true ↔ holds n := s.holdsRequest_iff
    have hfree : ∀ n, s.holdsRequest n = false ↔ ¬holds n := fun n => by rw [← hholds, Bool.not_eq_true]
    obtain ⟨a1, a2, a3, a4, a5⟩ := s.askClosures_spec t
    have hu : due → u = (s.askClosures t).goOnClosing t := fun h => by
      show s.endBatch t = _
      unfold State.endBatch
      rw [if_pos (hdue.mpr h)]
    refine ⟨fun hd hn => ?_, fun hd ⟨m, hm, hmh⟩ => ?_, fun hd hc => ?_, fun hd hc => ?_⟩
    · rw [hu hd, State.askClosures_of_free fun n hm => (hfree n).mpr (hn n hm)]
      have ht : (s.setTr t { x with batch := { x.batch with closure := .asked [] } }).tr t = { x with
          batch := { x.batch with closure := .asked [] } } := State.tr_setTr_self ..
      rw [State.goOnClosing_asked (by rw [ht]; exact hd.1) (by rw [ht]), ht, State.setTr_setTr]
      rfl
    · have hwait : touched.filter s.holdsRequest ≠ [] := fun e =>
        List.filter_eq_nil_iff.mp e m hm ((hholds m).mpr hmh)
      have e : u = s.askClosures t := by
        rw [hu hd, State.goOnClosing_waits]
        rw [a1]
        exact .inr ⟨fun k => hwait (Closure.asked.inj k), nofun⟩
      rw [e]
      refine ⟨⟨_, fun n => ?_, a1⟩, a2, a3, fun n => ⟨fun h => ?_, fun ht hn hp => ?_, fun ht hn hb hp => ?_⟩⟩
      · rw [List.mem_filter, hholds]
      · cases hn : s.holdsRequest n with
        | false => exact a4 n hn
        | true =>
          have hc : (s.tr t).batch.lanesTouched.count n = 0 :=
            List.count_eq_zero.mpr (h.resolve_right fun k => k ((hholds n).mp hn))
          rw [a5 n hn, hc]
          rfl
      · rw [a5 n ((hholds n).mpr hn), State.askedOf_iterate_waiting]
        rw [Bool.or_eq_true, Option.isSome_iff_ne_none]
        exact hp
      · obtain ⟨k, hk⟩ := Nat.exists_eq_add_one_of_ne_zero (fun h => List.count_eq_zero.mp h ht : touched.count n ≠ 0)
        rw [a5 n ((hholds n).mpr hn), hp, show (s.tr t).batch.lanesTouched.count n = k + 1 from hk, State.askedOf_iterate_begun hb, ← hk]
    · have hnd : ¬x.closureDue = true := fun k => by cases hc.symm.trans (hdue.mp k).2.2.2.2
      show s.endBatch t = _
      unfold State.endBatch
      rw [if_neg hnd, State.goOnClosing_asked hd hc]
      rfl
    · show s.endBatch t = _
      unfold State.endBatch
      rw [if_neg (mt hdue.mp hd), State.goOnClosing_waits hc]

end Sys2Proof.Machine

end

/-! PROOFS. What the end of a step can do to a lane: one rule for every relation that its stages keep. -/

section

namespace Sys2Proof.Machine

namespace State

variable {s u v : State} {t : TransportNo} {R : Lane → Lane → Prop}

theorem lanes_settleHead (s : State) (t : TransportNo) (r : SheetRecord) : (s.settleHead t r).lanes = s.lanes := by
  unfold settleHead
  rw [(outside_returnPages _ _ _).lanes, (outside_returnPages _ _ _).lanes, setTr_lanes]

theorem lanes_haltQuiet (s : State) : s.haltQuiet.lanes = s.lanes := by
  unfold haltQuiet
  split <;> rfl

/-- A relation kept by every change that the end of a step makes to a lane (log 10). -/
structure LaneSteps (R : Lane → Lane → Prop) : Prop where
  refl : ∀ l, R l l
  trans : ∀ {l m n}, R l m → R m n → R l n
  asked : ∀ (l : Lane) p t, l.handBack ≠ none ∨ l.state = .opened → R l (askedOf p t l)
  stopped : ∀ l : Lane, l.takesPiece = true → R l { l with flushTimer := none }
  full : ∀ l : Lane, l.takesPiece = true → l.state ≠ .idle → R l (l.beginHandBack false)
  taking : ∀ l : Lane, l.takesPiece = true → l.state = .idle → R l { l with binTake := true }

/-- Every lane by itself. -/
def AlongLanes (R : Lane → Lane → Prop) (s u : State) : Prop := ∀ n, R (s.lane n) (u.lane n)

namespace LaneSteps

variable (k : LaneSteps R)
include k

theorem next (h : AlongLanes R s u) (g : AlongLanes R u v) : AlongLanes R s v := fun n => k.trans (h n) (g n)

theorem same (h : u.lanes = s.lanes) : AlongLanes R s u := fun n => by
  have e : u.lane n = s.lane n := congrArg (fun l : Vector Lane 8 => l[n]) h
  rw [e]
  exact k.refl _

theorem setLane {n : LaneNo} {l : Lane} (h : R (s.lane n) l) : AlongLanes R s (s.setLane n l) := fun m => by
  by_cases e : m = n
  · subst e
    rw [lane_setLane_self]
    exact h
  · rw [lane_setLane_of_ne _ _ e]
    exact k.refl _

theorem foldl {α : Type} {f : State → α → State} (h : ∀ (s : State) (a : α), AlongLanes R s (f s a)) (s : State) (l : List α) :
    AlongLanes R s (l.foldl f s) := by
  induction l generalizing s with
  | nil => exact k.same rfl
  | cons a rest ih => exact k.next (h s a) (ih _)

theorem settleTransport (s : State) (t : TransportNo) (n : Nat) : AlongLanes R s (s.settleTransport t n) := by
  induction n generalizing s with
  | zero => exact k.same rfl
  | succ n ih =>
    unfold State.settleTransport
    split
    · exact k.same rfl
    · split
      · exact k.next (k.same (lanes_settleHead s t _)) (ih _)
      · exact k.same rfl

theorem askAdmission (s : State) (t : TransportNo) : AlongLanes R s (s.askAdmission t) := by
  unfold State.askAdmission
  split
  · split
    · exact k.same (outside_grant s t _).lanes
    · exact k.same rfl
  · exact k.same rfl

theorem modAll (s : State) (f : Transport → Transport) (l : List TransportNo) :
    AlongLanes R s (l.foldl (fun s t => s.modTr t f) s) := k.foldl (f := fun s t => s.modTr t f) (fun _ _ => k.same rfl) s l

theorem settleStage (s : State) : AlongLanes R s s.settleStage :=
  k.next (u := s.settleAll) (k.foldl (fun s t => k.settleTransport s t _) s _) (k.modAll _ _ _)

theorem drainStage (s : State) : AlongLanes R s s.drainStage :=
  k.next (u := s.pickStage) (k.next (k.same (outside_serveWaiting s _).lanes)
    (k.next (k.foldl k.askAdmission _ allTransports) (k.modAll _ (fun x => { x with pickWait := x.waitReason }) _)))
    (k.modAll _ _ _)

theorem requestClosure (s : State) (t : TransportNo) (n : LaneNo) : AlongLanes R s (s.requestClosure t n) := by
  cases h : s.holdsRequest n with
  | true =>
    rw [requestClosure_of_held h]
    exact k.setLane (k.asked _ _ _ (((holdsRequest_iff s n).mp h).imp_right And.left))
  | false =>
    rw [requestClosure_of_unheld h]
    exact k.same rfl

theorem endBatch (s : State) (t : TransportNo) : AlongLanes R s (s.endBatch t) := by
  have hgo : ∀ u : State, (u.goOnClosing t).lanes = u.lanes := fun u => by
    unfold goOnClosing
    split
    · split <;> rfl
    · rfl
  refine k.next ?_ (k.same (hgo _))
  split
  · exact k.next (u := s.closureAsked t) (k.same rfl) (k.foldl (fun s n => k.requestClosure s t n) _ _)
  · exact k.same rfl

theorem continueTurn (h : s.servable t = true) (hi : ∀ e p, (s.tr t).headPiece = some (e, p) → (s.lane p.lane).state ≠ .idle) :
    AlongLanes R s (s.continueTurn t) := by
  unfold servable at h
  unfold State.continueTurn
  split
  · exact k.same rfl
  · next e p hp =>
    rw [hp, Option.any_some, Bool.and_eq_true] at h
    split
    · exact k.same rfl
    · split
      · exact k.setLane (k.stopped _ h.1)
      · exact k.setLane (k.full _ h.1 (hi e p hp))

theorem lookForWork (s : State) : AlongLanes R s s.lookForWork := by
  unfold State.lookForWork
  split
  · exact k.same rfl
  · split
    · exact k.same rfl
    · next t ht =>
      have h : s.servable t = true := List.find?_some ht
      unfold beginTurn
      split
      · exact k.same rfl
      · next e p hp =>
        dsimp only
        split
        · next hi =>
          unfold servable at h
          rw [hp, Option.any_some, Bool.and_eq_true] at h
          exact k.setLane (k.taking _ h.1 hi)
        · next hi =>
          have hw : (s.setWriter { s.writer with pointer := some t }).servable t = true := h
          refine k.next (k.same rfl) (k.continueTurn hw fun e' p' hp' => ?_)
          cases hp.symm.trans hp'
          exact hi

theorem closeStage (s : State) : AlongLanes R s s.closeStage :=
  k.next (k.next (u := allTransports.foldl State.endBatch s) (k.foldl k.endBatch s _) (k.lookForWork _)) (k.same (lanes_haltQuiet _))

theorem requestReports (s before : State) (path : List State) (forced : List TransportNo) :
    AlongLanes R s (s.requestReports before path forced) := by
  have h : ∀ (s : State) (t : TransportNo) (n : Nat), AlongLanes R s (s.requestStatuses t n) := fun s t n => by
    induction n generalizing s with
    | zero => exact k.same rfl
    | succ n ih => exact k.next (u := s.requestStatus t) (k.same rfl) (ih _)
  exact k.foldl (f := fun u t => u.requestStatuses t (requestsOf t before path forced)) (fun u t => h u t _) s _

/-- A relation that the stages keep of a lane holds from the state of an event to the end of its step. -/
theorem finish (s before : State) (forced : List TransportNo) : AlongLanes R s (s.finish before forced) := by
  rw [State.finish, finishVia_eq]
  exact k.next (k.next (k.next (k.settleStage s) (k.drainStage _)) (k.closeStage _)) (k.requestReports _ _ _ _)

end LaneSteps

/-! ### A lane with a hand-back in flight -/

/-- A hand-back in flight stays, its flags and the stopped flush timer with it. -/
def HandBackKept (l m : Lane) : Prop := l.handBack ≠ none → m.handBack = l.handBack ∧ m.flushTimer = l.flushTimer

theorem not_takesPiece {l : Lane} (h : l.handBack ≠ none) : l.takesPiece ≠ true := by
  intro k
  unfold Lane.takesPiece at k
  simp only [Bool.and_eq_true, Option.isNone_iff_eq_none] at k
  exact h k.2

theorem laneSteps_handBackKept : LaneSteps HandBackKept where
  refl _ := fun _ => ⟨rfl, rfl⟩
  trans h g := fun hl => by
    obtain ⟨h1, h2⟩ := h hl
    obtain ⟨g1, g2⟩ := g (by rwa [h1])
    exact ⟨g1.trans h1, g2.trans h2⟩
  asked l p t _ := fun hl => by
    have e : askedOf p t l = { l with requests := l.requests ++ [t] } :=
      if_pos (by rw [Option.isSome_iff_ne_none.mpr hl, Bool.true_or])
    rw [e]
    exact ⟨rfl, rfl⟩
  stopped l h := fun hl => absurd h (not_takesPiece hl)
  full l h _ := fun hl => absurd h (not_takesPiece hl)
  taking l h _ := fun hl => absurd h (not_takesPiece hl)

/-- A lane that is not OPEN and has no hand-back in flight begins none. -/
def NoHandBackKept (l m : Lane) : Prop :=
  l.state ≠ .opened → l.handBack = none → m.state = l.state ∧ m.handBack = none

theorem laneSteps_noHandBackKept : LaneSteps NoHandBackKept where
  refl _ := fun _ h => ⟨rfl, h⟩
  trans h g := fun hs hl => by
    obtain ⟨h1, h2⟩ := h hs hl
    obtain ⟨g1, g2⟩ := g (by rwa [h1]) h2
    exact ⟨g1.trans h1, g2⟩
  asked l p t h := fun hs hl => absurd h (not_or.mpr ⟨not_not.mpr hl, hs⟩)
  stopped l _ := fun _ hl => ⟨rfl, hl⟩
  full l h hi := fun hs _ => by
    unfold Lane.takesPiece at h
    simp only [Bool.and_eq_true, Bool.or_eq_true, beq_iff_eq] at h
    exact (h.1.1.1.elim hs hi).elim
  taking l _ _ := fun _ hl => ⟨rfl, hl⟩

end State

end Sys2Proof.Machine

end

/-! PROOFS. The room commands, the end of a restart's read and the flush timer (07 sections 7.5, 7.6; 09 section 9.6). -/

section

namespace Sys2Proof.Machine

/-! ### Head pieces -/

section

variable {f : Piece → Piece} {l : List Piece} {p : Piece} {x : Transport} {e : Element}

theorem find_modFirstUnwritten (h : l.find? (fun p => !p.written) = some p) (hf : (f p).written = false) :
    (modFirstUnwritten f l).find? (fun p => !p.written) = some (f p) := by
  induction l with
  | nil => cases h
  | cons q rest ih =>
    unfold modFirstUnwritten
    cases hq : q.written with
    | true =>
      rw [List.find?_cons_of_neg (by rw [hq]; exact nofun)] at h
      rw [if_pos rfl, List.find?_cons_of_neg (by rw [hq]; exact nofun)]
      exact ih h
    | false =>
      rw [List.find?_cons_of_pos (by rw [hq]; rfl), Option.some.injEq] at h
      subst h
      rw [if_neg (by exact nofun), List.find?_cons_of_pos (by rw [hf]; rfl)]

theorem modFirstUnwritten_of_same (h : l.find? (fun p => !p.written) = some p) (hf : f p = p) : modFirstUnwritten f l = l := by
  induction l with
  | nil => rfl
  | cons q rest ih =>
    unfold modFirstUnwritten
    cases hq : q.written with
    | true =>
      rw [List.find?_cons_of_neg (by rw [hq]; exact nofun)] at h
      rw [if_pos rfl, ih h]
    | false =>
      rw [List.find?_cons_of_pos (by rw [hq]; rfl), Option.some.injEq] at h
      subst h
      rw [if_neg (by exact nofun), hf]

/-- The head piece is the first unwritten piece of the head element. -/
theorem headPiece_eq_some (h : x.headPiece = some (e, p)) :
    ∃ rest, x.queue = e :: rest ∧ e.pieces.find? (fun p => !p.written) = some p := by
  unfold Transport.headPiece at h
  split at h
  · cases h
  · next e' rest hq =>
    obtain ⟨q, hq', he⟩ := Option.map_eq_some_iff.mp h
    cases he
    exact ⟨rest, hq, hq'⟩

theorem written_of_headPiece (h : x.headPiece = some (e, p)) : p.written = false := by
  obtain ⟨rest, -, hp⟩ := headPiece_eq_some h
  simpa using List.find?_some hp

/-- The head piece changed. -/
theorem headPiece_modHeadPiece (h : x.headPiece = some (e, p)) (hf : (f p).written = false) :
    (x.modHeadPiece f).headPiece = some ({ e with pieces := modFirstUnwritten f e.pieces }, f p) := by
  obtain ⟨rest, hq, hp⟩ := headPiece_eq_some h
  have hm : (x.modHeadPiece f).queue = { e with pieces := modFirstUnwritten f e.pieces } :: rest := by
    unfold Transport.modHeadPiece
    rw [hq]
  unfold Transport.headPiece
  rw [hm]
  dsimp only
  rw [find_modFirstUnwritten hp hf]
  rfl

theorem modHeadPiece_of_same (h : x.headPiece = some (e, p)) (hf : f p = p) : x.modHeadPiece f = x := by
  obtain ⟨rest, hq, hp⟩ := headPiece_eq_some h
  unfold Transport.modHeadPiece
  rw [hq]
  dsimp only
  rw [modFirstUnwritten_of_same hp hf, ← hq]

end

theorem Piece.rewind_eq {p : Piece} {n : LaneNo} (h : p.written = false) :
    (p.lane = n → p.firstWritten = true ∨ p.interrupted = true →
      p.rewind n = { p with progress := 0, firstWritten := false, interrupted := false }) ∧
    (p.lane ≠ n ∨ (p.firstWritten = false ∧ p.interrupted = false) → p.rewind n = p) := by
  have hw : (p.partlyWritten || p.interrupted) = true ↔ p.firstWritten = true ∨ p.interrupted = true := by
    unfold partlyWritten
    rw [h, Bool.not_false, Bool.and_true, Bool.or_eq_true]
  refine ⟨fun hl hp => if_pos ⟨hl, hw.mpr hp⟩, fun hp => if_neg fun ⟨k1, k2⟩ => ?_⟩
  rcases hp with hp | ⟨h1, h2⟩
  · exact hp k1
  · rcases hw.mp k2 with k | k
    · cases h1.symm.trans k
    · cases h2.symm.trans k

namespace State

variable {s : State} {n : LaneNo} {k : List Byte} {c : RoomCommand}

/-! ### Room commands -/

theorem roomCommand_posted (hs : s.takesCommand .room = true) (hp : turnPosted k = true) (hc : Sys2Proof.Machine.roomCommand k = c)
    (act : Nat → State → Answer × State) : s.roomCommand (.data k) c act =
      .next ((act (field k 2 1) (s.setRoom { s.room with sweep := .inFlight 1 })).2.answer .room
        (act (field k 2 1) (s.setRoom { s.room with sweep := .inFlight 1 })).1 0) := by
  unfold State.roomCommand
  rw [if_pos hs]
  exact if_pos ⟨hp, hc⟩

/-- A room command that answers for what it finds of its lane. -/
theorem roomCommand_answers (hs : s.takesCommand .room = true) (hp : turnPosted k = true) (hc : Sys2Proof.Machine.roomCommand k = c)
    {act : Nat → State → Answer × State} {a : Answer} {v : State}
    (ha : act (field k 2 1) (s.setRoom { s.room with sweep := .inFlight 1 }) = (a, v)) :
    s.roomCommand (.data k) c act = .next (v.answer .room a 0) := by
  rw [roomCommand_posted hs hp hc, ha]

theorem roomCommand_of_posted {c : Nat} (h : Posted k c) : (c = 1 → Sys2Proof.Machine.roomCommand k = .laneRestart) ∧
    (c = 2 → Sys2Proof.Machine.roomCommand k = .laneClose) := by
  unfold Sys2Proof.Machine.roomCommand
  rw [h.2]
  exact ⟨by rintro rfl; rfl, by rintro rfl; rfl⟩

theorem namedLane_of_none {i : Nat} (h : 8 ≤ i) : s.namedLane i = none := dif_neg (not_lt.mpr h)

theorem namedLane_of_unused {i : Nat} (hn : n.val = i) (h : (s.lane n).state = .unused) : s.namedLane i = none := by
  subst hn
  exact (dif_pos n.isLt).trans (if_pos h)

theorem namedLane_of_used {i : Nat} (hn : n.val = i) (h : (s.lane n).state ≠ .unused) : s.namedLane i = some n := by
  subst hn
  exact (dif_pos n.isLt).trans (if_neg h)

theorem inFlight_iff (l : Lane) : l.inFlight = true ↔ l.restart = true ∨ l.binTake = true ∨ l.handBack ≠ none := by
  unfold Lane.inFlight
  rw [Bool.or_eq_true, Bool.or_eq_true, or_assoc, Option.isSome_iff_ne_none]

/-- A lane in its order after the end of the step, as far as its bin and its hand-back go. -/
theorem lane_finish (v before : State) (forced : List TransportNo) (n : LaneNo) :
    ((v.finish before forced).lane n).state = (v.lane n).state ∧ ((v.finish before forced).lane n).cursor = (v.lane n).cursor ∧
    ((v.finish before forced).lane n).bin = (v.lane n).bin ∧ ((v.finish before forced).lane n).flushTime = (v.lane n).flushTime ∧
    ((v.finish before forced).lane n).sequence = (v.lane n).sequence ∧
    ((v.finish before forced).lane n).restart = (v.lane n).restart := (within_finishVia v before [] forced).lanes n

theorem memfault_of_evt {v : State} {e : BitVec 16} (h : v.room.evt = e ||| 0x4000#16) : v.Memfault := by
  have k := memfault_setEvent (v.setRoom { v.room with evt := e })
  unfold Memfault at k ⊢
  rw [h]
  exact k

theorem eventsKept_finish (v before : State) (forced : List TransportNo) : v.EventsKept (v.finish before forced) :=
  (within_finishVia v before [] forced).events

theorem memfault_finish {v : State} (h : v.Memfault) (before : State) (forced : List TransportNo) :
    (v.finish before forced).Memfault := memfault_of_eventsKept h (eventsKept_finish v before forced)

/-- A hand-back begun is still in flight at the end of the step, its lane's bin in it and its flush timer stopped (R139). -/
theorem handBack_finish {h : HandBack} {b : Bin} (v before : State) (forced : List TransportNo) (hh : (v.lane n).handBack = some h)
    (hb : (v.lane n).bin = some b) (hf : (v.lane n).flushTimer = none) :
    ((v.finish before forced).lane n).handBack = some h ∧ ((v.finish before forced).lane n).bin = some b ∧
    ((v.finish before forced).lane n).flushTimer = none := by
  obtain ⟨k1, k2⟩ := laneSteps_handBackKept.finish v before forced n (by rw [hh]; exact nofun)
  exact ⟨k1.trans hh, (lane_finish v before forced n).2.2.1.trans hb, k2.trans hf⟩

/-! ### The end of a restart's read -/

theorem exec_laneRestartReadDone (h : (s.lane n).restart = true) (m : MemRead) :
    exec (.laneRestartReadDone n m) s = .next ((s.restartEnded n m).finish s []) := if_pos h

theorem rewindPieces_spec (s : State) (n : LaneNo) : (s.rewindPieces n).lanes = s.lanes ∧ (s.rewindPieces n).hold = s.hold ∧
    (s.rewindPieces n).room = s.room ∧ (s.rewindPieces n).hostMem = s.hostMem ∧
    ∀ t, (s.rewindPieces n).tr t = (s.tr t).modHeadPiece (·.rewind n) :=
  ⟨rfl, rfl, rfl, rfl, tr_eachTransport s _⟩

theorem restarted_spec (l : Lane) (head : Addr) (flush : Nat) : (l.restarted head flush).restart = false ∧
    (l.restarted head flush).flushTime = flush ∧ (l.restarted head flush).sequence = l.sequence ∧
    (head = 0 → (l.restarted head flush).state = .starved ∧ (l.restarted head flush).cursor = .head) ∧
    (head ≠ 0 → (l.restarted head flush).state = .idle ∧ (l.restarted head flush).cursor = .at head) := by
  unfold Lane.restarted
  split
  · next h => exact ⟨rfl, rfl, rfl, fun _ => ⟨rfl, rfl⟩, fun k => absurd h k⟩
  · next h => exact ⟨rfl, rfl, rfl, fun k => absurd k h, fun _ => ⟨rfl, rfl⟩⟩

end State

/-- Settles O51. -/
theorem laneRestarts : Obligations.LaneRestarts := by
  refine ⟨fun s bytes hs hp => ?_, fun s n hr => ⟨?_, fun bytes => ?_⟩⟩
  · intro i s1 c
    have hc := (State.roomCommand_of_posted hp).1 rfl
    refine ⟨fun h8 => ?_, fun n hn => ?_⟩
    · show execLaneRestart (.data bytes) s = _
      refine State.roomCommand_answers hs hp.turn hc ?_
      rw [State.namedLane_of_none h8]
    · intro l busy
      have hbusy : ((s1.lane n).state = .opened ∨ (s1.lane n).inFlight = true) ↔ busy := or_congr_right (State.inFlight_iff _)
      refine ⟨fun hu => ?_, fun hu hb => ?_, fun hu hb => ?_⟩
      · show execLaneRestart (.data bytes) s = _
        refine State.roomCommand_answers hs hp.turn hc ?_
        rw [State.namedLane_of_unused (s := s1) hn hu]
      · show execLaneRestart (.data bytes) s = _
        refine State.roomCommand_answers hs hp.turn hc ?_
        rw [State.namedLane_of_used (s := s1) hn hu]
        exact if_pos (hbusy.mpr hb)
      · show execLaneRestart (.data bytes) s = _
        refine State.roomCommand_answers hs hp.turn hc ?_
        rw [State.namedLane_of_used (s := s1) hn hu]
        exact if_neg (mt hbusy.mp hb)
  · have hexec := State.exec_laneRestartReadDone hr .busError
    have hl : ((s.setLane n { s.lane n with restart := false }).setRoom { s.room with evt := s.room.evt ||| 0x4000#16 }).lane n =
        { s.lane n with restart := false } := State.lane_setLane_self ..
    have hm := State.memfault_finish (State.memfault_of_evt (v := (s.setLane n { s.lane n with restart := false }).setRoom
      { s.room with evt := s.room.evt ||| 0x4000#16 }) rfl) s []
    have hv : s.restartEnded n .busError = (s.setLane n { s.lane n with restart := false }).setRoom
      { s.room with evt := s.room.evt ||| 0x4000#16 } := rfl
    rw [hv] at hexec
    generalize (s.setLane n { s.lane n with restart := false }).setRoom { s.room with evt := s.room.evt ||| 0x4000#16 } = v at *
    obtain ⟨-, k2, -, k4, k5, k6⟩ := State.lane_finish v s [] n
    rw [hl] at k2 k4 k5 k6
    exact ⟨_, hexec, rfl, hm, k6, k4, k5, k2⟩
  · let u := s.setLane n ((s.lane n).restarted (addrField bytes 0) (field bytes 8 2))
    obtain ⟨r1, r2, r3, r4, r5⟩ := u.rewindPieces_spec n
    have hv : ∀ m, (u.rewindPieces n).lane m = u.lane m := fun m => congrArg (fun l : Vector Lane 8 => l[m]) r1
    have hn : (u.rewindPieces n).lane n = (s.lane n).restarted (addrField bytes 0) (field bytes 8 2) :=
      (hv n).trans (State.lane_setLane_self ..)
    obtain ⟨l1, l2, l3, l4, l5⟩ := State.restarted_spec (s.lane n) (addrField bytes 0) (field bytes 8 2)
    refine ⟨u.rewindPieces n, State.exec_laneRestartReadDone hr _, fun i hi => (hv i).trans (State.lane_setLane_of_ne _ _ hi), r2, r3,
      r4, ?_⟩
    rw [hn]
    refine ⟨l1, l2, l3, l4, l5, fun t e p hp => ?_⟩
    have hw := written_of_headPiece hp
    obtain ⟨w1, w2⟩ := Piece.rewind_eq (n := n) hw
    rw [r5 t]
    refine ⟨fun hl h => ⟨{ e with pieces := modFirstUnwritten (·.rewind n) e.pieces },
      (headPiece_modHeadPiece (f := (·.rewind n)) hp ?_).trans ?_⟩, fun h => ?_⟩
    · rw [w1 hl h]
      exact hw
    · rw [w1 hl h]
    · exact modHeadPiece_of_same (f := (·.rewind n)) hp (w2 h)

end Sys2Proof.Machine

end

/-! PROOFS. LANE_CLOSE, the flush timer and the room commands that are not known (07 section 7.5, 09 section 9.6). -/

section

namespace Sys2Proof.Machine

/-- A room command of any other code spells the row answered UNKNOWN (10 Table 10-8). -/
theorem roomRow_unknown {bytes : List Byte} (h1 : field bytes 1 1 ≠ 1) (h2 : field bytes 1 1 ≠ 2) :
    roomRow bytes = .roomUnknownCommand := by
  have e : roomCommand bytes = .unknown := by
    unfold roomCommand
    split
    · next h => exact absurd h h1
    · next h => exact absurd h h2
    · rfl
  unfold roomRow
  rw [e]

namespace State

variable {s : State} {n : LaneNo} {b : Bin}

theorem roomCommand_busError (hs : s.takesCommand .room = true) (k : RoomCommand) (act : Nat → State → Answer × State) :
    s.roomCommand .busError k act =
      .next (s.setRoom { s.room with sweep := .inFlight 1, evt := s.room.evt ||| 0x4000#16 }) := if_pos hs

/-- LANE_CLOSE of a lane by what its bin holds (R141). -/
theorem closeLane_spec (s : State) (n : LaneNo) :
    ((s.lane n).bin = none → s.closeLane n = s) ∧
    (∀ b, (s.lane n).bin = some b → s.entryInProgress n = true → s.closeLane n = s.setLane n { s.lane n with closeAsked := true }) ∧
    (∀ b, (s.lane n).bin = some b → s.entryInProgress n = false → 0 < b.count →
      s.closeLane n = s.setLane n ((s.lane n).beginHandBack true)) ∧
    (∀ b, (s.lane n).bin = some b → s.entryInProgress n = false → b.count = 0 →
      s.closeLane n = s.setLane n { s.lane n with bin := none, cursor := .at b.addr, state := .idle }) := by
  have hn : ∀ {b}, (s.lane n).bin = some b → s.closeLane n =
      if s.entryInProgress n then s.modLane n fun l => { l with closeAsked := true }
      else if 0 < b.count then s.modLane n (·.beginHandBack true)
      else s.modLane n fun l => { l with bin := none, cursor := .at b.addr, state := .idle } := fun h => by
    unfold closeLane
    dsimp only
    rw [h]
  refine ⟨fun h => ?_, fun b h hp => (hn h).trans (if_pos hp), fun b h hp hc => ?_, fun b h hp hc => ?_⟩
  · unfold closeLane
    dsimp only
    rw [h]
  · exact (hn h).trans ((if_neg (by rw [hp]; exact nofun)).trans (if_pos hc))
  · exact (hn h).trans ((if_neg (by rw [hp]; exact nofun)).trans (if_neg (by omega)))

/-- A lane whose bin goes back with PARTIAL (R141). -/
def goesBack (s : State) (n : LaneNo) : State := s.setLane n { s.lane n with
  handBack := some { isPartial := true, batchEnd := !(s.lane n).requests.isEmpty }, flushTimer := none, closeAsked := false }

/-- What it has at the end of the step. -/
theorem goesBack_finish (s before : State) (hb : (s.lane n).bin = some b) :
    (((s.goesBack n).finish before []).lane n).handBack = some { isPartial := true, batchEnd := !(s.lane n).requests.isEmpty } ∧
    (((s.goesBack n).finish before []).lane n).bin = some b ∧ (((s.goesBack n).finish before []).lane n).flushTimer = none := by
  have hl : (s.goesBack n).lane n = { s.lane n with
    handBack := some { isPartial := true, batchEnd := !(s.lane n).requests.isEmpty }, flushTimer := none, closeAsked := false } :=
    lane_setLane_self ..
  exact handBack_finish (s.goesBack n) before [] (by rw [hl]) (by rw [hl]; exact hb) (by rw [hl])

theorem lane_answer (s : State) (c : CommandBlock) (a : Answer) (w : Word) (n : LaneNo) : (s.answer c a w).lane n = s.lane n := rfl

theorem flushRuns_of (hf : (s.lane n).flushTimer.isSome = true) (hs : (s.lane n).state = .opened) (hb : (s.lane n).bin = some b)
    (hh : (s.lane n).handBack = none) : (s.lane n).flushRuns = true := by
  unfold Lane.flushRuns
  rw [hf, hs, hb, hh]
  rfl

end State

/-- Settles O52. -/
theorem laneClosesAndFlush : Obligations.LaneClosesAndFlush := by
  refine ⟨fun s hs c hc => ?_, fun s bytes hs h1 h2 => ⟨roomRow_unknown h1 h2, if_pos hs⟩, fun s bytes hs hp => ?_, fun s n b => ?_⟩
  · rcases List.mem_cons.mp hc with rfl | hc
    · show execLaneRestart .busError s = _
      exact State.roomCommand_busError hs _ _
    · rw [List.mem_singleton.mp hc]
      show execLaneClose .busError s = _
      exact State.roomCommand_busError hs _ _
  · intro i s1 c
    have hc := (State.roomCommand_of_posted hp).2 rfl
    refine ⟨fun h8 => ?_, fun n hn => ?_⟩
    · show execLaneClose (.data bytes) s = _
      refine State.roomCommand_answers hs hp.turn hc ?_
      rw [State.namedLane_of_none h8]
    · intro l busy
      have hbusy : ((s1.lane n).state = .faulted ∨ (s1.lane n).inFlight = true) ↔ busy := or_congr_right (State.inFlight_iff _)
      refine ⟨fun hu => ?_, fun hu hb => ?_, fun hu hb => ?_⟩
      · show execLaneClose (.data bytes) s = _
        refine State.roomCommand_answers hs hp.turn hc ?_
        rw [State.namedLane_of_unused (s := s1) hn hu]
      · show execLaneClose (.data bytes) s = _
        refine State.roomCommand_answers hs hp.turn hc ?_
        rw [State.namedLane_of_used (s := s1) hn hu]
        exact if_pos (hbusy.mpr hb)
      · have hdone : c = .next (((s1.closeLane n).finish s1 []).answer .room .done 0) := by
          show execLaneClose (.data bytes) s = _
          refine State.roomCommand_answers hs hp.turn hc ?_
          rw [State.namedLane_of_used (s := s1) hn hu]
          exact if_neg (mt hbusy.mp hb)
        obtain ⟨c1, c2, c3, c4⟩ := s1.closeLane_spec n
        refine ⟨fun h => ?_, fun b h hp => ?_, fun b h hp hc => ?_, fun b h hp hc => ?_⟩
        · rw [hdone, c1 h]
        · rw [hdone, c2 b h hp]
          rfl
        · have hg : s1.closeLane n = s1.goesBack n := c3 b h hp hc
          have hf := State.goesBack_finish s1 s1 h
          rw [hg] at hdone
          refine ⟨_, hdone, rfl, ?_⟩
          rw [State.lane_answer]
          exact hf
        · rw [hdone, c4 b h hp hc]
          rfl
  · intro l hf hs hb hh
    obtain ⟨f1, f2, f3⟩ := State.goesBack_finish s s hb
    have hexec : exec (.flushTimerExpiry n) s = .next ((s.goesBack n).finish s []) := if_pos (State.flushRuns_of hf hs hb hh)
    exact ⟨_, hexec, rfl, f2, f3, f1⟩

end Sys2Proof.Machine

end

/-! PROOFS. The reads of a bin take (07 section 7.4). -/

section

namespace Sys2Proof.Machine

/-! ### What the reads come to -/

section

variable {c : Cursor} {a : Addr} {link bytes : List Byte} {bin : MemRead}

theorem examineBin_of_misaligned (h : a.toNat % 4096 ≠ 0) : examineBin a bin = .faulted := by
  unfold examineBin
  rw [Bool.eq_false_iff.mpr (mt (multipleOf_iff _ _).mp h)]
  rfl

/-- An aligned bin is judged by its turn and its capacity (R134). -/
theorem examineBin_of_aligned (h : a.toNat % 4096 = 0) : examineBin a .busError = .busError ∧
    (turnPosted bytes = false → examineBin a (.data bytes) = .starved) ∧
    (turnPosted bytes = true → field bytes 4 4 % 4096 = 0 ∧ 4096 ≤ field bytes 4 4 ∧ field bytes 4 4 ≤ 16777216 →
      examineBin a (.data bytes) = .opened { addr := a, capacity := field bytes 4 4, filled := 64, count := 0 }) ∧
    (turnPosted bytes = true → ¬(field bytes 4 4 % 4096 = 0 ∧ 4096 ≤ field bytes 4 4 ∧ field bytes 4 4 ≤ 16777216) →
      examineBin a (.data bytes) = .faulted) := by
  have hn : ¬(!multipleOf a 4096) = true := by
    rw [(multipleOf_iff _ _).mpr h]
    exact nofun
  have hp : turnPosted bytes = true → ¬(!turnPosted bytes) = true := fun ht => by
    rw [ht]
    exact nofun
  have e : examineBin a (.data bytes) = if !turnPosted bytes then .starved
      else if field bytes 4 4 % 4096 = 0 ∧ 4096 ≤ field bytes 4 4 ∧ field bytes 4 4 ≤ 16777216 then
        .opened { addr := a, capacity := field bytes 4 4, filled := 64, count := 0 }
      else .faulted := if_neg hn
  rw [e]
  exact ⟨if_neg hn, fun ht => if_pos (by rw [ht]; rfl), fun ht hc => (if_neg (hp ht)).trans (if_pos hc),
    fun ht hc => (if_neg (hp ht)).trans (if_neg hc)⟩

/-- A cursor that names no bin yet is followed from its link. -/
theorem followCursor_of_link (h : ∀ a, c ≠ .at a) : followCursor c .busError bin = (c, .busError) ∧
    (addrField link 0 = 0 → followCursor c (.data link) bin = (c, .starved)) ∧
    (addrField link 0 ≠ 0 → followCursor c (.data link) bin = (.at (addrField link 0), examineBin (addrField link 0) bin)) := by
  match c with
  | .at a => exact absurd rfl (h a)
  | .head =>
    unfold followCursor
    dsimp only
    exact ⟨rfl, fun h0 => by rw [if_pos h0], fun h0 => by rw [if_neg h0]⟩
  | .after f =>
    unfold followCursor
    dsimp only
    exact ⟨rfl, fun h0 => by rw [if_pos h0], fun h0 => by rw [if_neg h0]⟩

end

namespace State

variable {s v : State} {n : LaneNo} {t : TransportNo}

/-! ### The turn that waited -/

/-- A turn that goes on, or ends, changes the lane of its head piece, the lanes touched and the writer alone. -/
structure TurnKept (s v : State) (n : LaneNo) : Prop where
  others : ∀ m, m ≠ n → v.lane m = s.lane m
  lane : (s.lane n).BinKept (v.lane n)
  hold : v.hold = s.hold
  hostMem : v.hostMem = s.hostMem
  room : v.room = s.room
  transports : ∀ t, { v.tr t with batch := (s.tr t).batch } = s.tr t

theorem TurnKept.setWriter (s : State) (n : LaneNo) (w : Writer) : TurnKept s (s.setWriter w) n :=
  ⟨fun _ _ => rfl, .refl _, rfl, rfl, rfl, fun _ => rfl⟩

theorem TurnKept.setLane {l : Lane} {w : Writer} (h : (s.lane n).BinKept l) : TurnKept s ((s.setLane n l).setWriter w) n :=
  ⟨fun _ hm => lane_setLane_of_ne _ _ hm, by
    show (s.lane n).BinKept ((s.setLane n l).lane n)
    rw [lane_setLane_self]
    exact h, rfl, rfl, rfl, fun _ => rfl⟩

theorem servedLane_eq_some {ph : TurnPhase} (h : s.servedLane = some (t, ph, n)) :
    s.writer.turn = some (t, ph) ∧ ∃ e p, (s.tr t).headPiece = some (e, p) ∧ p.lane = n := by
  unfold servedLane at h
  split at h
  · cases h
  · next t' ph' ht =>
    obtain ⟨⟨e, p⟩, hq, he⟩ := Option.map_eq_some_iff.mp h
    cases he
    exact ⟨ht, e, p, hq, rfl⟩

/-- A change of a transport's Batch Context alone. -/
theorem batchOnly_modTr {f : Transport → Transport} (h : ∀ x, { f x with batch := x.batch } = x) (s : State) (t i : TransportNo) :
    { (s.modTr t f).tr i with batch := (s.tr i).batch } = s.tr i := by
  rw [tr_modTr]
  split
  · next e =>
    subst e
    exact h _
  · rfl

theorem turnKept_continueTurn {e : Element} {p : Piece} (h : (s.tr t).headPiece = some (e, p)) (hn : p.lane = n) :
    TurnKept s (s.continueTurn t) n := by
  subst hn
  unfold continueTurn
  rw [h]
  dsimp only
  split
  · exact .setWriter s _ _
  · split
    · refine ⟨fun _ hm => lane_setLane_of_ne _ _ hm, ?_, rfl, rfl, rfl, fun i => ?_⟩
      · show (s.lane p.lane).BinKept ((s.setLane p.lane _).lane p.lane)
        rw [lane_setLane_self]
        exact ⟨rfl, rfl, rfl, rfl, rfl, rfl⟩
      · have ht : ∀ x : Transport, { (if p.firstWritten then x else x.touch p.lane) with batch := x.batch } = x := fun x => by
          split
          · rfl
          · unfold Transport.touch
            split <;> rfl
        exact batchOnly_modTr (f := fun x => if p.firstWritten then x else x.touch p.lane) ht
          (s.modLane p.lane fun l => { l with flushTimer := none }) t i
    · exact .setLane ⟨rfl, rfl, rfl, rfl, rfl, rfl⟩

/-- The turn that waited for a bin take goes on or ends (R131). -/
theorem turnKept_afterBinTake (s : State) (n : LaneNo) : TurnKept s (s.afterBinTake n) n := by
  have same : TurnKept s s n := ⟨fun _ _ => rfl, .refl _, rfl, rfl, rfl, fun _ => rfl⟩
  unfold afterBinTake
  split
  · next t m h =>
    split
    · next hm =>
      subst hm
      obtain ⟨-, e, p, hp, hl⟩ := servedLane_eq_some h
      split
      · exact turnKept_continueTurn hp hl
      · exact .setWriter s _ _
    · exact same
  all_goals exact same

/-- The end of a bin take by what its reads came to (R134). -/
theorem binTake_ends {link bin : MemRead} {c : Cursor} {r : TakeResult} (h : (s.lane n).binTake = true)
    (hq : followCursor (s.lane n).cursor link bin = (c, r)) :
    ∃ v : State, exec (.binTakeDone n link bin) s = .next (v.finish s []) ∧ (∀ m, m ≠ n → v.lane m = s.lane m) ∧ v.hold = s.hold ∧
      v.hostMem = s.hostMem ∧ (∀ t, { v.tr t with batch := (s.tr t).batch } = s.tr t) ∧
      ((s.lane n).taken c r).BinKept (v.lane n) ∧ (r.isFault = true → v.Memfault) ∧ (r.isFault = false → v.room.evt = s.room.evt) := by
  have hl : (s.modLane n (·.taken c r)).lane n = (s.lane n).taken c r := lane_setLane_self ..
  have ho : ∀ m, m ≠ n → (s.modLane n (·.taken c r)).lane m = s.lane m := fun m hm => lane_setLane_of_ne _ _ hm
  have he : s.binTakeEnded n link bin =
      (if r.isFault then (s.modLane n (·.taken c r)).setEvent .memfault else s.modLane n (·.taken c r)).afterBinTake n := by
    unfold binTakeEnded
    rw [if_pos h, hq]
  refine ⟨s.binTakeEnded n link bin, rfl, ?_⟩
  rw [he]
  cases hf : r.isFault with
  | true =>
    rw [if_pos rfl]
    obtain ⟨k1, k2, k3, k4, k5, k6⟩ := turnKept_afterBinTake ((s.modLane n (·.taken c r)).setEvent .memfault) n
    have hm := memfault_setEvent (s.modLane n (·.taken c r))
    refine ⟨fun m hm => (k1 m hm).trans (ho m hm), k3, k4, k6, hl ▸ k2, fun _ => ?_, nofun⟩
    unfold Memfault at hm ⊢
    rwa [k5]
  | false =>
    rw [if_neg (by exact nofun)]
    obtain ⟨k1, k2, k3, k4, k5, k6⟩ := turnKept_afterBinTake (s.modLane n (·.taken c r)) n
    exact ⟨fun m hm => (k1 m hm).trans (ho m hm), k3, k4, k6, hl ▸ k2, nofun, fun _ => by rw [k5]; rfl⟩

end State

/-- Settles O53. -/
theorem binTaken : Obligations.BinTaken := by
  intro s n hb l ends reads
  have hends : ∀ {link bin : MemRead} {c : Cursor} {r : TakeResult}, followCursor l.cursor link bin = (c, r) →
      ∀ {state : LaneState} {b : Option Bin} {fault : Bool}, (l.taken c r).state = state → (l.taken c r).cursor = c →
      (b ≠ none → (l.taken c r).bin = b) → (l.taken c r).flushTime = l.flushTime → (l.taken c r).sequence = l.sequence →
      r.isFault = fault → ends link bin state c b fault := by
    intro link bin c r hq state b fault h1 h2 h3 h4 h5 h6
    obtain ⟨v, he, v1, v2, v3, v4, ⟨t1, t2, t3, t4, t5, -⟩, v6, v7⟩ := State.binTake_ends hb hq
    obtain ⟨k1, k2, k3, k4, k5, -⟩ := State.lane_finish v s [] n
    have hevents := State.eventsKept_finish v s []
    have hmem := fun h => State.memfault_finish (v6 h) s []
    refine ⟨_, v, he, rfl, v1, v2, v3, v4, k1.trans (t1.trans h1), k2.trans (t2.trans h2), fun h => k3.trans (t3.trans (h3 h)),
      k4.trans (t4.trans h4), k5.trans (t5.trans h5), fun h => hmem (h6.trans h), fun h => ?_⟩
    unfold State.EventsKept at hevents ⊢
    rwa [v7 (h6.trans h)] at hevents
  have hreads : ∀ (link : MemRead) (a : Addr), (∀ bin, followCursor l.cursor link bin = (.at a, examineBin a bin)) → reads link a := by
    intro link a hq
    refine ⟨fun h bin => ?_, fun h => ⟨?_, fun bytes => ?_⟩⟩
    · exact hends ((hq bin).trans (by rw [examineBin_of_misaligned h])) rfl rfl (fun k => absurd rfl k) rfl rfl rfl
    · exact hends ((hq _).trans (by rw [(examineBin_of_aligned (bytes := []) h).1])) rfl rfl (fun k => absurd rfl k) rfl rfl rfl
    · obtain ⟨-, e2, e3, e4⟩ := examineBin_of_aligned (bytes := bytes) h
      refine ⟨fun ht => ?_, fun ht hc => ?_, fun ht hc => ?_⟩
      · exact hends ((hq _).trans (by rw [e2 ht])) rfl rfl (fun k => absurd rfl k) rfl rfl rfl
      · exact hends ((hq _).trans (by rw [e3 ht hc])) rfl rfl (fun _ => rfl) rfl rfl rfl
      · exact hends ((hq _).trans (by rw [e4 ht hc])) rfl rfl (fun k => absurd rfl k) rfl rfl rfl
  refine ⟨fun a link hc => hreads link a fun bin => by rw [hc]; rfl, fun hc => ⟨fun bin => ?_, fun link bin h0 => ?_, fun link h0 => ?_⟩⟩
  · exact hends (followCursor_of_link (link := []) hc).1 rfl rfl (fun k => absurd rfl k) rfl rfl rfl
  · exact hends ((followCursor_of_link hc).2.1 h0) rfl rfl (fun k => absurd rfl k) rfl rfl rfl
  · exact hreads (.data link) _ fun bin => (followCursor_of_link hc).2.2 h0

end Sys2Proof.Machine

end

/-! PROOFS. The end of an entry's write (07 sections 7.2 to 7.6). -/

section

namespace Sys2Proof.Machine

/-! ### Pieces advanced -/

section

variable {f : Piece → Piece} {l : List Piece} {p q : Piece} {more : List Piece}

theorem filter_modFirstUnwritten (h : l.filter (fun p => !p.written) = p :: more) :
    (modFirstUnwritten f l).filter (fun p => !p.written) = if (f p).written then more else f p :: more := by
  induction l with
  | nil => cases h
  | cons a rest ih =>
    unfold modFirstUnwritten
    cases ha : a.written with
    | true =>
      rw [List.filter_cons_of_neg (by rw [ha]; exact nofun)] at h
      rw [if_pos rfl, List.filter_cons_of_neg (by rw [ha]; exact nofun)]
      exact ih h
    | false =>
      rw [List.filter_cons_of_pos (by rw [ha]; rfl)] at h
      obtain ⟨rfl, rfl⟩ := List.cons.inj h
      rw [if_neg (by exact nofun)]
      cases hf : (f a).written with
      | true => rw [List.filter_cons_of_neg (by rw [hf]; exact nofun), if_pos rfl]
      | false => rw [List.filter_cons_of_pos (by rw [hf]; rfl), if_neg (by exact nofun)]

theorem find_eq_head_filter (h : l.filter (fun p => !p.written) = p :: more) : l.find? (fun p => !p.written) = some p := by
  rw [← List.head?_filter, h]
  rfl

/-- The pieces are all written when none is left unwritten. -/
theorem all_written_iff : (l.all (·.written)) = true ↔ l.filter (fun p => !p.written) = [] := by
  rw [List.all_eq_true, List.filter_eq_nil_iff]
  exact forall₂_congr fun a _ => by cases a.written <;> simp

theorem filter_of_find (h : l.find? (fun p => !p.written) = some p) : ∃ more, l.filter (fun p => !p.written) = p :: more := by
  rw [← List.head?_filter] at h
  exact ⟨_, List.eq_cons_of_mem_head? h⟩

end

section

variable {x : Transport} {e : Element} {p : Piece} {d : Nat}

/-- The queue after an entry: the head element goes when it was its last one, else it is SHEET_FIRST written and its first unwritten
piece heads it (R129, R132). -/
theorem headPiece_advanced (h : x.headPiece = some (e, p)) {y : Transport} (hy : y.queue = advanceQueue d x.queue) :
    (p.total ≤ p.progress + d → (e.pieces.filter (fun q => !q.written) = [p] → y.queue = x.queue.tail) ∧
      ∀ q more, e.pieces.filter (fun q => !q.written) = p :: q :: more → ∃ f : Element, y.headPiece = some (f, q) ∧ f.sheetFirst = true) ∧
    (p.progress + d < p.total → ∃ f : Element, y.headPiece = some (f, { p with progress := p.progress + d, firstWritten := true }) ∧
      f.sheetFirst = true) := by
  obtain ⟨rest, hq, hp⟩ := headPiece_eq_some h
  have hw := written_of_headPiece h
  have hadv : ∀ more, e.pieces.filter (fun q => !q.written) = p :: more →
      (modFirstUnwritten (·.advance d) e.pieces).filter (fun q => !q.written) =
        if (p.advance d).written then more else p.advance d :: more := fun more hm => filter_modFirstUnwritten hm
  have hall : ∀ q more, (modFirstUnwritten (·.advance d) e.pieces).filter (fun q => !q.written) = q :: more →
      ∃ f : Element, y.headPiece = some (f, q) ∧ f.sheetFirst = true := fun q more hm => by
    have hn : ¬((modFirstUnwritten (·.advance d) e.pieces).all (·.written)) = true := fun k => by
      rw [all_written_iff.mp k] at hm
      cases hm
    refine ⟨{ e with sheetFirst := true, pieces := modFirstUnwritten (·.advance d) e.pieces }, ?_, rfl⟩
    have hyq : y.queue = { e with sheetFirst := true, pieces := modFirstUnwritten (·.advance d) e.pieces } :: rest := by
      rw [hy, hq]
      exact if_neg hn
    unfold Transport.headPiece
    rw [hyq]
    dsimp only
    rw [find_eq_head_filter hm]
    rfl
  refine ⟨fun ht => ⟨fun hm => ?_, fun q more hm => hall q more ?_⟩, fun ht => ?_⟩
  · have hn : ((modFirstUnwritten (·.advance d) e.pieces).all (·.written)) = true := by
      rw [all_written_iff, hadv [] hm]
      exact if_pos (decide_eq_true ht)
    rw [hy, hq]
    exact if_pos hn
  · rw [hadv _ hm]
    exact if_pos (decide_eq_true ht)
  · obtain ⟨more, hm⟩ := filter_of_find hp
    have hd : (p.advance d).written = false := decide_eq_false (not_le.mpr ht)
    have hpa : p.advance d = { p with progress := p.progress + d, firstWritten := true } := by
      unfold Piece.advance at hd ⊢
      rw [show p.written = decide (p.total ≤ p.progress + d) from hw.trans hd.symm]
    rw [← hpa]
    refine hall _ more ?_
    rw [hadv more hm, hd]
    rfl

end

/-! ### The lane after an entry -/

theorem afterEntry_spec (l : Lane) (b : Bin) : (l.afterEntry b).bin = some b ∧
    (b.capacity ≤ b.filled → (l.afterEntry b).handBack = some { isPartial := false, batchEnd := !l.requests.isEmpty }) ∧
    (b.filled < b.capacity → l.closeAsked = true →
      (l.afterEntry b).handBack = some { isPartial := true, batchEnd := !l.requests.isEmpty }) ∧
    (b.filled < b.capacity → l.closeAsked = false → l.requests ≠ [] →
      (l.afterEntry b).handBack = some { isPartial := false, batchEnd := true }) ∧
    (b.filled < b.capacity → l.closeAsked = false → l.requests = [] → l.flushTime ≠ 0 →
      (l.afterEntry b).flushTimer = some l.flushTime ∧ (l.afterEntry b).handBack = l.handBack) := by
  unfold Lane.afterEntry
  dsimp only
  split
  · next h => exact ⟨rfl, fun _ => rfl, fun k => absurd h (by omega), fun k => absurd h (by omega), fun k => absurd h (by omega)⟩
  · next h =>
    split
    · next hc =>
      refine ⟨rfl, fun k => absurd k h, fun _ _ => rfl, fun _ k => ?_, fun _ k => ?_⟩
      · cases hc.symm.trans k
      · cases hc.symm.trans k
    · next hc =>
      split
      · next hr =>
        refine ⟨rfl, fun k => absurd k h, fun _ k => absurd k hc, fun _ _ _ => ?_, fun _ _ k => absurd k hr⟩
        show some (HandBack.mk false (!l.requests.isEmpty)) = _
        rw [Bool.eq_false_iff.mpr (mt List.isEmpty_iff.mp hr)]
        rfl
      · next hr => exact ⟨rfl, fun k => absurd k h, fun _ k => absurd k hc, fun _ _ k => absurd k hr, fun _ _ _ k => ⟨if_neg k, rfl⟩⟩

namespace State

variable {s : State} {t : TransportNo} {e : Element} {p : Piece} {b : Bin}

/-- The write of an entry ends well, or by a bus error. -/
theorem entryDone_eq (ht : s.writer.turn = some (t, .entry)) (hp : (s.tr t).headPiece = some (e, p))
    (hb : (s.lane p.lane).bin = some b) :
    s.entryDone .ok = (s.hostWrite .ok (entryCells t e p b)).entryWritten t e p b ∧
    ∀ k, s.entryDone (.busError k) = (s.hostWrite (.busError k) (entryCells t e p b)).entryFault t p b := by
  refine ⟨?_, fun k => ?_⟩ <;> simp only [entryDone, ht, hp, hb]

/-- What the well-ended write of an entry leaves before its pages return. -/
def entryDown (s : State) (t : TransportNo) (e : Element) (p : Piece) (b : Bin) : State :=
  let d := entryDataLength e p (b.capacity - b.filled)
  let b1 := { b with filled := b.filled + roundUp64 (entryHeaderLength e p + d), count := b.count + 1 }
  ((s.modTr t fun x => { x with queue := advanceQueue d x.queue }).modLane p.lane (·.afterEntry b1)).setWriter
    { s.writer with turn := if decide (p.total ≤ p.progress + d) then none else some (t, .handBack) }

/-- The bin as an entry leaves it. -/
def grownBin (e : Element) (p : Piece) (b : Bin) : Bin :=
  { b with filled := b.filled + roundUp64 (entryHeaderLength e p + entryDataLength e p (b.capacity - b.filled)), count := b.count + 1 }

theorem entryDown_spec (s : State) (t : TransportNo) (e : Element) (p : Piece) (b : Bin) :
    (s.entryDown t e p b).tr t = { s.tr t with
      queue := advanceQueue (entryDataLength e p (b.capacity - b.filled)) (s.tr t).queue } ∧
    (∀ i, i ≠ t → (s.entryDown t e p b).tr i = s.tr i) ∧
    (s.entryDown t e p b).lane p.lane = (s.lane p.lane).afterEntry (grownBin e p b) ∧
    (∀ n, n ≠ p.lane → (s.entryDown t e p b).lane n = s.lane n) ∧ (s.entryDown t e p b).hostMem = s.hostMem ∧
    (s.entryDown t e p b).hold = s.hold ∧ (s.entryDown t e p b).writer.turn =
      if decide (p.total ≤ p.progress + entryDataLength e p (b.capacity - b.filled)) then none else some (t, .handBack) := by
  unfold entryDown
  dsimp only
  generalize (if decide (p.total ≤ p.progress + entryDataLength e p (b.capacity - b.filled)) = true then none
    else some (t, TurnPhase.handBack)) = turn
  have ht := s.tr_modTr_self t fun x => { x with queue := advanceQueue (entryDataLength e p (b.capacity - b.filled)) x.queue }
  have ho : ∀ i, i ≠ t → (s.modTr t fun x => { x with
    queue := advanceQueue (entryDataLength e p (b.capacity - b.filled)) x.queue }).tr i = s.tr i := fun i hi => tr_setTr_of_ne _ _ hi
  have hu : ∃ u : State, u = s.modTr t fun x => { x with
    queue := advanceQueue (entryDataLength e p (b.capacity - b.filled)) x.queue } := ⟨_, rfl⟩
  obtain ⟨u, hu⟩ := hu
  have hk : u.hostMem = s.hostMem ∧ u.hold = s.hold ∧ ∀ n, u.lane n = s.lane n := by subst hu; exact ⟨rfl, rfl, fun _ => rfl⟩
  rw [← hu] at ht ho ⊢
  have hl : (u.modLane p.lane (·.afterEntry (grownBin e p b))).lane p.lane = (s.lane p.lane).afterEntry (grownBin e p b) :=
    (lane_setLane_self ..).trans (by rw [hk.2.2])
  refine ⟨ht, ho, hl, fun n hn => (lane_setLane_of_ne _ _ hn).trans (hk.2.2 n), hk.1, hk.2.1, rfl⟩

theorem entryWritten_eq (s : State) (t : TransportNo) (e : Element) (p : Piece) (b : Bin) :
    (p.total ≤ p.progress + entryDataLength e p (b.capacity - b.filled) → s.entryWritten t e p b =
      (s.entryDown t e p b).returnPages (p.image.elim [] (·.pages)) 0) ∧
    (p.progress + entryDataLength e p (b.capacity - b.filled) < p.total → s.entryWritten t e p b = s.entryDown t e p b) := by
  unfold entryWritten entryDown
  exact ⟨fun h => if_pos (decide_eq_true h), fun h => if_neg (by rw [decide_eq_false (not_le.mpr h)]; exact nofun)⟩

theorem lanes_meetRequests (s : State) (n : LaneNo) :
    (s.meetRequests n).lanes = (s.modLane n fun l => { l with requests := [] }).lanes ∧ (s.meetRequests n).hold = s.hold ∧
    (s.meetRequests n).writer = s.writer ∧ (s.meetRequests n).room = s.room ∧ (s.meetRequests n).hostMem = s.hostMem := by
  unfold meetRequests
  dsimp only
  generalize (s.lane n).requests = l
  have key : ∀ (u : State), (l.foldl (fun s t => s.modTr t (·.laneClosed n)) u).lanes = u.lanes ∧
      (l.foldl (fun s t => s.modTr t (·.laneClosed n)) u).hold = u.hold ∧
      (l.foldl (fun s t => s.modTr t (·.laneClosed n)) u).writer = u.writer ∧
      (l.foldl (fun s t => s.modTr t (·.laneClosed n)) u).room = u.room ∧
      (l.foldl (fun s t => s.modTr t (·.laneClosed n)) u).hostMem = u.hostMem := by
    induction l with
    | nil => exact fun u => ⟨rfl, rfl, rfl, rfl, rfl⟩
    | cons i rest ih => exact fun u => ih (u.modTr i (·.laneClosed n))
  exact key _

theorem lane_meetRequests_self (s : State) (n : LaneNo) : (s.meetRequests n).lane n = { s.lane n with requests := [] } := by
  have h : (s.meetRequests n).lane n = (s.modLane n fun l => { l with requests := [] }).lane n :=
    congrArg (fun l : Vector Lane 8 => l[n]) (s.lanes_meetRequests n).1
  exact h.trans (lane_setLane_self ..)

theorem lane_meetRequests_of_ne (s : State) {n m : LaneNo} (hm : m ≠ n) : (s.meetRequests n).lane m = s.lane m := by
  have h : (s.meetRequests n).lane m = (s.modLane n fun l => { l with requests := [] }).lane m :=
    congrArg (fun l : Vector Lane 8 => l[m]) (s.lanes_meetRequests n).1
  exact h.trans (lane_setLane_of_ne _ _ hm)

/-- A bus error on an entry write (R131, R142). -/
theorem entryFault_spec (s : State) (t : TransportNo) (p : Piece) (b : Bin) :
    (s.entryFault t p b).hostMem = s.hostMem ∧ ((s.entryFault t p b).lane p.lane).state = .faulted ∧
    (s.entryFault t p b).writer.turn = none ∧ (s.entryFault t p b).room.evt = s.room.evt ||| 0x4000#16 ∧
    (s.entryFault t p b).hold = s.hold ∧ (∀ n, n ≠ p.lane → (s.entryFault t p b).lane n = s.lane n) ∧
    (0 < b.count → ((s.entryFault t p b).lane p.lane).bin = (s.lane p.lane).bin ∧ ((s.entryFault t p b).lane p.lane).handBack =
      some { isPartial := true, batchEnd := !(s.lane p.lane).requests.isEmpty }) ∧
    (b.count = 0 → ((s.entryFault t p b).lane p.lane).bin = none ∧ ((s.entryFault t p b).lane p.lane).requests = []) := by
  have h : ∃ u : State, (∀ n, u.lane n = s.lane n) ∧ u.hostMem = s.hostMem ∧ u.writer.turn = none ∧
      u.room.evt = s.room.evt ||| 0x4000#16 ∧ u.hold = s.hold ∧ s.entryFault t p b =
        if 0 < b.count then u.modLane p.lane fun l => ({ l with state := .faulted } : Lane).beginHandBack true
        else (u.modLane p.lane fun l => { l with state := .faulted, bin := none, flushTimer := none, closeAsked := false }).meetRequests
          p.lane :=
    ⟨((s.modTr t (·.modHeadPiece fun q => { q with interrupted := true })).setWriter { s.writer with turn := none }).setEvent .memfault,
      fun _ => rfl, rfl, rfl, rfl, rfl, rfl⟩
  obtain ⟨u, u1, u2, u3, u4, u5, e⟩ := h
  have hl : ∀ f : Lane → Lane, (u.modLane p.lane f).lane p.lane = f (s.lane p.lane) := fun f => by
    rw [← u1]
    exact lane_setLane_self ..
  have ho : ∀ (f : Lane → Lane) (n : LaneNo), n ≠ p.lane → (u.modLane p.lane f).lane n = s.lane n := fun f n hn =>
    (lane_setLane_of_ne _ _ hn).trans (u1 n)
  rw [e]
  by_cases hc : 0 < b.count
  · rw [if_pos hc, hl]
    exact ⟨u2, rfl, u3, u4, u5, ho _, fun _ => ⟨rfl, rfl⟩, fun k => absurd hc (by omega)⟩
  · obtain ⟨-, m2, m3, m4, m5⟩ := lanes_meetRequests (u.modLane p.lane fun l =>
        { l with state := .faulted, bin := none, flushTimer := none, closeAsked := false }) p.lane
    rw [if_neg hc, m2, m3, m4, m5, lane_meetRequests_self, hl]
    exact ⟨u2, rfl, u3, u4, u5, fun n hn => (lane_meetRequests_of_ne _ hn).trans (ho _ n hn), fun k => absurd k hc,
      fun _ => ⟨rfl, rfl⟩⟩

/-- A write sequence changes host memory alone. -/
theorem hostWrite_spec (s : State) (cells : List Host.Cell) (r : BusWrite) : (∀ i, (s.hostWrite r cells).tr i = s.tr i) ∧
    (∀ n, (s.hostWrite r cells).lane n = s.lane n) ∧ (s.hostWrite r cells).hold = s.hold ∧ (s.hostWrite r cells).room = s.room ∧
    (s.hostWrite r cells).writer = s.writer ∧ (r = .ok → (s.hostWrite r cells).hostMem = writeCells cells s.hostMem) ∧
    ∀ k, r = .busError k → (s.hostWrite r cells).hostMem = writeCells (cells.take k) s.hostMem := by
  refine ⟨fun _ => rfl, fun _ => rfl, rfl, rfl, rfl, ?_, ?_⟩
  · rintro rfl
    rfl
  · rintro k rfl
    rfl

end State

/-- Settles O55. -/
theorem entryWritten : Obligations.EntryWritten := by
  intro s t e p b ht hp hb data grown l
  obtain ⟨e1, e2⟩ := State.entryDone_eq ht hp hb
  refine ⟨?_, fun k => ?_⟩
  · obtain ⟨u1, u2, u3, -, -, u4, -⟩ := s.hostWrite_spec (entryCells t e p b) .ok
    generalize s.hostWrite .ok (entryCells t e p b) = u at e1 u1 u2 u3 u4
    obtain ⟨w1, w2⟩ := u.entryWritten_eq t e p b
    obtain ⟨htr, ho, hl, hlo, hm, hh, hturn⟩ := u.entryDown_spec t e p b
    rw [u1] at htr
    rw [u2] at hl
    obtain ⟨q1, q2⟩ := headPiece_advanced (d := data) hp (congrArg Transport.queue htr)
    obtain ⟨a1, a2, a3, a4, a5⟩ := afterEntry_spec l grown
    refine ⟨u.entryDown t e p b, fun hw => ⟨?_, ?_, q1 hw⟩, fun hw => ⟨?_, ?_, q2 hw⟩, hm.trans (u4 rfl),
      hh.trans u3, fun i hi => (ho i hi).trans (u1 i), fun n hn => (hlo n hn).trans (u2 n), ?_⟩
    · show execEntryWriteDone .ok s = _
      unfold execEntryWriteDone
      rw [e1, w1 hw]
    · exact hturn.trans (if_pos (decide_eq_true hw))
    · show execEntryWriteDone .ok s = _
      unfold execEntryWriteDone
      rw [e1, w2 hw]
    · exact hturn.trans (if_neg (by rw [decide_eq_false (not_le.mpr hw)]; exact nofun))
    · rw [hl]
      exact ⟨a1, a2, a3, a4, a5⟩
  · have e2 := e2 k
    obtain ⟨-, u2, u3, u4, -, -, u5⟩ := s.hostWrite_spec (entryCells t e p b) (.busError k)
    generalize s.hostWrite (.busError k) (entryCells t e p b) = u at e2 u2 u3 u4 u5
    obtain ⟨f1, f2, f3, f4, f5, f6, f7, f8⟩ := u.entryFault_spec t p b
    rw [u2] at f7
    refine ⟨u.entryFault t p b, ?_, f1.trans (u5 k rfl), f2, f3, f4.trans (by rw [u4]), f5.trans u3, fun n hn => (f6 n hn).trans (u2 n),
      fun h => ⟨(f7 h).1.trans hb, (f7 h).2⟩, f8⟩
    show execEntryWriteDone (.busError k) s = _
    unfold execEntryWriteDone
    rw [e2]

end Sys2Proof.Machine

end

/-! PROOFS. The end of a hand-back: its bin header, its requests met, and the turn that waited for it (07 sections 7.5, 7.6). -/

section

namespace Sys2Proof.Machine

/-! ### The bin header -/

/-- The fields of a bin header in the order written (10 Table 10-10). -/
def handBackFields (b : Bin) (n : LaneNo) (sequence : Word) (h : HandBack) : List (Nat × List Byte) :=
  [(16, leBytes b.filled 4), (20, leBytes b.count 4), (2, leBytes n.val 1), (24, leBytes sequence.toNat 4),
   (1, leBytes (flagBit h.isPartial 0 + flagBit h.batchEnd 1) 1), (3, zeroBytes 1), (28, zeroBytes 36), (0, [0])]

theorem handBackCells_eq (b : Bin) (n : LaneNo) (sequence : Word) (h : HandBack) :
    handBackCells b n sequence h = recordCells b.addr (handBackFields b n sequence h) := rfl

/-- The places of a bin header, without the host's capacity and next link. -/
def handBackPlaces : List Nat :=
  (List.range 8).map (16 + ·) ++ [2] ++ (List.range 4).map (24 + ·) ++ [1, 3] ++ (List.range 36).map (28 + ·) ++ [0]

theorem placesOf_handBack (b : Bin) (n : LaneNo) (sequence : Word) (h : HandBack) :
    placesOf (handBackFields b n sequence h) = handBackPlaces := by
  simp only [placesOf, handBackFields, List.flatMap_cons, List.flatMap_nil, length_leBytes, length_zeroBytes]
  decide

theorem handBackPlaces_ok : handBackPlaces.Nodup ∧ ∀ o ∈ handBackPlaces, o < 2 ^ 64 := by decide

theorem handBackFlags_bytes (p e : Bool) : leBytes (flagBit p 0 + flagBit e 1) 1 = [(if p then 1 else 0) + (if e then 2 else 0)] := by
  cases p <;> cases e <;> rfl

theorem handBack_held (b : Bin) (n : LaneNo) (sequence : Word) (h : HandBack) (m : List Host.Cell) :
    ∀ f ∈ handBackFields b n sequence h, Holds (writeCells (handBackCells b n sequence h) m) b.addr f.1 f.2 := by
  rw [handBackCells_eq]
  refine Holds.of_record m ?_ ?_
  · rw [placesOf_handBack]; exact handBackPlaces_ok.1
  · rw [placesOf_handBack]; exact handBackPlaces_ok.2

theorem recordCells_append (base : Addr) (f g : List (Nat × List Byte)) :
    recordCells base (f ++ g) = recordCells base f ++ recordCells base g := by
  induction f with
  | nil => rfl
  | cons a rest ih =>
    show cellsAt base a.1 a.2 ++ recordCells base (rest ++ g) = cellsAt base a.1 a.2 ++ recordCells base rest ++ recordCells base g
    rw [ih, List.append_assoc]

/-- The turn is the last byte of a bin header written (R175). -/
theorem handBackCells_last (b : Bin) (n : LaneNo) (sequence : Word) (h : HandBack) :
    ∃ rest, handBackCells b n sequence h = rest ++ [(b.addr.toNat, 0)] := by
  refine ⟨recordCells b.addr (handBackFields b n sequence h).dropLast, ?_⟩
  have e : handBackFields b n sequence h = (handBackFields b n sequence h).dropLast ++ [(0, [0])] := rfl
  rw [handBackCells_eq, e, recordCells_append, ← e]
  have hl : recordCells b.addr [(0, [0])] = [(b.addr.toNat, 0)] := by
    show [((b.addr + BitVec.ofNat 64 0).toNat, (0 : Byte))] = _
    rw [BitVec.ofNat_eq_ofNat, BitVec.add_zero]
  rw [hl]

/-! ### Events -/

/-- A bit of EVT that is set shows in its mask. -/
theorem and_mask_ne_zero {x m : BitVec 16} {i : Nat} (h : x.getLsbD i = true) (hm : m.getLsbD i = true) : x &&& m ≠ 0 := by
  intro k
  have e := congrArg (·.getLsbD i) k
  simp only [BitVec.getLsbD_and, h, hm] at e
  simp at e

theorem laneMask (n : LaneNo) : (0x10#16 <<< n.val).getLsbD (4 + n.val) = true ∧ (1#16 <<< (4 + n.val)).getLsbD (4 + n.val) = true := by
  fin_cases n <;> decide

namespace State

variable {s u v : State} {n : LaneNo} {t : TransportNo}

theorem evt_of_eventsKept {i : Nat} (h : s.room.evt.getLsbD i = true) (k : s.EventsKept u) : u.room.evt.getLsbD i = true := by
  rcases k with e | e
  · rw [e, h]
  · rw [e, BitVec.getLsbD_or, h, Bool.true_or]

/-! ### The requests of a lane met -/

/-- What the closure of a lane reported to a transport comes to (R140). -/
structure ClosedFor (x y : Transport) (n : LaneNo) (asked : Prop) : Prop where
  rest : { y with batch := { y.batch with closure := x.batch.closure } } = x
  met : asked → ∀ ls, x.batch.closure = .asked ls → y.batch.closure = .asked (ls.filter (· ≠ n))
  kept : ¬asked ∨ (∀ ls, x.batch.closure ≠ .asked ls) → y = x

theorem laneClosed_asked {x : Transport} {ls : List LaneNo} (h : x.batch.closure = .asked ls) :
    x.laneClosed n = { x with batch := { x.batch with closure := .asked (ls.filter (· ≠ n)) } } := by
  unfold Transport.laneClosed
  rw [h]
  have e : ls.filter (· != n) = ls.filter (· ≠ n) := List.filter_congr fun a _ => by
    by_cases k : a = n <;> simp [k]
  rw [← e]

theorem laneClosed_other {x : Transport} (h : ∀ ls, x.batch.closure ≠ .asked ls) : x.laneClosed n = x := by
  unfold Transport.laneClosed
  split
  · next k => exact absurd k (h _)
  all_goals rfl

theorem closedFor_foldl (l : List TransportNo) (s : State) (t : TransportNo) :
    ClosedFor (s.tr t) ((l.foldl (fun s i => s.modTr i (·.laneClosed n)) s).tr t) n (t ∈ l) := by
  induction l generalizing s with
  | nil => exact ⟨rfl, fun h => absurd h List.not_mem_nil, fun _ => rfl⟩
  | cons i rest ih =>
    obtain ⟨r1, r2, r3⟩ := ih (s.modTr i (·.laneClosed n))
    rw [List.foldl_cons]
    by_cases e : t = i
    · subst e
      rw [tr_modTr_self] at r1 r2 r3
      by_cases ha : ∃ ls, (s.tr t).batch.closure = .asked ls
      · obtain ⟨ls, hls⟩ := ha
        rw [laneClosed_asked hls] at r1 r2 r3
        refine ⟨?_, fun _ ls' hls' => ?_, fun k => k.elim (fun q => absurd (List.mem_cons_self ..) q) fun q => absurd hls (q ls)⟩
        · exact congrArg (fun x : Transport => { x with batch := { x.batch with closure := (s.tr t).batch.closure } }) r1
        · cases hls.symm.trans hls'
          by_cases hm : t ∈ rest
          · rw [r2 hm _ rfl, List.filter_filter]
            exact congrArg Closure.asked (List.filter_congr fun a _ => Bool.and_self _)
          · rw [r3 (.inl hm)]
      · rw [laneClosed_other fun ls k => ha ⟨ls, k⟩] at r1 r2 r3
        exact ⟨r1, fun _ ls hls => absurd ⟨ls, hls⟩ ha, fun _ => r3 (.inr fun ls k => ha ⟨ls, k⟩)⟩
    · rw [show (s.modTr i (·.laneClosed n)).tr t = s.tr t from tr_setTr_of_ne _ _ e] at r1 r2 r3
      exact ⟨r1, fun h => r2 ((List.mem_cons.mp h).resolve_left e), fun h => r3 (h.imp_left fun q k => q (List.mem_cons_of_mem _ k))⟩

theorem closedFor_meetRequests (s : State) (n : LaneNo) (t : TransportNo) :
    ClosedFor (s.tr t) ((s.meetRequests n).tr t) n (t ∈ (s.lane n).requests) :=
  closedFor_foldl (s.lane n).requests (s.modLane n fun l => { l with requests := [] }) t

theorem ClosedFor.queue {x y : Transport} {p : Prop} (h : ClosedFor x y n p) : y.queue = x.queue :=
  (congrArg Transport.queue h.rest :)

/-! ### The turn that waited -/

/-- The writer's turn waits for a hand-back of lane n (R131). -/
def Waits (s : State) (n : LaneNo) (t : TransportNo) : Prop :=
  s.writer.turn = some (t, .handBack) ∧ ∃ e p, (s.tr t).headPiece = some (e, p) ∧ p.lane = n

theorem waits_iff : s.Waits n t ↔ s.servedLane = some (t, .handBack, n) := by
  refine ⟨fun ⟨ht, e, p, hp, hl⟩ => ?_, servedLane_eq_some⟩
  unfold servedLane
  rw [ht]
  dsimp only
  rw [hp, ← hl]
  rfl

theorem afterHandBack_of_waits (h : s.Waits n t) : s.afterHandBack n = if (s.lane n).state = .idle then
    (s.modLane n fun l => { l with binTake := true }).setWriter { s.writer with turn := some (t, .binTake) } else s.breakTurn t := by
  simp only [afterHandBack, waits_iff.mp h, if_true]

theorem afterHandBack_of_none (h : ∀ t, ¬s.Waits n t) : s.afterHandBack n = s := by
  unfold afterHandBack
  split
  · next t m hs =>
    refine if_neg fun e => ?_
    subst e
    exact h t (waits_iff.mpr hs)
  all_goals rfl

/-- What follows the end of a hand-back, from a state whose lane has no hand-back left: its requests met, then its turn. -/
structure Followed (s v : State) (n : LaneNo) : Prop where
  others : ∀ m, m ≠ n → v.lane m = s.lane m
  lane : ({ s.lane n with requests := [], binTake := (v.lane n).binTake } : Lane) = v.lane n
  hold : v.hold = s.hold
  hostMem : v.hostMem = s.hostMem
  room : v.room = s.room
  closed : ∀ t, { v.tr t with
    batch := { (v.tr t).batch with closure := (s.tr t).batch.closure }, queue := (s.tr t).queue } = s.tr t
  met : ∀ t, t ∈ (s.lane n).requests → ∀ ls, (s.tr t).batch.closure = .asked ls →
    (v.tr t).batch.closure = .asked (ls.filter (· ≠ n))
  kept : ∀ t, (t ∉ (s.lane n).requests ∨ ∀ ls, (s.tr t).batch.closure ≠ .asked ls) →
    (v.tr t).batch.closure = (s.tr t).batch.closure
  goesOn : (s.lane n).state = .idle → (∀ i, (v.tr i).queue = (s.tr i).queue) ∧
    ∀ t, s.Waits n t → v.writer = { s.writer with turn := some (t, .binTake) } ∧ (v.lane n).binTake = true
  breaks : (s.lane n).state ≠ .idle → (v.lane n).binTake = (s.lane n).binTake ∧
    ∀ t, s.Waits n t → v.writer = { s.writer with turn := none } ∧ (∀ i, i ≠ t → (v.tr i).queue = (s.tr i).queue) ∧
      ∀ e p, (s.tr t).headPiece = some (e, p) → ∃ f : Element, (v.tr t).headPiece = some (f, { p with interrupted := true }) ∧
        (v.tr t).queue.tail = (s.tr t).queue.tail
  still : (∀ t, ¬s.Waits n t) → v.writer = s.writer ∧ (v.lane n).binTake = (s.lane n).binTake ∧ ∀ i, (v.tr i).queue = (s.tr i).queue

theorem queue_modHeadPiece_tail (x : Transport) (f : Piece → Piece) : (x.modHeadPiece f).queue.tail = x.queue.tail ∧
    { x.modHeadPiece f with queue := x.queue } = x := by
  unfold Transport.modHeadPiece
  split
  · exact ⟨rfl, rfl⟩
  · next h =>
    rw [h]
    exact ⟨rfl, by rw [← h]⟩

/-- The requests of a lane met and the turn that waited for it taken on or broken off (R131, R140). -/
theorem followed (s : State) (n : LaneNo) : Followed s ((s.meetRequests n).afterHandBack n) n := by
  obtain ⟨-, m2, m3, m4, m5⟩ := s.lanes_meetRequests n
  have hl := s.lane_meetRequests_self n
  have ho : ∀ m, m ≠ n → (s.meetRequests n).lane m = s.lane m := fun m hm => s.lane_meetRequests_of_ne hm
  have hc := s.closedFor_meetRequests n
  generalize s.meetRequests n = u at *
  have hq : ∀ i, (u.tr i).queue = (s.tr i).queue := fun i => (hc i).queue
  have hw : ∀ t, s.Waits n t ↔ u.Waits n t := fun t => by
    unfold Waits
    rw [m3, headPiece_of_queue (hq t)]
  have hrest : ∀ t, { u.tr t with batch := { (u.tr t).batch with closure := (s.tr t).batch.closure }, queue := (s.tr t).queue } = s.tr t :=
    fun t => (congrArg (fun x : Transport => { x with queue := (s.tr t).queue }) (hc t).rest :)
  have hmet := fun t => (hc t).met
  have hkept : ∀ t, (t ∉ (s.lane n).requests ∨ ∀ ls, (s.tr t).batch.closure ≠ .asked ls) →
      (u.tr t).batch.closure = (s.tr t).batch.closure := fun t h => by rw [(hc t).kept h]
  have hidle : (u.lane n).state = (s.lane n).state := by rw [hl]
  by_cases h : ∃ t, s.Waits n t
  · obtain ⟨t, ht⟩ := h
    have huniq : ∀ i, s.Waits n i → i = t := fun i hi => by
      have := hi.1.symm.trans ht.1
      cases this
      rfl
    rw [afterHandBack_of_waits ((hw t).mp ht)]
    by_cases hi : (s.lane n).state = .idle
    · rw [if_pos (hidle.trans hi)]
      have hlv : ∀ w, ((u.modLane n fun l => { l with binTake := true }).setWriter w).lane n = { u.lane n with binTake := true } :=
        fun w => lane_setLane_self ..
      refine ⟨fun m hm => (lane_setLane_of_ne _ _ hm).trans (ho m hm), ?_, m2, m5, m4, hrest, hmet, hkept,
        fun _ => ⟨hq, fun i hi => ⟨?_, (congrArg Lane.binTake (hlv _) :)⟩⟩, fun k => absurd hi k, fun k => absurd ht (k t)⟩
      · rw [hlv, hl]
      · rw [huniq i hi, ← m3]
        rfl
    · rw [if_neg (by rw [hidle]; exact hi)]
      have htr : ∀ i, i ≠ t → (u.breakTurn t).tr i = u.tr i := fun i hi => tr_setTr_of_ne _ _ hi
      have htt : (u.breakTurn t).tr t = (u.tr t).modHeadPiece fun q => { q with interrupted := true } := tr_setTr_self ..
      obtain ⟨t1, t2⟩ := queue_modHeadPiece_tail (u.tr t) fun q => { q with interrupted := true }
      have hbatch : ((u.breakTurn t).tr t).batch = (u.tr t).batch := by
        rw [htt]
        exact (congrArg Transport.batch t2 :)
      have hb : ∀ i, ((u.breakTurn t).tr i).batch.closure = (u.tr i).batch.closure := fun i => by
        by_cases e : i = t
        · rw [e, hbatch]
        · rw [htr i e]
      refine ⟨ho, ?_, m2, m5, m4, fun i => ?_, fun i h ls hls => (hb i).trans (hmet i h ls hls), fun i h => (hb i).trans (hkept i h),
        fun k => absurd k hi, fun _ => ⟨by rw [show (u.breakTurn t).lane n = u.lane n from rfl, hl], fun i hi => ?_⟩,
        fun k => absurd ht (k t)⟩
      · rw [show (u.breakTurn t).lane n = u.lane n from rfl, hl]
      · by_cases e : i = t
        · subst e
          rw [htt]
          have e2 := congrArg (fun x : Transport => { x with
            batch := { x.batch with closure := (s.tr i).batch.closure }, queue := (s.tr i).queue }) t2
          exact e2.trans (hrest i)
        · rw [htr i e]
          exact hrest i
      · rw [huniq i hi]
        refine ⟨by rw [← m3]; rfl, fun j hj => by rw [htr j hj, hq], fun e p hp => ?_⟩
        rw [← headPiece_of_queue (hq t)] at hp
        have hhp := headPiece_modHeadPiece (f := fun q => { q with interrupted := true }) hp
          (show p.written = false from written_of_headPiece hp)
        rw [htt]
        exact ⟨_, hhp, by rw [t1, hq]⟩
  · have hn : ∀ t, ¬s.Waits n t := fun t k => h ⟨t, k⟩
    rw [afterHandBack_of_none fun t k => hn t ((hw t).mpr k)]
    refine ⟨ho, by rw [hl], m2, m5, m4, hrest, hmet, hkept, fun _ => ⟨hq, fun t k => absurd k (hn t)⟩,
      fun _ => ⟨by rw [hl], fun t k => absurd k (hn t)⟩, fun _ => ⟨m3, by rw [hl], hq⟩⟩

/-- The lane and the event of a hand-back that ends, before its requests are met (R138, R143). -/
def handBackDown (s : State) (n : LaneNo) (a : Addr) (cells : List Host.Cell) (r : BusWrite) : State :=
  match r with
  | .ok => ((s.hostWrite .ok cells).modLane n (·.handedBack a)).setEvent (.lane n)
  | .busError k => ((s.hostWrite (.busError k) cells).modLane n Lane.handBackFailed).setEvent .memfault

theorem exec_handBackDone {h : HandBack} {b : Bin} (hh : (s.lane n).handBack = some h) (hb : (s.lane n).bin = some b) (r : BusWrite) :
    exec (.handBackDone n r) s = .next ((((s.handBackDown n b.addr (handBackCells b n (s.lane n).sequence h) r).meetRequests n).afterHandBack
      n).finish s []) := by
  show execHandBackDone n r s = _
  unfold execHandBackDone
  have e : s.handBackEnded n r =
      ((s.handBackDown n b.addr (handBackCells b n (s.lane n).sequence h) r).meetRequests n).afterHandBack n := by
    cases r <;> simp only [handBackEnded, handBackDown, hh, hb]
  rw [e]

theorem handBackDown_spec (s : State) (n : LaneNo) (a : Addr) (cells : List Host.Cell) (r : BusWrite) :
    let u := s.handBackDown n a cells r
    (∀ m, m ≠ n → u.lane m = s.lane m) ∧ u.hold = s.hold ∧ (∀ i, u.tr i = s.tr i) ∧ u.writer = s.writer ∧
    (r = .ok → u.lane n = (s.lane n).handedBack a ∧ u.hostMem = writeCells cells s.hostMem ∧
      u.room.evt = s.room.evt ||| 1#16 <<< (4 + n.val)) ∧
    ∀ k, r = .busError k → u.lane n = (s.lane n).handBackFailed ∧ u.hostMem = writeCells (cells.take k) s.hostMem ∧
      u.room.evt = s.room.evt ||| 0x4000#16 := by
  obtain ⟨w1, w2, w3, w4, w5, w6, w7⟩ := s.hostWrite_spec cells r
  cases r with
  | ok =>
    unfold handBackDown
    dsimp only
    generalize s.hostWrite .ok cells = v at *
    refine ⟨fun m hm => (lane_setLane_of_ne _ _ hm).trans (w2 m), w3, w1, w5, fun _ => ⟨?_, w6 rfl, ?_⟩, nofun⟩
    · exact (lane_setLane_self ..).trans (by rw [w2])
    · rw [← w4]
      rfl
  | busError k =>
    unfold handBackDown
    dsimp only
    generalize s.hostWrite (.busError k) cells = v at *
    refine ⟨fun m hm => (lane_setLane_of_ne _ _ hm).trans (w2 m), w3, w1, w5, nofun, fun j hj => ⟨?_, w7 j hj, ?_⟩⟩
    · exact (lane_setLane_self ..).trans (by rw [w2])
    · rw [← w4]
      rfl

end State

/-- Settles O56. -/
theorem handBackEnds : Obligations.HandBackEnds := by
  refine ⟨fun b n sequence h m => ?_, fun s n h b hh hb => ?_⟩
  · have hd := handBack_held b n sequence h m
    refine ⟨?_, hd (16, leBytes b.filled 4) (by simp [handBackFields]), hd (20, leBytes b.count 4) (by simp [handBackFields]),
      hd (2, leBytes n.val 1) (by simp [handBackFields]), hd (24, leBytes sequence.toNat 4) (by simp [handBackFields]), ?_,
      hd (3, zeroBytes 1) (by simp [handBackFields]), hd (28, zeroBytes 36) (by simp [handBackFields]),
      hd (0, [0]) (by simp [handBackFields])⟩
    · rw [handBackCells_eq, map_fst_recordCells, placesOf_handBack]
      rfl
    · exact handBackFlags_bytes h.isPartial h.batchEnd ▸ hd (1, leBytes (flagBit h.isPartial 0 + flagBit h.batchEnd 1) 1)
        (by simp [handBackFields])
  · intro l cells kept waits goesOn breaks
    have key : ∀ r, ∃ v : State, exec (.handBackDone n r) s = .next (v.finish s []) ∧ kept v ∧
        (r = .ok → l.state ≠ .faulted → goesOn v) ∧ (r ≠ .ok ∨ l.state = .faulted → breaks v) ∧
        (r = .ok → v.hostMem = writeCells cells s.hostMem ∧ v.room.evt = s.room.evt ||| 1#16 <<< (4 + n.val) ∧
          v.lane n = { l.handedBack b.addr with requests := [], binTake := (v.lane n).binTake }) ∧
        ∀ k, r = .busError k → v.hostMem = writeCells (cells.take k) s.hostMem ∧ v.room.evt = s.room.evt ||| 0x4000#16 ∧
          v.lane n = { l.handBackFailed with requests := [], binTake := (v.lane n).binTake } := by
      intro r
      have hexec := State.exec_handBackDone hh hb r
      obtain ⟨d1, d2, d3, d4, d5, d6⟩ := s.handBackDown_spec n b.addr cells r
      change exec (.handBackDone n r) s = .next ((((s.handBackDown n b.addr cells r).meetRequests n).afterHandBack n).finish s []) at hexec
      generalize s.handBackDown n b.addr cells r = u at *
      obtain ⟨f1, f2, f3, f4, f5, f6, f7, f8, f9, f10, f11⟩ := State.followed u n
      generalize (u.meetRequests n).afterHandBack n = v at *
      have hu : (u.lane n).requests = l.requests ∧ (u.lane n).binTake = l.binTake ∧
          (r = .ok → l.state ≠ .faulted → (u.lane n).state = .idle) ∧ (r ≠ .ok ∨ l.state = .faulted → (u.lane n).state = .faulted) := by
        cases r with
        | ok =>
          rw [(d5 rfl).1]
          exact ⟨rfl, rfl, fun _ hf => if_neg hf, fun k => if_pos (k.resolve_left fun q => q rfl)⟩
        | busError k =>
          rw [(d6 k rfl).1]
          exact ⟨rfl, rfl, nofun, fun _ => rfl⟩
      obtain ⟨hu1, hu2, hu3, hu4⟩ := hu
      have hw : ∀ t, waits t → u.Waits n t := fun t ht => by
        unfold State.Waits
        rw [d4, d3]
        exact ht
      have hw' : ∀ t, u.Waits n t → waits t := fun t ht => by
        unfold State.Waits at ht
        rwa [d4, d3] at ht
      simp only [d3, hu1, hu2, d4] at f6 f7 f8 f9 f10 f11
      have hgo : (u.lane n).state = .idle → goesOn v := fun hi =>
        ⟨(f9 hi).1, fun t ht => (f9 hi).2 t (hw t ht), fun hn => ⟨(f11 fun t k => hn t (hw' t k)).1, (f11 fun t k => hn t (hw' t k)).2.1⟩⟩
      have hbr : (u.lane n).state ≠ .idle → breaks v := fun hi =>
        ⟨(f10 hi).1, fun t ht => (f10 hi).2 t (hw t ht), fun hn => ⟨(f11 fun t k => hn t (hw' t k)).1, (f11 fun t k => hn t (hw' t k)).2.2⟩⟩
      refine ⟨v, hexec, ⟨fun m hm => (f1 m hm).trans (d1 m hm), f3.trans d2, f6, ?_, fun t => ⟨f7 t, f8 t⟩⟩,
        fun hr hf => hgo (hu3 hr hf), fun hr => hbr (by rw [hu4 hr]; exact nofun),
        fun hr => ⟨f4.trans (d5 hr).2.1, by rw [f5]; exact (d5 hr).2.2, ?_⟩,
        fun k hk => ⟨f4.trans (d6 k hk).2.1, by rw [f5]; exact (d6 k hk).2.2, ?_⟩⟩
      · rw [← f2]
      · rw [(d5 hr).1] at f2
        exact f2.symm
      · rw [(d6 k hk).1] at f2
        exact f2.symm
    refine ⟨?_, fun k => ?_⟩
    · obtain ⟨v, he, hk, hgo, hbr, hok, -⟩ := key .ok
      obtain ⟨h1, h2, h3⟩ := hok rfl
      obtain ⟨m1, m2⟩ := laneMask n
      have hstate : (v.lane n).state = if l.state = .faulted then .faulted else .idle := by rw [h3]; rfl
      have hno := State.laneSteps_noHandBackKept.finish v s [] n (by rw [hstate]; split <;> exact nofun) (by rw [h3]; rfl)
      obtain ⟨l1, l2, l3, -, l5, -⟩ := State.lane_finish v s [] n
      have hmem := State.hostMem_finish v s []
      have hevt := State.evt_of_eventsKept (i := 4 + n.val) (by rw [h2, BitVec.getLsbD_or, m2, Bool.or_true]) (State.eventsKept_finish v s [])
      refine ⟨_, v, he, rfl, hk, hgo rfl, fun hf => hbr (.inr hf), hmem.trans h1, handBackCells_last b n l.sequence h,
        and_mask_ne_zero hevt m1, l3.trans (by rw [h3]; rfl), l2.trans (by rw [h3]; rfl), l5.trans (by rw [h3]; rfl), hno.2,
        l1.trans hstate⟩
    · obtain ⟨v, he, hk, -, hbr, -, hbad⟩ := key (.busError k)
      obtain ⟨h1, h2, h3⟩ := hbad k rfl
      have hno := State.laneSteps_noHandBackKept.finish v s [] n (by rw [h3]; exact nofun) (by rw [h3]; rfl)
      obtain ⟨l1, l2, l3, -, l5, -⟩ := State.lane_finish v s [] n
      have hmem := State.hostMem_finish v s []
      have hevt := State.memfault_finish (State.memfault_of_evt h2) s []
      exact ⟨_, v, he, rfl, hk, hbr (.inl nofun), hmem.trans h1, hevt, l3.trans (by rw [h3]; rfl), l2.trans (by rw [h3]; rfl),
        l5.trans (by rw [h3]; rfl), hno.2, l1.trans (by rw [h3]; rfl)⟩

end Sys2Proof.Machine

end

/-! PROOFS. The route decision of a COMPLETE side, and the route entries by their bytes (07 section 7.1, 10 section 10.4). -/

section

namespace Sys2Proof.Machine

theorem isDivider_iff (m : MarkResult) : m.isDivider = true ↔ ∃ k, m = .divider k := by
  cases m with
  | divider d => exact ⟨fun _ => ⟨d, rfl⟩, fun _ => rfl⟩
  | pending => exact ⟨nofun, nofun⟩
  | noDivider => exact ⟨nofun, nofun⟩

theorem routeField_iff (code value : Nat) : routeField code value = true ↔ code = 255 ∨ code = value := by
  unfold routeField
  rw [Bool.or_eq_true, beq_iff_eq, beq_iff_eq]

/-- A Bool's column in a route table entry. -/
theorem routeField_one (code : Nat) (b : Bool) :
    routeField code (one b) = true ↔ code = 255 ∨ (¬b = true ∧ code = 0) ∨ (b = true ∧ code = 1) := by
  rw [routeField_iff]
  cases b <;> simp [one]

theorem routeField_side (code : Nat) (sd : Side) :
    routeField code (sideRouteCode sd) = true ↔ code = 255 ∨ (sd = .front ∧ code = 0) ∨ (sd = .back ∧ code = 1) := by
  rw [routeField_iff]
  cases sd <;> simp [sideRouteCode]

/-- A standing's column; REVIEW never consults the table. -/
theorem routeField_standing (code : Nat) {st : Standing} (h : st ≠ .review) : routeField code st.routeCode = true ↔
    code = 255 ∨ (st = .clean ∧ code = 0) ∨ (st = .flagged ∧ code = 1) ∨ (st = .accepted ∧ code = 2) := by
  rw [routeField_iff]
  cases st <;> simp [Standing.routeCode] at h ⊢

theorem fits_iff (e : RouteEntry) (group : Nat) (sd : Side) {st : Standing} (h : st ≠ .review) (blank divider : Bool) :
    e.fits group sd st blank divider = true ↔
      (e.group = 255 ∨ e.group = group) ∧ (e.side = 255 ∨ (sd = .front ∧ e.side = 0) ∨ (sd = .back ∧ e.side = 1)) ∧
      (e.standing = 255 ∨ (st = .clean ∧ e.standing = 0) ∨ (st = .flagged ∧ e.standing = 1) ∨
        (st = .accepted ∧ e.standing = 2)) ∧
      (e.blank = 255 ∨ (¬blank = true ∧ e.blank = 0) ∨ (blank = true ∧ e.blank = 1)) ∧
      (e.divider = 255 ∨ (¬divider = true ∧ e.divider = 0) ∨ (divider = true ∧ e.divider = 1)) ∧
      ((1 ≤ e.action ∧ e.action ≤ 7) ∨ e.action = 128) := by
  unfold RouteEntry.fits
  simp only [Bool.and_eq_true, Bool.or_eq_true, decide_eq_true_eq, beq_iff_eq, routeField_one, routeField_side,
    routeField_standing _ h, routeField_iff e.group, and_assoc]

section

variable {routes : List RouteEntry} {unused : LaneNo → Bool} {group : Nat} {sd : Side} {st : Standing} {blank divider : Bool}

theorem searchRoutes_of_none (h : ∀ e ∈ routes, e.fits group sd st blank divider ≠ true) :
    searchRoutes routes unused group sd st blank divider = .sent 0 true := by
  unfold searchRoutes
  rw [List.find?_eq_none.mpr h]

/-- The first entry that fits decides (R127). -/
theorem searchRoutes_of_first {before after : List RouteEntry} {e : RouteEntry} (hr : routes = before ++ e :: after)
    (hb : ∀ q ∈ before, q.fits group sd st blank divider ≠ true) (he : e.fits group sd st blank divider = true) :
    (e.action = 128 → searchRoutes routes unused group sd st blank divider = .dropped false) ∧
    ∀ n : LaneNo, n.val = e.action → searchRoutes routes unused group sd st blank divider =
      if unused n then .sent 0 true else .sent n false := by
  have hf : routes.find? (fun e => e.fits group sd st blank divider) = some e := by
    rw [hr, List.find?_append, List.find?_eq_none.mpr hb, Option.none_or]
    exact List.find?_cons_of_pos he
  unfold searchRoutes
  rw [hf]
  dsimp only
  refine ⟨fun ha => if_pos ha, fun n hn => ?_⟩
  have hl : Fin.ofNat 8 e.action = n := Fin.ext (by
    show e.action % 8 = n.val
    rw [← hn]
    exact Nat.mod_eq_of_lt n.isLt)
  rw [if_neg (by have := n.isLt; omega), hl]

end

theorem parseRoutes_spec (b : List Byte) : (parseRoutes b).length = field b 0 1 ∧ ∀ i e, (parseRoutes b)[i]? = some e →
    e.group = field b (64 + 8 * i) 1 ∧ e.side = field b (65 + 8 * i) 1 ∧ e.standing = field b (66 + 8 * i) 1 ∧
    e.blank = field b (67 + 8 * i) 1 ∧ e.divider = field b (68 + 8 * i) 1 ∧ e.action = field b (69 + 8 * i) 1 := by
  unfold parseRoutes
  refine ⟨by rw [List.length_map, List.length_range], fun i e h => ?_⟩
  rw [List.getElem?_map, Option.map_eq_some_iff] at h
  obtain ⟨j, hj, rfl⟩ := h
  obtain ⟨-, rfl⟩ := List.getElem?_eq_some_iff.mp hj
  rw [List.getElem_range]
  exact ⟨rfl, rfl, rfl, rfl, rfl, rfl⟩

/-- Settles O59. -/
theorem routeDecision : Obligations.RouteDecision := by
  refine ⟨fun p routes unused r st sd => ?_, parseRoutes_spec⟩
  intro d blank divider searched hit
  have hblank : ((r.side sd).blank == some true) = true ↔ blank := beq_iff_eq
  have hdiv : r.markResult.isDivider = true ↔ divider := isDivider_iff _
  have hb : ((r.side sd).blank == some true && p.blankDrop) = true ↔ blank ∧ p.blankDrop = true := by
    rw [Bool.and_eq_true, hblank]
  have hv : (r.markResult.isDivider && p.dividerDrop) = true ↔ divider ∧ p.dividerDrop = true := by
    rw [Bool.and_eq_true, hdiv]
  have hsearch : searched → d = searchRoutes routes unused p.group sd st ((r.side sd).blank == some true) r.markResult.isDivider :=
    fun ⟨h1, h2, h3⟩ => (if_neg (mt hb.mp h1)).trans ((if_neg (mt hv.mp h2)).trans (if_neg h3))
  have hfit : st ≠ .review → ∀ e : RouteEntry,
      e.fits p.group sd st ((r.side sd).blank == some true) r.markResult.isDivider = true ↔ hit e := fun hs e => by
    rw [fits_iff e p.group sd hs, hblank, hdiv]
  refine ⟨fun h1 h2 => if_pos (hb.mpr ⟨h1, h2⟩), fun h1 h2 h3 => (if_neg (mt hb.mp h1)).trans (if_pos (hv.mpr ⟨h2, h3⟩)),
    fun h1 h2 h3 => (if_neg (mt hb.mp h1)).trans ((if_neg (mt hv.mp h2)).trans (if_pos h3)), fun hs hn => ?_,
    fun hs before e after hr hq he => ?_⟩
  · rw [hsearch hs]
    exact searchRoutes_of_none fun e he => mt (hfit hs.2.2 e).mp (hn e he)
  · rw [hsearch hs]
    exact searchRoutes_of_first hr (fun q hm => mt (hfit hs.2.2 q).mp (hq q hm)) ((hfit hs.2.2 e).mpr he)

end Sys2Proof.Machine

end

/-! PROOFS. The settlement of a record: its kind, its standing, its numbers, its counters and its pieces (03 section 3.5, 05 section
5.5, 07 sections 7.1, 7.2). -/

section

namespace Sys2Proof.Machine

/-! ### Kind and standing -/

theorem kindOf_spec (b : BatchContext) (r : SheetRecord) : (r.overrun = true → kindOf b r = .overrun) ∧
    (r.overrun = false → r.discardMark = true → kindOf b r = .discarded) ∧
    (r.overrun = false → r.discardMark = false → r.markResult.isDivider = true → kindOf b r = .divider) ∧
    (r.overrun = false → r.discardMark = false → r.markResult.isDivider = false →
      kindOf b r = if b.omitNext then .omitted else .page) := by
  unfold kindOf
  refine ⟨fun h => if_pos h, fun h1 h2 => ?_, fun h1 h2 h3 => ?_, fun h1 h2 h3 => ?_⟩
  · rw [h1, h2]; rfl
  · rw [h1, h2, h3]; rfl
  · rw [h1, h2, h3]; rfl

theorem standingOf_review {r : SheetRecord} (h : r.front.damaged = true ∨ r.back.damaged = true ∨ r.overrun = true ∨ r.ruling = .review) :
    standingOf r = .review := by
  unfold standingOf
  split
  · rfl
  · next hn =>
    simp only [Bool.or_eq_true, not_or] at hn
    have hr : r.ruling = .review := ((h.resolve_left hn.1.1).resolve_left hn.1.2).resolve_left hn.2
    rw [hr]

theorem standingOf_sound {r : SheetRecord} (h1 : r.front.damaged = false) (h2 : r.back.damaged = false) (h3 : r.overrun = false) :
    (r.ruling = .accepted → standingOf r = .accepted) ∧
    (r.ruling = .none → (r.verdict.action = .review ∨ r.verdict.action = .hold → standingOf r = .review) ∧
      (r.verdict.action = .pass → standingOf r = .flagged) ∧ (r.verdict.action = .none → standingOf r = .clean)) := by
  unfold standingOf
  rw [h1, h2, h3]
  refine ⟨fun h => by rw [h]; rfl, fun h => ⟨fun ha => ?_, fun ha => by rw [h, ha]; rfl, fun ha => by rw [h, ha]; rfl⟩⟩
  rcases ha with ha | ha <;> rw [h, ha] <;> rfl

/-- The standings that are not REVIEW are those of a ruling or a verdict (04 Table 4-11). -/
theorem standingOf_cases (r : SheetRecord) : (standingOf r = .accepted → r.ruling = .accepted) ∧
    (standingOf r = .flagged → r.ruling = .none ∧ r.verdict.action = .pass) ∧
    (standingOf r = .clean → r.ruling = .none ∧ r.verdict.action = .none) := by
  unfold standingOf
  split
  · exact ⟨nofun, nofun, nofun⟩
  · split
    · exact ⟨nofun, nofun, nofun⟩
    · next h => exact ⟨fun _ => h, nofun, nofun⟩
    · next h =>
      split
      · exact ⟨nofun, nofun, nofun⟩
      · exact ⟨nofun, nofun, nofun⟩
      · next ha => exact ⟨nofun, fun _ => ⟨h, ha⟩, nofun⟩
      · next ha => exact ⟨nofun, nofun, fun _ => ⟨h, ha⟩⟩

/-! ### Counters and numbers -/

/-- The counters that the kind and the sides of a settling record raise (R100). -/
theorem countKind_countSides (c : Counters) (k : Kind) (r : SheetRecord) :
    (({ c with settled := sat32 c.settled 1 } : Counters).countKind k).countSides r = { c with
      settled := sat32 c.settled 1
      page := if k = .page then sat32 c.page 1 else c.page
      divider := if k = .divider then sat32 c.divider 1 else c.divider
      omitted := if k = .omitted then sat32 c.omitted 1 else c.omitted
      discarded := if k = .discarded then sat32 c.discarded 1 else c.discarded
      overrun := if k = .overrun then sat32 c.overrun 1 else c.overrun
      clipped := sat32 c.clipped (one r.front.clipped + one r.back.clipped)
      damaged := sat32 c.damaged (one r.front.damaged + one r.back.damaged)
      repaired := sat32 c.repaired (r.front.repaired + r.back.repaired) } := by
  cases k <;> rfl

/-- Stage 2 of a settlement, by its mark result. -/
theorem settle_eq (b : BatchContext) (r : SheetRecord) :
    let c := (({ b.counters with settled := sat32 b.counters.settled 1 } : Counters).countKind (kindOf b r)).countSides r
    (r.markResult = .noDivider → b.settle r = ({ b with counters := c } : BatchContext).numberSheet) ∧
    (∀ d, r.markResult = .divider d → b.settle r = ({ b with counters := c } : BatchContext).armFor d) ∧
    (r.markResult = .pending → b.settle r = { b with counters := c }) := by
  unfold BatchContext.settle
  dsimp only
  exact ⟨fun h => by rw [h], fun d h => by rw [h], fun h => by rw [h]⟩

theorem one_or_and (a b : Bool) : one (!a || (b && a)) = one (!a || b) := by cases a <;> cases b <;> rfl

/-- The counters after stage 2 of a settlement (R100, R101, 05 Table 5-8). -/
theorem settle_counters (b : BatchContext) (r : SheetRecord) : (b.settle r).counters = { b.counters with
      settled := sat32 b.counters.settled 1
      page := if kindOf b r = .page then sat32 b.counters.page 1 else b.counters.page
      divider := if kindOf b r = .divider then sat32 b.counters.divider 1 else b.counters.divider
      omitted := if kindOf b r = .omitted then sat32 b.counters.omitted 1 else b.counters.omitted
      discarded := if kindOf b r = .discarded then sat32 b.counters.discarded 1 else b.counters.discarded
      overrun := if kindOf b r = .overrun then sat32 b.counters.overrun 1 else b.counters.overrun
      documents := if r.markResult = .noDivider then sat32 b.counters.documents (one (!b.begun || b.newDoc)) else b.counters.documents
      folders := if r.markResult = .noDivider then sat32 b.counters.folders (one (!b.begun || b.newFolder)) else b.counters.folders
      clipped := sat32 b.counters.clipped (one r.front.clipped + one r.back.clipped)
      damaged := sat32 b.counters.damaged (one r.front.damaged + one r.back.damaged)
      repaired := sat32 b.counters.repaired (r.front.repaired + r.back.repaired) } := by
  obtain ⟨h1, h2, h3⟩ := settle_eq b r
  rw [countKind_countSides] at h1 h2 h3
  cases hm : r.markResult with
  | noDivider =>
    rw [h1 hm, if_pos rfl, if_pos rfl, ← one_or_and b.begun b.newDoc]
    rfl
  | divider d =>
    have hn : MarkResult.divider d ≠ .noDivider := nofun
    rw [h2 d hm, if_neg hn, if_neg hn]
    cases d <;> rfl
  | pending =>
    have hn : MarkResult.pending ≠ .noDivider := nofun
    rw [h3 hm, if_neg hn, if_neg hn]

/-- The numbers and flags after stage 2 of a settlement (R101, R102). -/
theorem settle_numbers (b : BatchContext) (r : SheetRecord) :
    (r.markResult = .noDivider → (b.settle r).begun = true ∧ (b.settle r).newDoc = false ∧ (b.settle r).newFolder = false ∧
      (b.settle r).omitNext = false ∧ (b.settle r).folder = (if b.newFolder then b.folder + 1 else b.folder) ∧
      (b.newDoc = true → b.begun = true → (b.settle r).document = b.document + 1 ∧ (b.settle r).sheetInDoc = 1) ∧
      (b.newDoc = false ∨ b.begun = false →
        (b.settle r).document = b.document ∧ (b.settle r).sheetInDoc = b.sheetInDoc + 1)) ∧
    (r.markResult = .divider .document → (b.settle r).newDoc = true ∧ (b.settle r).document = b.document) ∧
    (r.markResult = .divider .folder → (b.settle r).newFolder = true ∧ (b.settle r).newDoc = true) ∧
    (r.markResult = .divider .dropNext → (b.settle r).omitNext = true) := by
  obtain ⟨h1, h2, h3⟩ := settle_eq b r
  refine ⟨fun hm => ?_, fun hm => ?_, fun hm => ?_, fun hm => ?_⟩
  · rw [h1 hm]
    refine ⟨rfl, rfl, rfl, rfl, rfl, fun hd hb => ?_, fun h => ?_⟩
    · have e : (b.newDoc && b.begun) = true := by rw [hd, hb]; rfl
      exact ⟨if_pos e, by
        show (if (b.newDoc && b.begun) = true then 0 else b.sheetInDoc) + 1 = 1
        rw [if_pos e]
        rfl⟩
    · have e : ¬(b.newDoc && b.begun) = true := by rcases h with h | h <;> simp [h]
      exact ⟨if_neg e, by
        show (if (b.newDoc && b.begun) = true then 0 else b.sheetInDoc) + 1 = b.sheetInDoc + 1
        rw [if_neg e]⟩
  · rw [h2 _ hm]; exact ⟨rfl, rfl⟩
  · rw [h2 _ hm]; exact ⟨rfl, rfl⟩
  · rw [h2 _ hm]; rfl

/-! ### Fates -/

/-- The fate of a side of a settling record: none unless it is COMPLETE and the record is not OMITTED (R126). -/
def fateOf (p : Profile) (routes : List RouteEntry) (unused : LaneNo → Bool) (k : Kind) (r : SheetRecord) (st : Standing) (sd : Side) :
    Option Fate :=
  sideFate p routes unused (if k = .omitted then r.discardSides else r) st sd

theorem side_discardSides (r : SheetRecord) (sd : Side) : r.discardSides.side sd = (r.side sd).discarded := by
  cases sd <;> rfl

theorem discarded_not_complete (x : SideRecord) : x.discarded.capture ≠ .complete := by
  unfold SideRecord.discarded
  split
  · next h => rw [h]; exact nofun
  · exact nofun

section

variable {p : Profile} {routes : List RouteEntry} {unused : LaneNo → Bool} {k : Kind} {r : SheetRecord} {st : Standing} {sd : Side}

theorem fateOf_eq_some {f : Fate} : fateOf p routes unused k r st sd = some f ↔
    k ≠ .omitted ∧ (r.side sd).capture = .complete ∧ routeSide p routes unused r st sd = f := by
  unfold fateOf sideFate
  by_cases hk : k = .omitted
  · rw [if_pos hk, side_discardSides, if_neg (discarded_not_complete _)]
    exact ⟨nofun, fun h => absurd hk h.1⟩
  · rw [if_neg hk]
    by_cases hc : (r.side sd).capture = .complete
    · rw [if_pos hc, Option.some.injEq]
      exact ⟨fun h => ⟨hk, hc, h⟩, fun h => h.2.2⟩
    · rw [if_neg hc]
      exact ⟨nofun, fun h => absurd h.2.1 hc⟩

theorem isBlankDrop_iff {f : Option Fate} : Fate.isBlankDrop f = true ↔ f = some (.dropped true) := by
  cases f with
  | none => exact ⟨nofun, nofun⟩
  | some f =>
    cases f with
    | dropped b => exact ⟨fun h => by rw [show b = true from h], fun h => by cases h; rfl⟩
    | sent l m => exact ⟨nofun, nofun⟩

/-- A side is blank-dropped exactly when it is blank and its profile drops such sides. -/
theorem routeSide_blankDrop : routeSide p routes unused r st sd = .dropped true ↔
    ((r.side sd).blank == some true && p.blankDrop) = true := by
  unfold routeSide searchRoutes
  dsimp only
  split
  · next h => exact ⟨fun _ => h, fun _ => rfl⟩
  · next h =>
    refine ⟨fun k => absurd k ?_, fun k => absurd k h⟩
    split
    · exact nofun
    · split
      · exact nofun
      · split
        · exact nofun
        · split
          · exact nofun
          · split <;> exact nofun

/-- A side of REVIEW standing is dropped or goes to lane 0 (R126). -/
theorem routeSide_review {m : LaneNo} {miss : Bool} (h : routeSide p routes unused r .review sd = .sent m miss) : m = 0 := by
  unfold routeSide at h
  dsimp only at h
  split at h
  · cases h
  · split at h
    · cases h
    · rw [if_pos rfl] at h
      cases h
      rfl

theorem isBlankDrop_fateOf : Fate.isBlankDrop (fateOf p routes unused k r st sd) =
    (decide ((r.side sd).capture = .complete) && k != .omitted && (r.side sd).blank == some true && p.blankDrop) := by
  rw [Bool.eq_iff_iff, isBlankDrop_iff, fateOf_eq_some, routeSide_blankDrop]
  simp only [Bool.and_eq_true, decide_eq_true_eq, bne_iff_ne, beq_iff_eq]
  exact ⟨fun ⟨h1, h2, h3, h4⟩ => ⟨⟨⟨h2, h1⟩, h3⟩, h4⟩, fun ⟨⟨⟨h2, h1⟩, h3⟩, h4⟩ => ⟨h1, h2, h3, h4⟩⟩

end

end Sys2Proof.Machine

end

/-! PROOFS. The pieces of a settled record and what its sides return (06 section 6.6, 07 section 7.2), and O60. -/

section

namespace Sys2Proof.Machine

/-! ### Pieces -/

/-- The image that a COMPLETE side gives a piece (R128). -/
def imageOf (p : Profile) (width : Nat) (r : SheetRecord) (sd : Side) : PieceImage :=
  let y := r.side sd
  { side := sd, format := p.format sd, pages := y.pages, bytes := y.image, width, lines := y.lines, repaired := y.repaired,
    damaged := y.damaged, clipped := y.clipped, blank := y.blank == some true }

section

variable {p : Profile} {width : Nat} {r : SheetRecord} {sd : Side} {f g : Option Fate} {q : Piece}

theorem imagePiece_eq : imagePiece p width r sd f =
    match f with
    | some (.sent lane noRoute) => [{ lane, noRoute, image := some (imageOf p width r sd) }]
    | some (.dropped _) => []
    | none => [] := by
  cases f with
  | none => rfl
  | some f => cases f <;> rfl

/-- A piece of a side is of the lane its fate names. -/
theorem mem_imagePiece : q ∈ imagePiece p width r sd f ↔
    ∃ lane noRoute, f = some (.sent lane noRoute) ∧ q = { lane, noRoute, image := some (imageOf p width r sd) } := by
  cases f with
  | none => exact ⟨nofun, nofun⟩
  | some f =>
    cases f with
    | dropped b => exact ⟨nofun, nofun⟩
    | sent l m =>
      refine ⟨fun h => ⟨l, m, rfl, List.mem_singleton.mp h⟩, ?_⟩
      rintro ⟨l', m', h, rfl⟩
      cases h
      exact List.mem_singleton.mpr rfl

theorem imagePiece_eq_nil : imagePiece p width r sd f = [] ↔ ∀ lane noRoute, f ≠ some (.sent lane noRoute) := by
  cases f with
  | none => exact ⟨fun _ => nofun, fun _ => rfl⟩
  | some f =>
    cases f with
    | dropped b => exact ⟨fun _ => nofun, fun _ => rfl⟩
    | sent l m => exact ⟨nofun, fun h => absurd rfl (h l m)⟩

theorem countP_imagePiece : (imagePiece p width r sd f).countP (·.noRoute) = one (Fate.isMiss f) := by
  cases f with
  | none => rfl
  | some f =>
    cases f with
    | dropped b => rfl
    | sent l m => cases m <;> rfl

/-- What a side's piece holds and what the side returns are its pages together, each once. -/
theorem pages_imagePiece {omitted : Bool} (hf : f ≠ none → omitted = false) (he : f = none → omitted = false → (r.side sd).pages = []) :
    ((imagePiece p width r sd f).flatMap (fun q => if q.written then [] else q.image.elim [] (·.pages)) = (r.side sd).pages ∧
      (sideReturn omitted (r.side sd) f).1 = []) ∨
    ((imagePiece p width r sd f).flatMap (fun q => if q.written then [] else q.image.elim [] (·.pages)) = [] ∧
      (sideReturn omitted (r.side sd) f).1 = (r.side sd).pages) := by
  cases f with
  | none =>
    cases omitted with
    | true => exact .inr ⟨rfl, rfl⟩
    | false => exact .inr ⟨rfl, (he rfl rfl).symm⟩
  | some f =>
    cases f with
    | dropped b => exact .inr ⟨rfl, rfl⟩
    | sent l m => exact .inl ⟨List.append_nil _, rfl⟩

end

/-- The pieces of a settled record (R128). -/
def piecesOf (p : Profile) (width : Nat) (r : SheetRecord) (f g : Option Fate) (blank : Piece) : List Piece :=
  if imagePiece p width r .front f ++ imagePiece p width r .back g = [] then [blank]
  else imagePiece p width r .front f ++ imagePiece p width r .back g

section

variable {p : Profile} {width : Nat} {r : SheetRecord} {F : Side → Option Fate} {blank q : Piece}

/-- Either a side is sent, and each sent side has its piece, or the placeholder stands alone. -/
theorem piecesOf_cases : let l := piecesOf p width r (F .front) (F .back) blank
    (l = [blank] ∧ ∀ sd lane noRoute, F sd ≠ some (.sent lane noRoute)) ∨
    (l ≠ [] ∧ ∀ q, q ∈ l ↔ ∃ sd lane noRoute, F sd = some (.sent lane noRoute) ∧
      q = { lane, noRoute, image := some (imageOf p width r sd) }) := by
  intro l
  by_cases h : imagePiece p width r .front (F .front) ++ imagePiece p width r .back (F .back) = []
  · refine .inl ⟨if_pos h, fun sd => ?_⟩
    obtain ⟨h1, h2⟩ := List.append_eq_nil_iff.mp h
    cases sd with
    | front => exact imagePiece_eq_nil.mp h1
    | back => exact imagePiece_eq_nil.mp h2
  · have e : l = imagePiece p width r .front (F .front) ++ imagePiece p width r .back (F .back) := if_neg h
    rw [e]
    refine .inr ⟨h, fun q => ?_⟩
    rw [List.mem_append, mem_imagePiece, mem_imagePiece]
    constructor
    · rintro (⟨a, b, h1, h2⟩ | ⟨a, b, h1, h2⟩)
      · exact ⟨.front, a, b, h1, h2⟩
      · exact ⟨.back, a, b, h1, h2⟩
    · rintro ⟨sd, a, b, h1, h2⟩
      cases sd with
      | front => exact .inl ⟨a, b, h1, h2⟩
      | back => exact .inr ⟨a, b, h1, h2⟩

/-- Two pieces are FRONT and BACK in this order. -/
theorem piecesOf_pair {q₁ q₂ : Piece} (h : piecesOf p width r (F .front) (F .back) blank = [q₁, q₂]) :
    q₁.image = some (imageOf p width r .front) ∧ q₂.image = some (imageOf p width r .back) := by
  unfold piecesOf at h
  split at h
  · cases h
  · rw [imagePiece_eq, imagePiece_eq] at h
    split at h
    · split at h
      · cases h
        exact ⟨rfl, rfl⟩
      · cases h
      · cases h
    · split at h <;> cases h
    · split at h <;> cases h

theorem countP_piecesOf (hb : blank.noRoute = false) : (piecesOf p width r (F .front) (F .back) blank).countP (·.noRoute) =
    one (Fate.isMiss (F .front)) + one (Fate.isMiss (F .back)) := by
  have e := List.countP_append (p := (·.noRoute)) (l₁ := imagePiece p width r .front (F .front))
    (l₂ := imagePiece p width r .back (F .back))
  rw [countP_imagePiece, countP_imagePiece] at e
  unfold piecesOf
  split
  · next h =>
    rw [h] at e
    rw [← e, List.countP_singleton, hb]
    rfl
  · exact e

/-- The pages of the pieces and those returned are the record's pages, each once (R124). -/
theorem pages_piecesOf {omitted : Bool} (hb : blank.image = none) (hf : ∀ sd, F sd ≠ none → omitted = false)
    (he : ∀ sd, F sd = none → omitted = false → (r.side sd).pages = []) :
    ((piecesOf p width r (F .front) (F .back) blank).flatMap (fun q => if q.written then [] else q.image.elim [] (·.pages)) ++
      (sideReturn omitted r.front (F .front)).1 ++ (sideReturn omitted r.back (F .back)).1).Perm r.pages := by
  have e : (piecesOf p width r (F .front) (F .back) blank).flatMap (fun q => if q.written then [] else q.image.elim [] (·.pages)) =
      (imagePiece p width r .front (F .front)).flatMap (fun q => if q.written then [] else q.image.elim [] (·.pages)) ++
      (imagePiece p width r .back (F .back)).flatMap (fun q => if q.written then [] else q.image.elim [] (·.pages)) := by
    rw [← List.flatMap_append]
    unfold piecesOf
    split
    · next h =>
      rw [h, List.flatMap_singleton, hb]
      split <;> rfl
    · rfl
  rw [e]
  have k1 := pages_imagePiece (p := p) (width := width) (r := r) (sd := .front) (hf .front) (he .front)
  have k2 := pages_imagePiece (p := p) (width := width) (r := r) (sd := .back) (hf .back) (he .back)
  change (_ = r.front.pages ∧ (sideReturn omitted r.front (F .front)).1 = []) ∨
    (_ ∧ (sideReturn omitted r.front (F .front)).1 = r.front.pages) at k1
  change (_ = r.back.pages ∧ (sideReturn omitted r.back (F .back)).1 = []) ∨
    (_ ∧ (sideReturn omitted r.back (F .back)).1 = r.back.pages) at k2
  unfold SheetRecord.pages
  rcases k1 with ⟨a1, a2⟩ | ⟨a1, a2⟩ <;> rcases k2 with ⟨b1, b2⟩ | ⟨b1, b2⟩ <;> rw [a1, a2, b1, b2]
  · rw [List.append_nil, List.append_nil]
  · rw [List.append_nil, List.append_nil]
  · rw [List.nil_append, List.append_nil]
    exact List.perm_append_comm
  · rfl

end

/-! ### The settlement -/

/-- The element of a settled record. -/
def settledElement (x : Transport) (unused : LaneNo → Bool) (r : SheetRecord) : Element :=
  let F := fateOf (x.profileOf r.selector) (x.batch.snapshot.elim [] (·.routes)) unused (kindOf x.batch r) r (standingOf r)
  elementOf (x.batch.settle r) r (standingOf r) (kindOf x.batch r) (piecesOf (x.profileOf r.selector) x.cfg.width r (F .front) (F .back)
    (placeholder (standingOf r) (x.batch.ticket.elim 0 (·.accountLane))
      (decide (0 < one (Fate.isBlankDrop (F .front)) + one (Fate.isBlankDrop (F .back))))))

theorem imagePiece_discarded {p : Profile} {width : Nat} {routes : List RouteEntry} {unused : LaneNo → Bool} {k : Kind} {r : SheetRecord}
    {st : Standing} (sd : Side) :
    imagePiece p width (if k = .omitted then r.discardSides else r) sd (fateOf p routes unused k r st sd) =
      imagePiece p width r sd (fateOf p routes unused k r st sd) := by
  by_cases hk : k = .omitted
  · have e : fateOf p routes unused k r st sd = none :=
      Option.eq_none_iff_forall_not_mem.mpr fun f hf => (fateOf_eq_some.mp hf).1 hk
    rw [e]
    rfl
  · rw [if_neg hk]

/-- The fates of a settling record's sides. -/
def fatesOf (x : Transport) (unused : LaneNo → Bool) (r : SheetRecord) : Side → Option Fate :=
  fateOf (x.profileOf r.selector) (x.batch.snapshot.elim [] (·.routes)) unused (kindOf x.batch r) r (standingOf r)

/-- The Batch Context after a settlement. -/
def settledBatch (x : Transport) (unused : LaneNo → Bool) (r : SheetRecord) : BatchContext :=
  let F := fatesOf x unused r
  let c := (x.batch.settle r).counters
  { x.batch.settle r with counters := { c with
      passedFlagged := sat32 c.passedFlagged (one (standingOf r == .flagged))
      blankDropped := sat32 c.blankDropped (one (Fate.isBlankDrop (F .front)) + one (Fate.isBlankDrop (F .back)))
      routeMisses := sat32 c.routeMisses (one (Fate.isMiss (F .front)) + one (Fate.isMiss (F .back))) } }

/-- A settlement in one piece (R64). -/
theorem settleRecord_eq (x : Transport) (unused : LaneNo → Bool) (r : SheetRecord) : x.settleRecord unused r =
    { transport := { x with track := x.track.tail, batch := settledBatch x unused r, queue := x.queue ++ [settledElement x unused r] }
      front := sideReturn (kindOf x.batch r == .omitted) r.front (fatesOf x unused r .front)
      back := sideReturn (kindOf x.batch r == .omitted) r.back (fatesOf x unused r .back) } := by
  have e : settledElement x unused r = elementOf (settledBatch x unused r) r (standingOf r) (kindOf x.batch r)
      (let F := fatesOf x unused r
       let r1 := if kindOf x.batch r = .omitted then r.discardSides else r
       let l := imagePiece (x.profileOf r.selector) x.cfg.width r1 .front (F .front) ++
         imagePiece (x.profileOf r.selector) x.cfg.width r1 .back (F .back)
       if l = [] then [placeholder (standingOf r) (x.batch.ticket.elim 0 (·.accountLane))
         (decide (0 < one (Fate.isBlankDrop (F .front)) + one (Fate.isBlankDrop (F .back))))] else l) := by
    unfold fatesOf
    dsimp only
    rw [imagePiece_discarded, imagePiece_discarded]
    rfl
  rw [e]
  rfl

/-- The counters after a settlement (05 Table 5-8). -/
theorem settledBatch_counters (x : Transport) (unused : LaneNo → Bool) (r : SheetRecord) :
    let c := x.batch.counters
    let F := fatesOf x unused r
    let k := kindOf x.batch r
    (settledBatch x unused r).counters = { c with
      settled := sat32 c.settled 1
      page := if k = .page then sat32 c.page 1 else c.page
      divider := if k = .divider then sat32 c.divider 1 else c.divider
      omitted := if k = .omitted then sat32 c.omitted 1 else c.omitted
      discarded := if k = .discarded then sat32 c.discarded 1 else c.discarded
      overrun := if k = .overrun then sat32 c.overrun 1 else c.overrun
      documents := if r.markResult = .noDivider then sat32 c.documents (one (!x.batch.begun || x.batch.newDoc)) else c.documents
      folders := if r.markResult = .noDivider then sat32 c.folders (one (!x.batch.begun || x.batch.newFolder)) else c.folders
      passedFlagged := sat32 c.passedFlagged (one (standingOf r == .flagged))
      blankDropped := sat32 c.blankDropped (one (Fate.isBlankDrop (F .front)) + one (Fate.isBlankDrop (F .back)))
      clipped := sat32 c.clipped (one r.front.clipped + one r.back.clipped)
      damaged := sat32 c.damaged (one r.front.damaged + one r.back.damaged)
      repaired := sat32 c.repaired (r.front.repaired + r.back.repaired)
      routeMisses := sat32 c.routeMisses (one (Fate.isMiss (F .front)) + one (Fate.isMiss (F .back))) } := by
  intro c F k
  have h := settle_counters x.batch r
  unfold settledBatch
  dsimp only
  rw [h]

end Sys2Proof.Machine

end

/-! PROOFS. Settlement: when a head settles, and what its settlement comes to (O60). -/

section

namespace Sys2Proof.Machine

section

variable {x : Transport} {unused : LaneNo → Bool} {r : SheetRecord}

/-- The placeholder of a settled record without an image piece. -/
def settledBlank (x : Transport) (unused : LaneNo → Bool) (r : SheetRecord) : Piece :=
  placeholder (standingOf r) (x.batch.ticket.elim 0 (·.accountLane))
    (decide (0 < one (Fate.isBlankDrop (fatesOf x unused r .front)) + one (Fate.isBlankDrop (fatesOf x unused r .back))))

theorem settledElement_pieces : (settledElement x unused r).pieces = piecesOf (x.profileOf r.selector) x.cfg.width r
    (fatesOf x unused r .front) (fatesOf x unused r .back) (settledBlank x unused r) := rfl

/-- Either the placeholder stands alone, or the pieces are those of the sides sent. -/
theorem settledElement_cases (x : Transport) (unused : LaneNo → Bool) (r : SheetRecord) :
    ((settledElement x unused r).pieces = [settledBlank x unused r] ∧
      ∀ sd lane noRoute, fatesOf x unused r sd ≠ some (.sent lane noRoute)) ∨
    ((settledElement x unused r).pieces ≠ [] ∧ ∀ q, q ∈ (settledElement x unused r).pieces ↔
      ∃ sd lane noRoute, fatesOf x unused r sd = some (.sent lane noRoute) ∧
        q = { lane, noRoute, image := some (imageOf (x.profileOf r.selector) x.cfg.width r sd) }) :=
  piecesOf_cases (F := fatesOf x unused r)

theorem fatesOf_eq_some {sd : Side} {f : Fate} : fatesOf x unused r sd = some f ↔ kindOf x.batch r ≠ .omitted ∧
    (r.side sd).capture = .complete ∧
    routeSide (x.profileOf r.selector) (x.batch.snapshot.elim [] (·.routes)) unused r (standingOf r) sd = f := fateOf_eq_some

theorem pieces_review (h : standingOf r = .review) : ∀ q ∈ (settledElement x unused r).pieces, q.lane = 0 := by
  intro q hq
  rcases settledElement_cases x unused r with ⟨e, -⟩ | ⟨-, e⟩
  · rw [e] at hq
    rw [List.mem_singleton.mp hq]
    exact if_pos h
  · obtain ⟨sd, lane, miss, hf, rfl⟩ := (e q).mp hq
    obtain ⟨-, -, hr⟩ := fatesOf_eq_some.mp hf
    rw [h] at hr
    exact routeSide_review hr

theorem pieces_complete {sd : Side} (hc : (r.side sd).capture = .complete) (hk : kindOf x.batch r ≠ .omitted) :
    (∀ m miss, routeSide (x.profileOf r.selector) (x.batch.snapshot.elim [] (·.routes)) unused r (standingOf r) sd = .sent m miss →
      ∃ q ∈ (settledElement x unused r).pieces, q.lane = m ∧ q.noRoute = miss ∧ ∃ i, q.image = some i ∧ i.side = sd) ∧
    ∀ k, routeSide (x.profileOf r.selector) (x.batch.snapshot.elim [] (·.routes)) unused r (standingOf r) sd = .dropped k →
      ∀ q ∈ (settledElement x unused r).pieces, ∀ i, q.image = some i → i.side ≠ sd := by
  have hF := fun f => (fatesOf_eq_some (x := x) (unused := unused) (r := r) (sd := sd) (f := f))
  refine ⟨fun m miss hm => ?_, fun k hk' q hq i hi => ?_⟩
  · have hs := (hF (.sent m miss)).mpr ⟨hk, hc, hm⟩
    rcases settledElement_cases x unused r with ⟨-, e⟩ | ⟨-, e⟩
    · exact absurd hs (e sd m miss)
    · exact ⟨_, (e _).mpr ⟨sd, m, miss, hs, rfl⟩, rfl, rfl, _, rfl, rfl⟩
  · rcases settledElement_cases x unused r with ⟨e, -⟩ | ⟨-, e⟩
    · rw [e] at hq
      rw [List.mem_singleton.mp hq] at hi
      cases hi
    · obtain ⟨sd', lane, miss, hf, rfl⟩ := (e q).mp hq
      cases hi
      rintro rfl
      cases hf.symm.trans ((hF (.dropped k)).mpr ⟨hk, hc, hk'⟩)

theorem pieces_omitted (h : kindOf x.batch r = .omitted) :
    (settledElement x unused r).pieces = [settledBlank x unused r] := by
  rcases settledElement_cases x unused r with ⟨e, -⟩ | ⟨hne, e⟩
  · exact e
  · obtain ⟨q, hq⟩ := List.exists_mem_of_ne_nil _ hne
    obtain ⟨sd, lane, miss, hf, -⟩ := (e q).mp hq
    exact absurd h (fatesOf_eq_some.mp hf).1

theorem pieces_ne_nil : (settledElement x unused r).pieces ≠ [] := by
  rcases settledElement_cases x unused r with ⟨e, -⟩ | ⟨hne, -⟩
  · rw [e]
    exact nofun
  · exact hne

theorem zero_lt_one_add (a b : Bool) : 0 < one a + one b ↔ a = true ∨ b = true := by cases a <;> cases b <;> decide

theorem settledBlank_blankDropped : (settledBlank x unused r).blankDropped = true ↔ kindOf x.batch r ≠ .omitted ∧
    ∃ sd, (r.side sd).capture = .complete ∧
      routeSide (x.profileOf r.selector) (x.batch.snapshot.elim [] (·.routes)) unused r (standingOf r) sd = .dropped true := by
  show decide _ = true ↔ _
  rw [decide_eq_true_eq, zero_lt_one_add, isBlankDrop_iff, isBlankDrop_iff, fatesOf_eq_some, fatesOf_eq_some]
  constructor
  · rintro (⟨h1, h2⟩ | ⟨h1, h2⟩)
    · exact ⟨h1, .front, h2⟩
    · exact ⟨h1, .back, h2⟩
  · rintro ⟨h1, sd, h2⟩
    cases sd with
    | front => exact .inl ⟨h1, h2⟩
    | back => exact .inr ⟨h1, h2⟩

theorem pieces_blank {q : Piece} (hq : q ∈ (settledElement x unused r).pieces) (hi : q.image = none) :
    (settledElement x unused r).pieces = [q] ∧ q = settledBlank x unused r := by
  rcases settledElement_cases x unused r with ⟨e, -⟩ | ⟨-, e⟩
  · rw [e] at hq ⊢
    obtain rfl := List.mem_singleton.mp hq
    exact ⟨rfl, rfl⟩
  · obtain ⟨sd, lane, miss, -, rfl⟩ := (e q).mp hq
    cases hi

theorem pieces_image {q : Piece} {i : PieceImage} (hq : q ∈ (settledElement x unused r).pieces) (hi : q.image = some i) :
    (r.side i.side).capture = .complete ∧ i = imageOf (x.profileOf r.selector) x.cfg.width r i.side := by
  rcases settledElement_cases x unused r with ⟨e, -⟩ | ⟨-, e⟩
  · rw [e] at hq
    rw [List.mem_singleton.mp hq] at hi
    cases hi
  · obtain ⟨sd, lane, miss, hf, rfl⟩ := (e q).mp hq
    cases hi
    exact ⟨(fatesOf_eq_some.mp hf).2.1, rfl⟩

theorem pieces_pair {p q : Piece} (h : (settledElement x unused r).pieces = [p, q]) :
    (∃ i, p.image = some i ∧ i.side = .front) ∧ ∃ i, q.image = some i ∧ i.side = .back := by
  rw [settledElement_pieces] at h
  obtain ⟨h1, h2⟩ := piecesOf_pair h
  exact ⟨⟨_, h1, rfl⟩, _, h2, rfl⟩

/-- The pages of a settled record are those of its pieces and those returned (R124). -/
theorem settled_pages (hf : r.front.settled = true) (hb : r.back.settled = true) (ef : r.front.empty) (eb : r.back.empty) :
    ((settledElement x unused r).pages ++ (sideReturn (kindOf x.batch r == .omitted) r.front (fatesOf x unused r .front)).1 ++
      (sideReturn (kindOf x.batch r == .omitted) r.back (fatesOf x unused r .back)).1).Perm r.pages := by
  refine pages_piecesOf (F := fatesOf x unused r) (blank := settledBlank x unused r) rfl (fun sd h => ?_) fun sd h ho => ?_
  · obtain ⟨f, hf⟩ := Option.ne_none_iff_exists'.mp h
    exact beq_eq_false_iff_ne.mpr (fatesOf_eq_some.mp hf).1
  · have hn : (r.side sd).capture ≠ .complete := fun hc => by
      cases h.symm.trans (fatesOf_eq_some.mpr ⟨beq_eq_false_iff_ne.mp ho, hc, rfl⟩)
    have hs : (r.side sd).settled = true ∧ (r.side sd).empty := by cases sd; exacts [⟨hf, ef⟩, ⟨hb, eb⟩]
    obtain ⟨hw, hc⟩ := (SideRecord.settled_iff _).mp hs.1
    refine hs.2 ?_
    cases hcap : (r.side sd).capture with
    | waiting => exact absurd hcap hw
    | capturing => exact absurd hcap hc
    | complete => exact absurd hcap hn
    | discarded => exact .inr rfl
    | notTaken => exact .inl rfl

theorem settled_reserve (h : kindOf x.batch r = .omitted) :
    (sideReturn (kindOf x.batch r == .omitted) r.front (fatesOf x unused r .front)).2 +
      (sideReturn (kindOf x.batch r == .omitted) r.back (fatesOf x unused r .back)).2 = r.reserve := by
  have hn : ∀ sd, fatesOf x unused r sd = none := fun sd =>
    Option.eq_none_iff_forall_not_mem.mpr fun f hf => (fatesOf_eq_some.mp hf).1 h
  rw [hn, hn, h]
  rfl

end

/-! ### When a head settles -/

namespace State

variable {s : State} {t : TransportNo}

theorem settleTransport_of_empty (h : (s.tr t).track = []) (n : Nat) : s.settleTransport t n = s := by
  cases n with
  | zero => rfl
  | succ n =>
    unfold settleTransport
    rw [h]

theorem settleTransport_of_head {r : SheetRecord} {rest : List SheetRecord} (h : (s.tr t).track = r :: rest) :
    ((s.tr t).canSettle r ≠ true → ∀ n, s.settleTransport t n = s) ∧
    ((s.tr t).canSettle r = true → ∀ n, s.settleTransport t (n + 1) = (s.settleHead t r).settleTransport t n) := by
  refine ⟨fun hc n => ?_, fun hc n => ?_⟩
  · cases n with
    | zero => rfl
    | succ n =>
      unfold settleTransport
      rw [h]
      exact if_neg hc
  · show settleTransport s t (n + 1) = _
    rw [settleTransport, h]
    exact if_pos hc

/-- Settlement is tested on the transports in the order of their numbers (log 38). -/
theorem settleAll_eq (s : State) : let all := fun (t : TransportNo) (u : State) => u.settleTransport t (u.tr t).track.length
    s.settleAll = all 3 (all 2 (all 1 (all 0 s))) :=
  foldl_allTransports (fun s t => s.settleTransport t (s.tr t).track.length) s

/-- A head settled: its transport, then what its sides return (R64). -/
theorem settleHead_eq (s : State) (t : TransportNo) (r : SheetRecord) : let x := s.tr t
    let unused : LaneNo → Bool := fun n => (s.lane n).state == .unused
    let f := sideReturn (kindOf x.batch r == .omitted) r.front (fatesOf x unused r .front)
    let b := sideReturn (kindOf x.batch r == .omitted) r.back (fatesOf x unused r .back)
    s.settleHead t r = ((s.setTr t { x with
      track := x.track.tail, batch := settledBatch x unused r, queue := x.queue ++ [settledElement x unused r] }).returnPages
        f.1 f.2).returnPages b.1 b.2 := by
  intro x unused f b
  unfold settleHead
  rw [settleRecord_eq]

end State

/-- Settles O60. -/
theorem settlement : Obligations.Settlement := by
  refine ⟨fun s t => ?_, State.settleAll_eq, fun s t r rest htrack hf hb ef eb => ?_⟩
  · intro x due
    refine ⟨fun h n => State.settleTransport_of_empty h n, fun r rest h => ?_⟩
    have hdue : x.canSettle r = true ↔ due r := Transport.canSettle_iff x r
    obtain ⟨h1, h2⟩ := State.settleTransport_of_head h
    exact ⟨fun hd => h1 (mt hdue.mp hd), fun hd => h2 (hdue.mpr hd)⟩
  · intro x fate
    have heq := s.settleHead_eq t r
    have hcounters := settledBatch_counters x (fun n => (s.lane n).state == .unused) r
    have hreview := pieces_review (x := x) (unused := fun n => (s.lane n).state == .unused) (r := r)
    have hcomplete := fun sd => pieces_complete (x := x) (unused := fun n => (s.lane n).state == .unused) (r := r) (sd := sd)
    have homitted := pieces_omitted (x := x) (unused := fun n => (s.lane n).state == .unused) (r := r)
    have hpair := fun p q => pieces_pair (x := x) (unused := fun n => (s.lane n).state == .unused) (r := r) (p := p) (q := q)
    have hblank := fun q => pieces_blank (x := x) (unused := fun n => (s.lane n).state == .unused) (r := r) (q := q)
    have hdrop := settledBlank_blankDropped (x := x) (unused := fun n => (s.lane n).state == .unused) (r := r)
    have himage := fun q i => pieces_image (x := x) (unused := fun n => (s.lane n).state == .unused) (r := r) (q := q) (i := i)
    have hpages := settled_pages (x := x) (unused := fun n => (s.lane n).state == .unused) hf hb ef eb
    have hreserve := settled_reserve (x := x) (unused := fun n => (s.lane n).state == .unused) (r := r)
    have hfate : ∀ sd, Fate.isBlankDrop (fatesOf x (fun n => (s.lane n).state == .unused) r sd) = _ := fun sd => isBlankDrop_fateOf (p := x.profileOf r.selector) (routes := x.batch.snapshot.elim [] (·.routes))
      (unused := fun n => (s.lane n).state == .unused) (k := kindOf x.batch r) (r := r) (st := standingOf r) (sd := sd)
    have hmiss : (settledElement x (fun n => (s.lane n).state == .unused) r).pieces.countP (·.noRoute) = _ :=
      countP_piecesOf (F := fatesOf x (fun n => (s.lane n).state == .unused) r)
      (blank := settledBlank x (fun n => (s.lane n).state == .unused) r) rfl
    obtain ⟨n1, n2, n3, n4⟩ := settle_numbers x.batch r
    obtain ⟨k1, k2, k3, k4⟩ := kindOf_spec x.batch r
    obtain ⟨c1, c2, c3⟩ := standingOf_cases r
    have hticket := (x.batch.settle_kept r).2.2.1
    have hnone := pieces_ne_nil (x := x) (unused := fun n => (s.lane n).state == .unused) (r := r)
    refine ⟨_, _, _, settledElement x (fun n => (s.lane n).state == .unused) r, heq, ?_, rfl, rfl, rfl, rfl, ?_, n1, n2, n3, n4, hpages,
      hreserve, rfl, rfl, rfl, rfl, rfl, rfl, rfl, fun n hn => ?_, fun k hk => ?_, k1, k2, k3, k4, standingOf_review,
      fun d1 d2 d3 => standingOf_sound d1 d2 d3, c1, c2, c3, hreview, fun sd hc hk => hcomplete sd hc hk,
      fun hk => ⟨_, homitted hk, rfl⟩, hpair, hnone, fun q hq hi => ?_, fun q hq i hi => ?_⟩
    · show x.track.tail = rest
      rw [show x.track = r :: rest from htrack]
      rfl
    · intro c d up yes kind dropped
      dsimp only at hcounters
      rw [hfate, hfate, ← hmiss] at hcounters
      exact hcounters
    · show r.sheet.getD 0 = n
      rw [hn]
      rfl
    · show (x.batch.settle r).ticket.elim 0 (·.batchId) = k.batchId
      rw [hticket, hk]
      rfl
    · obtain ⟨h1, h2⟩ := hblank q hq hi
      subst h2
      exact ⟨h1, rfl, rfl, hdrop⟩
    · obtain ⟨h1, h2⟩ := himage q i hq hi
      refine ⟨h1, ?_⟩
      generalize i.side = sd at h2
      subst h2
      exact ⟨rfl, rfl, rfl, rfl, rfl, rfl, rfl, rfl, beq_iff_eq⟩

end Sys2Proof.Machine

end


/-! PROOFS. Line forms, ink and the blank test (R114 to R118). -/

section

namespace Sys2Proof.Machine

/-! ### The run form -/

/-- The run form of written values: the first as a literal, then the rest after it. -/
def runOf : List Byte → List Byte
  | [] => []
  | x :: rest => x :: runForm x 0 rest

theorem runLine_eq (greys : List Nat) : runLine greys = runOf (greys.map fun g => BitVec.ofNat 8 (max 1 g)) := by
  unfold runLine runOf
  cases greys <;> rfl

/-- n values after an equal literal: full codes of 255, then a code for 3 or more and literals for 1 or 2 (R116). -/
theorem runCodes_eq (v : Byte) {fuel n : Nat} (h : n ≤ fuel) : runCodes v fuel n = (List.replicate (n / 255) [0, 255]).flatten ++
    if 3 ≤ n % 255 then [0, BitVec.ofNat 8 (n % 255)] else List.replicate (n % 255) v := by
  induction fuel generalizing n with
  | zero =>
    obtain rfl : n = 0 := by omega
    rfl
  | succ fuel ih =>
    unfold runCodes
    by_cases h3 : 3 ≤ n
    · rw [if_pos h3, ih (by omega)]
      by_cases h255 : 255 ≤ n
      · obtain ⟨m, rfl⟩ : ∃ m, n = m + 255 := ⟨n - 255, by omega⟩
        have hd : (m + 255) / 255 = m / 255 + 1 := by omega
        rw [Nat.min_eq_right h255, Nat.add_sub_cancel, hd, Nat.add_mod_right, List.replicate_succ]
        rfl
      · have hd : n / 255 = 0 := Nat.div_eq_of_lt (by omega)
        rw [Nat.min_eq_left (by omega), Nat.sub_self, hd, Nat.mod_eq_of_lt (by omega : n < 255), if_pos h3]
        rfl
    · rw [if_neg h3, Nat.div_eq_of_lt (by omega), Nat.mod_eq_of_lt (by omega : n < 255), if_neg h3]
      rfl

/-- Values equal to the literal before them are held back. -/
theorem runForm_same {v : Byte} {same rest : List Byte} (h : ∀ x ∈ same, x = v) (n : Nat) :
    runForm v n (same ++ rest) = runForm v (n + same.length) rest := by
  induction same generalizing n with
  | nil => rfl
  | cons x same ih =>
    rw [List.cons_append, runForm, if_pos (h x (List.mem_cons_self ..)), ih fun y hy => h y (List.mem_cons_of_mem _ hy)]
    congr 1
    simp only [List.length_cons]; omega

/-- Another value, or the end, lets the values held back be written. -/
theorem runForm_other {v : Byte} {rest : List Byte} (h : ∀ x more, rest = x :: more → x ≠ v) (n : Nat) :
    runForm v n rest = runCodes v n n ++ runOf rest := by
  cases rest with
  | nil => exact (List.append_nil _).symm
  | cons x rest => rw [runForm, if_neg (h x rest rfl)]; rfl

theorem expandRuns_literal {x : Byte} (h : x ≠ 0) (v : Byte) (rest : List Byte) :
    expandRuns v (x :: rest) = x :: expandRuns x rest := by
  cases rest with
  | nil => rfl
  | cons n rest => rw [expandRuns, if_neg h]

theorem expandRuns_code (v n : Byte) (rest : List Byte) :
    expandRuns v (0 :: n :: rest) = List.replicate n.toNat v ++ expandRuns v rest := by
  rw [expandRuns, if_pos rfl]

theorem expandRuns_replicate {v : Byte} (h : v ≠ 0) (n : Nat) (rest : List Byte) :
    expandRuns v (List.replicate n v ++ rest) = List.replicate n v ++ expandRuns v rest := by
  induction n with
  | zero => rfl
  | succ n ih => rw [List.replicate_succ, List.cons_append, expandRuns_literal h, ih]; rfl

theorem expandRuns_runCodes {v : Byte} (hv : v ≠ 0) (rest : List Byte) {fuel n : Nat} (h : n ≤ fuel) :
    expandRuns v (runCodes v fuel n ++ rest) = List.replicate n v ++ expandRuns v rest := by
  induction fuel generalizing n with
  | zero =>
    obtain rfl : n = 0 := by omega
    rfl
  | succ fuel ih =>
    unfold runCodes
    split
    · have hn : (BitVec.ofNat 8 (min n 255)).toNat = min n 255 := BitVec.toNat_ofNat .. |>.trans (Nat.mod_eq_of_lt (by omega))
      rw [List.cons_append, List.cons_append, expandRuns_code, ih (by omega), hn, ← List.append_assoc, List.replicate_append_replicate,
        Nat.add_sub_cancel' (Nat.min_le_left ..)]
    · exact expandRuns_replicate hv ..

theorem length_runCodes (v : Byte) {fuel n : Nat} (h : n ≤ fuel) : (runCodes v fuel n).length ≤ n := by
  induction fuel generalizing n with
  | zero => exact Nat.zero_le _
  | succ fuel ih =>
    unfold runCodes
    split
    · have := ih (n := n - min n 255) (by omega)
      simp only [List.length_cons]; omega
    · rw [List.length_replicate]

/-- The run form loses nothing (R116). -/
theorem expandRuns_runForm {v : Byte} {rest : List Byte} (hv : v ≠ 0) (h : ∀ x ∈ rest, x ≠ 0) (n : Nat) :
    expandRuns v (runForm v n rest) = List.replicate n v ++ rest := by
  induction rest generalizing v n with
  | nil =>
    have := expandRuns_runCodes hv [] (Nat.le_refl n)
    rwa [List.append_nil] at this
  | cons x rest ih =>
    have hrest : ∀ y ∈ rest, y ≠ 0 := fun y hy => h y (List.mem_cons_of_mem _ hy)
    unfold runForm
    split
    · next e => rw [ih hv hrest, List.replicate_succ', e, List.append_assoc]; rfl
    · have hx := h x (List.mem_cons_self ..)
      rw [expandRuns_runCodes hv _ (Nat.le_refl n), expandRuns_literal hx, ih hx hrest]
      rfl

theorem length_runForm (v : Byte) (n : Nat) (rest : List Byte) : (runForm v n rest).length ≤ n + rest.length := by
  induction rest generalizing v n with
  | nil => exact length_runCodes v (Nat.le_refl n)
  | cons x rest ih =>
    unfold runForm
    split
    · have := ih v (n + 1)
      simp only [List.length_cons]; omega
    · have := ih x 0
      have := length_runCodes v (Nat.le_refl n)
      simp only [List.length_append, List.length_cons]; omega

theorem length_runOf (l : List Byte) : (runOf l).length ≤ l.length := by
  cases l with
  | nil => exact Nat.le_refl _
  | cons x rest =>
    have := length_runForm x 0 rest
    simp only [runOf, List.length_cons]; omega

theorem expandRuns_runOf {l : List Byte} (h : ∀ x ∈ l, x ≠ 0) (v : Byte) : expandRuns v (runOf l) = l := by
  cases l with
  | nil => rfl
  | cons x rest =>
    have hx := h x (List.mem_cons_self ..)
    rw [runOf, expandRuns_literal hx, expandRuns_runForm hx fun y hy => h y (List.mem_cons_of_mem _ hy)]
    rfl

/-- Two grey values are written as one byte exactly when they are equal, 0 taken as 1. -/
theorem written_eq_iff {g k : Nat} (hg : g ≤ 255) (hk : k ≤ 255) :
    BitVec.ofNat 8 (max 1 g) = BitVec.ofNat 8 (max 1 k) ↔ max 1 g = max 1 k := by
  constructor
  · intro h
    have := congrArg BitVec.toNat h
    simp only [BitVec.toNat_ofNat] at this
    omega
  · exact fun h => by rw [h]

theorem written_ne_zero {g : Nat} (hg : g ≤ 255) : BitVec.ofNat 8 (max 1 g) ≠ 0 := by
  intro h
  have := congrArg BitVec.toNat h
  rw [BitVec.toNat_ofNat, Nat.mod_eq_of_lt (by omega)] at this
  exact absurd this (by change max 1 g ≠ 0; omega)

theorem runLine_literal_then_run {g : Nat} {same rest : List Nat} (hr : ∀ h ∈ g :: (same ++ rest), h ≤ 255)
    (hs : ∀ h ∈ same, max 1 h = max 1 g) (ho : ∀ h more, rest = h :: more → max 1 h ≠ max 1 g) :
    runLine (g :: (same ++ rest)) = [BitVec.ofNat 8 (max 1 g)] ++ (List.replicate (same.length / 255) [0, 255]).flatten ++
      (if 3 ≤ same.length % 255 then [0, BitVec.ofNat 8 (same.length % 255)]
        else List.replicate (same.length % 255) (BitVec.ofNat 8 (max 1 g))) ++ runLine rest := by
  have hs' : ∀ x ∈ same.map (fun g => BitVec.ofNat 8 (max 1 g)), x = BitVec.ofNat 8 (max 1 g) := by
    intro x hx
    obtain ⟨h, hh, rfl⟩ := List.mem_map.mp hx
    rw [hs h hh]
  have ho' : ∀ x more, rest.map (fun g => BitVec.ofNat 8 (max 1 g)) = x :: more → x ≠ BitVec.ofNat 8 (max 1 g) := by
    intro x more e
    obtain ⟨h, l, rfl, rfl, -⟩ := List.map_eq_cons_iff.mp e
    have hh : h ≤ 255 := hr h (by simp)
    exact fun e => ho h l rfl ((written_eq_iff hh (hr g (List.mem_cons_self ..))).mp e)
  rw [runLine_eq, runLine_eq, List.map_cons, List.map_append, runOf, runForm_same hs', runForm_other ho',
    List.length_map, Nat.zero_add, runCodes_eq _ (Nat.le_refl _)]
  simp only [List.append_assoc, List.cons_append, List.nil_append]

/-! ### The line stored -/

/-- What a line's place takes of the side does not depend on the side's ink. -/
theorem State.storeLine_ink (s : State) (x : SideRecord) (line : List Byte) (ink : Nat) :
    s.storeLine { x with ink := ink } line = ((s.storeLine x line).1, { (s.storeLine x line).2 with ink := ink }) := by
  unfold State.storeLine
  split
  · rfl
  · split
    · rfl
    · split
      · rfl
      · split
        · rfl
        · split <;> rfl

theorem countInk_side (p : Profile) (ink : Nat) (x : SideRecord) (l : List Nat) :
    (countInk p ink x l).1 = { x with ink := (countInk p ink x l).1.ink } := by
  unfold countInk
  dsimp only
  split
  · rfl
  · split <;> rfl

theorem Transport.track_setUnit (x : Transport) (sd : Side) (u : CaptureUnit) : (x.setUnit sd u).track = x.track := by
  cases sd <;> rfl

theorem Transport.exists_modRecord {x : Transport} {r : SheetRecord} (h : r ∈ x.track) (f : SheetRecord → SheetRecord)
    (hid : ∀ q, (f q).id = q.id) : ∃ q ∈ (x.modRecord r.id f).track, q.id = r.id ∧ ∃ o ∈ x.track, o.id = r.id ∧ q = f o :=
  ⟨f r, List.mem_map.mpr ⟨r, h, if_pos rfl⟩, hid r, r, h, rfl, rfl⟩

/-- A line taken is stored in the format of its side's profile, and what its place needs is taken (R112, R115, R120). -/
theorem State.takeLine_stores (s : State) {t : TransportNo} {sd : Side} {r : SheetRecord} (pixels : List Pixel) (isRepair : Bool)
    (h : (s.tr t).capturedRecord sd = some r) :
    let x := s.tr t
    let z := s.storeLine (r.side sd) (storedLine ((x.profileOf r.selector).format sd) x.cfg pixels)
    let v := s.takeLine t sd pixels isRepair
    v.hold = z.1.hold ∧ v.room = z.1.room ∧ ∃ q ∈ (v.tr t).track, q.id = r.id ∧ (q.side sd).image = z.2.image ∧
      (q.side sd).pages = z.2.pages ∧ (q.side sd).clipped = z.2.clipped ∧ (q.side sd).reserve = z.2.reserve := by
  intro x z v
  obtain ⟨hr, -, -⟩ := Transport.capturedRecord_some h
  have hst := State.stores_storeLine s (r.side sd) (storedLine ((x.profileOf r.selector).format sd) x.cfg pixels)
  have htr : z.1.tr t = x := (congrArg (fun l : Vector Transport 4 => l[t]) hst.transports :)
  have hside := countInk_side (x.profileOf r.selector) (lineInk (x.profileOf r.selector) x.cfg pixels) (r.side sd)
    (x.unit sd).inkHistory
  have hv : v = s.takeLine t sd pixels isRepair := rfl
  unfold State.takeLine at hv
  rw [h] at hv
  dsimp only at hv
  rw [hside, State.storeLine_ink] at hv
  refine ⟨by rw [hv]; rfl, by rw [hv]; rfl, ?_⟩
  have hr' : r ∈ (z.1.tr t).track := htr ▸ hr
  rw [hv, State.tr_modTr_self, Transport.track_setUnit]
  obtain ⟨q, hq, hid, o, -, -, rfl⟩ := Transport.exists_modRecord hr' (·.setSide sd
    { z.2 with
      ink := (countInk (x.profileOf r.selector) (lineInk (x.profileOf r.selector) x.cfg pixels) (r.side sd)
        (x.unit sd).inkHistory).1.ink
      lines := z.2.lines + 1
      repaired := if isRepair then z.2.repaired + 1 else z.2.repaired
      damaged := z.2.damaged || decide ((x.profileOf r.selector).repairLimit < if isRepair then z.2.repaired + 1 else z.2.repaired) })
    fun q => SheetRecord.setSide_id ..
  refine ⟨_, hq, hid, ?_⟩
  simp only [SheetRecord.side_setSide_self, and_self, z, x]

/-! ### Ink -/

/-- A count over a slice is a count over the places of the slice. -/
theorem countP_slice {α : Type} (f : α → Bool) (l : List α) (a b : Nat) :
    ((l.take b).drop a).countP f =
      ((List.range l.length).filter fun i => decide (a ≤ i) && decide (i < b) && l[i]?.any f).length := by
  induction l generalizing a b with
  | nil => simp
  | cons x l ih =>
    rw [List.length_cons, List.range_succ_eq_map, List.filter_cons, List.filter_map]
    have hshift : ∀ a b, ((List.range l.length).filter ((fun i => decide (a ≤ i) && decide (i < b + 1) &&
        (x :: l)[i]?.any f) ∘ Nat.succ)) = (List.range l.length).filter fun i =>
          decide (a - 1 ≤ i) && decide (i < b) && l[i]?.any f := by
      intro a b
      refine List.filter_congr fun i _ => ?_
      have ha : (a ≤ i + 1) = (a - 1 ≤ i) := propext (by omega)
      have hb : (i + 1 < b + 1) = (i < b) := propext (by omega)
      simp only [Function.comp, Nat.succ_eq_add_one, List.getElem?_cons_succ, ha, hb]
    cases b with
    | zero => simp
    | succ b =>
      rw [hshift]
      cases a with
      | zero =>
        have := ih 0 b
        simp only [List.take_succ_cons, List.drop_zero, List.countP_cons] at this ⊢
        rw [this]
        cases hx : f x <;> simp [hx]
      | succ a =>
        have := ih a b
        simp only [List.take_succ_cons, List.drop_succ_cons]
        rw [this]
        simp

theorem lineInk_eq (p : Profile) (u : Setup) {pixels : List Pixel} (h : pixels.length = u.width) :
    lineInk p u pixels = ((List.range u.width).filter fun i => decide (p.sideMargin ≤ i) && decide (i + p.sideMargin < u.width)
      && pixels[i]?.any fun q => decide (greyOf u q < p.inkLevel)).length := by
  unfold lineInk
  rw [countP_slice, List.length_map, h]
  congr 1
  refine List.filter_congr fun i _ => ?_
  have hi : (i < u.width - p.sideMargin) = (i + p.sideMargin < u.width) := propext (by omega)
  simp only [List.getElem?_map, hi, Option.any_map]

/-- One line more in the ink count of a side (R117). -/
def inkStep (p : Profile) (z : SideRecord × List Nat) (ink : Nat) : SideRecord × List Nat :=
  ({ (countInk p ink z.1 z.2).1 with lines := (countInk p ink z.1 z.2).1.lines + 1 }, (countInk p ink z.1 z.2).2)

/-- After these lines: their number, those held back as the bottom margin, and the sum of the others from the top margin on. -/
structure InkAfter (p : Profile) (inks : List Nat) (z : SideRecord × List Nat) : Prop where
  lines : z.1.lines = inks.length
  history : z.2 = (inks.drop p.topMargin).drop (inks.length - p.topMargin - p.bottomMargin)
  ink : z.1.ink = ((inks.drop p.topMargin).take (inks.length - p.topMargin - p.bottomMargin)).sum

theorem InkAfter.step {p : Profile} {inks : List Nat} {z : SideRecord × List Nat} (h : InkAfter p inks z) (ink : Nat)
    (hsum : (inks ++ [ink]).sum < 2 ^ 32) : InkAfter p (inks ++ [ink]) (inkStep p z ink) := by
  obtain ⟨hl, hh, hi⟩ := h
  unfold inkStep countInk
  rw [hl]
  by_cases htop : inks.length < p.topMargin
  · rw [if_pos htop]
    have hd : (inks ++ [ink]).drop p.topMargin = [] := List.drop_eq_nil_of_le (by simp; omega)
    rw [List.drop_eq_nil_of_le (by omega : inks.length ≤ p.topMargin)] at hh hi
    refine ⟨?_, ?_, ?_⟩
    · simp [hl]
    · rw [hd, hh]; simp
    · rw [hd, hi]; simp
  · rw [if_neg htop]
    have hd : (inks ++ [ink]).drop p.topMargin = inks.drop p.topMargin ++ [ink] :=
      List.drop_append_of_le_length (by omega)
    set d := inks.drop p.topMargin with hdef
    have hdl : d.length = inks.length - p.topMargin := List.length_drop
    have hlen : (inks ++ [ink]).length - p.topMargin - p.bottomMargin = d.length + 1 - p.bottomMargin := by
      rw [List.length_append, List.length_singleton]; omega
    rw [← hdl] at hh hi
    have hheld : z.2 ++ [ink] = (d ++ [ink]).drop (d.length - p.bottomMargin) := by
      rw [hh, List.drop_append_of_le_length (by omega)]
    have hheldLen : (z.2 ++ [ink]).length = d.length + 1 - (d.length - p.bottomMargin) := by
      rw [hheld, List.length_drop, List.length_append]; rfl
    dsimp only
    by_cases hb : p.bottomMargin < (z.2 ++ [ink]).length
    · rw [if_pos hb]
      have hk : d.length + 1 - p.bottomMargin = d.length - p.bottomMargin + 1 := by omega
      have hlt : d.length - p.bottomMargin < (d ++ [ink]).length := by rw [List.length_append, List.length_singleton]; omega
      have hhead : (z.2 ++ [ink]).headD 0 = (d ++ [ink])[d.length - p.bottomMargin] := by
        rw [hheld, List.drop_eq_getElem_cons hlt]; rfl
      have htake : ((d ++ [ink]).take (d.length - p.bottomMargin + 1)).sum = z.1.ink + (z.2 ++ [ink]).headD 0 := by
        rw [List.take_succ_eq_append_getElem hlt, List.sum_append, hhead, hi, List.take_append_of_le_length (by omega)]
        simp
      have hbound : z.1.ink + (z.2 ++ [ink]).headD 0 < 2 ^ 32 := by
        rw [← htake, ← hd]
        exact Nat.lt_of_le_of_lt (List.Sublist.sum_le_sum ((List.take_sublist ..).trans (List.drop_sublist ..)) fun _ _ => Nat.zero_le _) hsum
      refine ⟨?_, ?_, ?_⟩
      · simp
      · rw [hd, hlen, hk, hheld, List.tail_drop]
      · rw [hd, hlen, hk, htake]
        exact if_pos hbound
    · rw [if_neg hb]
      have hk : d.length + 1 - p.bottomMargin = 0 := by omega
      have hk' : d.length - p.bottomMargin = 0 := by omega
      rw [hk'] at hheld hi
      refine ⟨?_, ?_, ?_⟩
      · simp [hl]
      · rw [hd, hlen, hk, hheld]
      · rw [hd, hlen, hk, hi, List.take_zero, List.take_zero]

theorem inkAfter_foldl {p : Profile} {y : SideRecord} {inks : List Nat} (hl : y.lines = 0) (hi : y.ink = 0)
    (hsum : inks.sum < 2 ^ 32) : InkAfter p inks (inks.foldl (inkStep p) (y, [])) := by
  induction inks using List.reverseRecOn with
  | nil => exact ⟨hl, by simp, by simpa using hi⟩
  | append_singleton inks ink ih =>
    have hle : inks.sum ≤ (inks ++ [ink]).sum := by rw [List.sum_append]; exact Nat.le_add_right ..
    rw [List.foldl_append]
    exact (ih (Nat.lt_of_le_of_lt hle hsum)).step ink hsum

/-! ### The statement -/

theorem length_colour (pixels : List Pixel) : (pixels.flatMap fun q => [q.red, q.green, q.blue]).length = 3 * pixels.length := by
  induction pixels with
  | nil => rfl
  | cons q pixels ih => rw [List.flatMap_cons, List.length_append, ih, List.length_cons]; simp only [List.length_cons, List.length_nil]; omega

theorem storedLine_forms (u : Setup) (pixels : List Pixel) :
    storedLine .colour u pixels =
      leBytes (3 * pixels.length) 2 ++ pixels.flatMap (fun q => [q.red, q.green, q.blue]) ∧
    storedLine .grey u pixels = leBytes pixels.length 2 ++ (pixels.map (greyOf u)).map (BitVec.ofNat 8) ∧
    storedLine .greyRun u pixels =
      leBytes (runLine (pixels.map (greyOf u))).length 2 ++ runLine (pixels.map (greyOf u)) := by
  refine ⟨?_, ?_, rfl⟩
  · rw [← length_colour]
    rfl
  · rw [List.map_map, ← List.length_map (as := pixels) (f := fun q => BitVec.ofNat 8 (greyOf u q))]
    rfl

theorem blankResult_iff (p : Profile) (width : Nat) (y : SideRecord) :
    let area : Int := ((width : Int) - 2 * p.sideMargin) * ((y.lines : Int) - p.topMargin - p.bottomMargin)
    (area ≤ 0 → blankResult p width y = false) ∧
    (0 < area → (blankResult p width y = true ↔ (y.ink : Int) * 65536 ≤ p.blankLimit * area)) := by
  intro area
  have h : blankResult p width y = (decide (0 < area) && decide ((y.ink : Int) * 65536 ≤ p.blankLimit * area)) := rfl
  rw [h]
  refine ⟨fun ha => ?_, fun ha => ?_⟩
  · rw [decide_eq_false (by omega), Bool.false_and]
  · rw [decide_eq_true ha, Bool.true_and, decide_eq_true_iff]

/-- Settles O32: each form through its lemma, the run form by recursion on the written values, the ink by its invariant. -/
theorem lineFormsAndBlank : Obligations.LineFormsAndBlank := by
  unfold Obligations.LineFormsAndBlank
  refine ⟨storedLine_forms, fun s t sd r pixels isRepair h => s.takeLine_stores pixels isRepair h,
    ⟨rfl, fun g same rest hr hs ho => runLine_literal_then_run hr hs ho⟩, fun greys v h => ?_,
    fun p u pixels h => lineInk_eq p u h, fun p y inks hl hi hsum => ?_, blankResult_iff⟩
  · rw [runLine_eq]
    refine ⟨expandRuns_runOf (fun x hx => ?_) v, Nat.le_trans (length_runOf _) (by rw [List.length_map])⟩
    obtain ⟨g, hg, rfl⟩ := List.mem_map.mp hx
    exact written_ne_zero (h g hg)
  · have h := inkAfter_foldl (p := p) hl hi hsum
    exact ⟨h.lines, h.ink⟩

end Sys2Proof.Machine

end


/-! PROOFS. The header of an entry, field by field (R136, R137; 10 Tables 10-11 and 10-12). -/

section

namespace Sys2Proof.Machine

/-! ### Fields of a list of bytes -/

/-- The bytes stand from an offset on in a list, which is read as 0 beyond its end. -/
def PartAt (l : List Byte) (o : Nat) (part : List Byte) : Prop := ∀ i x, part[i]? = some x → l.getD (o + i) 0 = x

theorem partAt_append {l : List Byte} {o : Nat} {a b : List Byte} :
    PartAt l o (a ++ b) ↔ PartAt l o a ∧ PartAt l (o + a.length) b := by
  refine ⟨fun h => ⟨fun i x hx => h i x ?_, fun i x hx => ?_⟩, fun ⟨ha, hb⟩ i x hx => ?_⟩
  · rw [List.getElem?_append_left (List.getElem?_eq_some_iff.mp hx).1, hx]
  · rw [Nat.add_assoc]
    exact h _ x (by rw [List.getElem?_append_right (Nat.le_add_right ..), Nat.add_sub_cancel_left, hx])
  · by_cases hi : i < a.length
    · exact ha i x (by rwa [List.getElem?_append_left hi] at hx)
    · have := hb (i - a.length) x (by rwa [List.getElem?_append_right (not_lt.mp hi)] at hx)
      rwa [show o + a.length + (i - a.length) = o + i by omega] at this

theorem partAt_cons {l : List Byte} {o : Nat} {x : Byte} {rest : List Byte} :
    PartAt l o (x :: rest) ↔ l.getD o 0 = x ∧ PartAt l (o + 1) rest := by
  rw [← List.singleton_append, partAt_append]
  refine and_congr_left fun _ => ⟨fun h => h 0 x rfl, fun h i y hy => ?_⟩
  obtain ⟨rfl, rfl⟩ : i = 0 ∧ x = y := by
    cases i with
    | zero => exact ⟨rfl, Option.some.inj hy⟩
    | succ i => cases hy
  exact h

theorem partAt_self (l : List Byte) : PartAt l 0 l := fun i x hx => by
  rw [Nat.zero_add, List.getD_eq_getElem?_getD, hx]; rfl

theorem field_of_leBytes {l : List Byte} {o v n : Nat} (h : PartAt l o (leBytes v n)) : field l o n = v % 256 ^ n := by
  induction n generalizing o v with
  | zero => exact (Nat.mod_one v).symm
  | succ n ih =>
    obtain ⟨h0, hrest⟩ := partAt_cons.mp h
    rw [field, h0, ih hrest, pow_succ', Nat.mod_mul, BitVec.toNat_ofNat]

theorem field_of_zeroBytes {l : List Byte} {o n : Nat} (h : PartAt l o (zeroBytes n)) : field l o n = 0 := by
  induction n generalizing o with
  | zero => rfl
  | succ n ih =>
    obtain ⟨h0, hrest⟩ := partAt_cons.mp h
    rw [field, h0, ih hrest]; rfl

theorem field_one (l : List Byte) (o : Nat) : field l o 1 = (l.getD o 0).toNat := rfl

theorem field_two (l : List Byte) (o : Nat) : field l o 2 = field l o 1 + 256 * field l (o + 1) 1 := rfl

/-- The segment slots from an offset on, one after the other. -/
theorem partAt_segment {l : List Byte} {o : Nat} {segs : List Segment} (h : PartAt l o (segs.flatMap segmentBytes)) {i : Nat}
    {g : Segment} (hg : segs[i]? = some g) : PartAt l (o + 16 * i) (segmentBytes g) := by
  induction segs generalizing o i with
  | nil => cases hg
  | cons f segs ih =>
    obtain ⟨hf, hrest⟩ := partAt_append.mp h
    cases i with
    | zero => exact Option.some.inj hg ▸ hf
    | succ i =>
      have := ih hrest hg
      rwa [show o + (segmentBytes f).length + 16 * i = o + 16 * (i + 1) by
        change o + 16 + 16 * i = _; omega] at this

theorem length_segments (segs : List Segment) : (segs.flatMap segmentBytes).length = 16 * segs.length := by
  induction segs with
  | nil => rfl
  | cons g segs ih => rw [List.flatMap_cons, List.length_append, ih, List.length_cons]; change 16 + _ = _; omega

theorem fields_of_segment {l : List Byte} {o : Nat} {g : Segment} (h : PartAt l o (segmentBytes g)) :
    field l o 2 = g.offset % 2 ^ 16 ∧ field l (o + 2) 2 = g.length % 2 ^ 16 ∧
      field l (o + 4) 1 = (if g.exempt then 1 else 0) ∧ field l (o + 5) 11 = 0 := by
  unfold segmentBytes at h
  simp only [partAt_append, List.length_append, length_leBytes, and_assoc] at h
  obtain ⟨h1, h2, h3, h4⟩ := h
  refine ⟨field_of_leBytes h1, field_of_leBytes h2, (field_of_leBytes h3).trans ?_, field_of_zeroBytes h4⟩
  cases g.exempt <;> rfl

/-! ### Flag words -/

/-- A number whose bits are these flags, from bit 0 up. -/
def FlagWord (v : Nat) (flags : List Bool) : Prop := v < 2 ^ flags.length ∧ ∀ n, v.testBit n = flags.getD n false

theorem flagWord_one (b : Bool) : FlagWord (flagBit b 0) [b] := by
  refine ⟨by cases b <;> decide, fun n => ?_⟩
  cases b <;> cases n <;> simp [flagBit, Nat.testBit_succ]

theorem FlagWord.add {v k : Nat} {flags : List Bool} (h : FlagWord v flags) (hk : flags.length = k) (b : Bool) :
    FlagWord (v + flagBit b k) (flags ++ [b]) := by
  obtain ⟨hv, hb⟩ := h
  subst hk
  have hpow : 2 ^ (flags ++ [b]).length = 2 ^ flags.length + 2 ^ flags.length := by
    rw [List.length_append, List.length_singleton, pow_succ]; omega
  refine ⟨?_, fun n => ?_⟩
  · rw [hpow]
    unfold flagBit
    split <;> omega
  · rcases Nat.lt_trichotomy n flags.length with hn | rfl | hn
    · rw [List.getD_append _ _ _ _ hn, ← hb]
      unfold flagBit
      split
      · rw [Nat.add_comm, Nat.testBit_two_pow_add_gt hn]
      · rfl
    · rw [List.getD_append_right _ _ _ _ (Nat.le_refl _), Nat.sub_self, List.getD_cons_zero]
      unfold flagBit
      cases b with
      | false => exact Nat.testBit_lt_two_pow hv
      | true => rw [if_pos rfl, Nat.add_comm, Nat.testBit_two_pow_add_eq, Nat.testBit_lt_two_pow hv]; rfl
    · rw [List.getD_eq_default _ _ (by rw [List.length_append, List.length_singleton]; omega)]
      refine Nat.testBit_lt_two_pow (Nat.lt_of_lt_of_le (m := 2 ^ (flags ++ [b]).length) ?_ (Nat.pow_le_pow_right (by decide) ?_))
      · rw [hpow]
        unfold flagBit
        split <;> omega
      · rw [List.length_append, List.length_singleton]; omega

theorem flagWord_sixteen (b0 b1 b2 b3 b4 b5 b6 b7 b8 b9 b10 b11 b12 b13 b14 b15 : Bool) :
    FlagWord (flagBit b0 0 + flagBit b1 1 + flagBit b2 2 + flagBit b3 3 + flagBit b4 4 + flagBit b5 5 + flagBit b6 6 +
        flagBit b7 7 + flagBit b8 8 + flagBit b9 9 + flagBit b10 10 + flagBit b11 11 + flagBit b12 12 + flagBit b13 13 +
        flagBit b14 14 + flagBit b15 15)
      [b0, b1, b2, b3, b4, b5, b6, b7, b8, b9, b10, b11, b12, b13, b14, b15] :=
  (((((((((((((((flagWord_one b0).add rfl b1).add rfl b2).add rfl b3).add rfl b4).add rfl b5).add rfl b6).add rfl b7).add rfl
    b8).add rfl b9).add rfl b10).add rfl b11).add rfl b12).add rfl b13).add rfl b14).add rfl b15

theorem flagWord_entryFlags (e : Element) (p : Piece) (sheetFirst continues : Bool) :
    FlagWord (entryFlags e p sheetFirst continues)
      [sheetFirst, continues, p.image.any fun i => decide (0 < i.repaired), p.image.any (·.damaged), p.image.any (·.clipped),
       (p.image.elim p.blankDropped (·.blank)), e.markResult.isDivider, e.kind == .overrun,
       e.standing == .accepted, e.standing == .flagged, p.noRoute, e.verdict.ampUnavailable, e.verdict.lengthUnverified,
       e.kind == .omitted, e.kind == .discarded, e.switchRefused] := by
  unfold entryFlags
  cases p.image with
  | none => exact flagWord_sixteen ..
  | some i => exact flagWord_sixteen ..

theorem flagWord_verdictBits (v : Verdict) : FlagWord (verdictBits v) [v.overlap, v.long, v.short] :=
  ((flagWord_one _).add rfl _).add rfl _

/-! ### Header lengths and rooms -/

theorem entryHeaderLength_eq (e : Element) (p : Piece) (h : e.verdict.segments.length ≤ 4) :
    entryHeaderLength e p = if p.entryKind = .continuation ∨ e.verdict.segments.length ≤ 1 then 64 else 128 := by
  unfold entryHeaderLength roundUp64 entrySegments
  cases p.entryKind with
  | continuation => simp
  | image =>
    simp only [reduceCtorEq, false_or]
    split <;> omega
  | placeholder =>
    simp only [reduceCtorEq, false_or]
    split <;> omega

theorem entryFits_iff (e : Element) (p : Piece) (room : Nat) :
    entryFits e p room = true ↔ entryHeaderLength e p + min 64 (p.total - p.progress) ≤ room := decide_eq_true_iff

theorem entryFits_least (e : Element) (p : Piece) (h : e.verdict.segments.length ≤ 4) : entryFits e p (4096 - 64) = true := by
  rw [entryFits_iff, entryHeaderLength_eq e p h]
  split <;> omega

/-- An entry begun does not outgrow its room, and one that is cut fills it (R136). -/
theorem entry_in_room (e : Element) (p : Piece) {room : Nat} (hr : 64 ∣ room) (hf : entryFits e p room = true) :
    roundUp64 (entryHeaderLength e p + entryDataLength e p room) ≤ room ∧ (entryDataLength e p room < p.total - p.progress →
      entryHeaderLength e p + entryDataLength e p room = room ∧ 64 ≤ entryDataLength e p room) := by
  rw [entryFits_iff] at hf
  unfold entryDataLength roundUp64
  omega

/-! ### The header -/

theorem entrySegments_length (e : Element) (p : Piece) : (entrySegments e p.entryKind).length =
    if p.entryKind = .continuation then 0 else e.verdict.segments.length := by
  cases p.entryKind <;> rfl

/-- The header before its zero fill. -/
def entryFixed (t : TransportNo) (e : Element) (p : Piece) (room : Nat) : List Byte :=
  leBytes p.entryKind.code 1 ++ leBytes t.val 1 ++ leBytes (p.image.elim 0 (sideEntryCode ·.side)) 1
    ++ leBytes (p.image.elim 0 (·.format.entryCode)) 1
    ++ leBytes (entryFlags e p (!e.sheetFirst) (decide (entryDataLength e p room < p.total - p.progress))) 2
    ++ leBytes e.markResult.code 1 ++ leBytes (verdictBits e.verdict) 1 ++ leBytes e.batchId.toNat 4
    ++ leBytes e.folder.toNat 4 ++ leBytes e.document.toNat 4 ++ leBytes e.sheet.toNat 4 ++ leBytes e.sheetInDoc.toNat 4
    ++ leBytes (e.verdict.length.getD 0) 2 ++ leBytes (p.image.elim 0 (·.width)) 2 ++ leBytes (p.image.elim 0 (·.lines)) 4
    ++ leBytes (entryDataLength e p room) 4 ++ leBytes p.total 4 ++ leBytes (entrySegments e p.entryKind).length 1
    ++ leBytes (if p.entryKind = .continuation then 0 else e.verdict.further) 1 ++ zeroBytes 2
    ++ (entrySegments e p.entryKind).flatMap segmentBytes

theorem entryHeader_eq (t : TransportNo) (e : Element) (p : Piece) (room : Nat) : entryHeader t e p room =
    entryFixed t e p room ++ zeroBytes (entryHeaderLength e p - (entryFixed t e p room).length) := rfl

theorem length_entryFixed (t : TransportNo) (e : Element) (p : Piece) (room : Nat) :
    (entryFixed t e p room).length = 48 + 16 * (entrySegments e p.entryKind).length := by
  unfold entryFixed
  simp only [List.length_append, length_leBytes, length_zeroBytes, length_segments]

theorem length_entryHeader (t : TransportNo) (e : Element) (p : Piece) (room : Nat) :
    (entryHeader t e p room).length = entryHeaderLength e p := by
  rw [entryHeader_eq, List.length_append, length_zeroBytes, length_entryFixed]
  unfold entryHeaderLength roundUp64
  omega

theorem entryHeader_fill (t : TransportNo) (e : Element) (p : Piece) (room : Nat) {i : Nat}
    (h : 48 + 16 * (entrySegments e p.entryKind).length ≤ i) : field (entryHeader t e p room) i 1 = 0 := by
  have hlen := length_entryFixed t e p room
  rw [field_one, entryHeader_eq, List.getD_append_right _ _ _ _ (by omega), zeroBytes]
  rw [List.getD_eq_getElem?_getD, List.getElem?_replicate]
  split <;> rfl

/-- The fields of a header, each at its place (10 Table 10-11). -/
theorem entryHeader_parts (t : TransportNo) (e : Element) (p : Piece) (room : Nat) :
    let h := entryHeader t e p room
    PartAt h 0 (leBytes p.entryKind.code 1) ∧ PartAt h 1 (leBytes t.val 1) ∧
    PartAt h 2 (leBytes (p.image.elim 0 (sideEntryCode ·.side)) 1) ∧ PartAt h 3 (leBytes (p.image.elim 0 (·.format.entryCode)) 1) ∧
    PartAt h 4 (leBytes (entryFlags e p (!e.sheetFirst) (decide (entryDataLength e p room < p.total - p.progress))) 2) ∧
    PartAt h 6 (leBytes e.markResult.code 1) ∧ PartAt h 7 (leBytes (verdictBits e.verdict) 1) ∧
    PartAt h 8 (leBytes e.batchId.toNat 4) ∧ PartAt h 12 (leBytes e.folder.toNat 4) ∧ PartAt h 16 (leBytes e.document.toNat 4) ∧
    PartAt h 20 (leBytes e.sheet.toNat 4) ∧ PartAt h 24 (leBytes e.sheetInDoc.toNat 4) ∧
    PartAt h 28 (leBytes (e.verdict.length.getD 0) 2) ∧ PartAt h 30 (leBytes (p.image.elim 0 (·.width)) 2) ∧
    PartAt h 32 (leBytes (p.image.elim 0 (·.lines)) 4) ∧ PartAt h 36 (leBytes (entryDataLength e p room) 4) ∧
    PartAt h 40 (leBytes p.total 4) ∧ PartAt h 44 (leBytes (entrySegments e p.entryKind).length 1) ∧
    PartAt h 45 (leBytes (if p.entryKind = .continuation then 0 else e.verdict.further) 1) ∧ PartAt h 46 (zeroBytes 2) ∧
    PartAt h 48 ((entrySegments e p.entryKind).flatMap segmentBytes) := by
  intro h
  obtain ⟨hparts, -⟩ := partAt_append.mp (partAt_self h)
  simp only [partAt_append, List.length_append, length_leBytes, length_zeroBytes, and_assoc, Nat.zero_add, Nat.reduceAdd] at hparts
  exact hparts

end Sys2Proof.Machine

end


/-! PROOFS. The lane writer's choice of work, and the statement about what it writes (R130, R132, R136, R137). -/

section

namespace Sys2Proof.Machine

/-! ### The choice -/

/-- The writer can serve the head piece of a transport (R130). -/
def State.Serves (s : State) (t : TransportNo) : Prop :=
  ∃ e p, (s.tr t).headPiece = some (e, p) ∧
    ((s.lane p.lane).state = .opened ∨ (s.lane p.lane).state = .idle) ∧ (s.lane p.lane).restart = false ∧
    (s.lane p.lane).binTake = false ∧ (s.lane p.lane).handBack = none ∧
    ∀ i, i ≠ t → ∀ f q, (s.tr i).headPiece = some (f, q) → q.lane = p.lane → q.firstWritten = false

theorem takesPiece_iff (l : Lane) : l.takesPiece = true ↔
    (l.state = .opened ∨ l.state = .idle) ∧ l.restart = false ∧ l.binTake = false ∧ l.handBack = none := by
  simp [Lane.takesPiece, and_assoc]

theorem partlyWritten_of_headPiece {x : Transport} {e : Element} {p : Piece} (h : x.headPiece = some (e, p)) :
    p.partlyWritten = p.firstWritten := by
  rw [Piece.partlyWritten, written_of_headPiece h, Bool.not_false, Bool.and_true]

theorem State.blockedByOther_eq_false (s : State) (t : TransportNo) (n : LaneNo) : s.blockedByOther t n = false ↔
    ∀ i, i ≠ t → ∀ f q, (s.tr i).headPiece = some (f, q) → q.lane = n → q.firstWritten = false := by
  unfold State.blockedByOther
  rw [List.any_eq_false]
  refine ⟨fun h i hi f q hq hn => ?_, fun h i _ => ?_⟩
  · have := h i (mem_allTransports i)
    rw [hq] at this
    simpa [hi, hn, partlyWritten_of_headPiece hq] using this
  · cases hq : (s.tr i).headPiece with
    | none => simp
    | some fq =>
      obtain ⟨f, q⟩ := fq
      rw [Option.any_some, partlyWritten_of_headPiece hq]
      simp only [Bool.and_eq_true, bne_iff_ne, beq_iff_eq, not_and, Bool.not_eq_true]
      exact fun hi hn => h i hi f q hq hn

theorem State.servable_iff (s : State) (t : TransportNo) : s.servable t = true ↔ s.Serves t := by
  unfold State.servable State.Serves
  rw [Option.any_eq_true]
  simp only [Prod.exists, Bool.and_eq_true, takesPiece_iff, Bool.not_eq_true', State.blockedByOther_eq_false, and_assoc]

theorem State.lookForWork_none {s : State} (h : ∀ t, ¬s.Serves t) : s.lookForWork = s := by
  have hf : (writerOrder s.writer.pointer).find? s.servable = none :=
    List.find?_eq_none.mpr fun t _ ht => h t ((s.servable_iff t).mp ht)
  unfold State.lookForWork
  rw [hf]
  cases s.writer.turn <;> rfl

theorem State.lookForWork_some {s : State} (hw : s.writer.turn = none) {earlier later : List TransportNo} {t : TransportNo}
    (ho : writerOrder s.writer.pointer = earlier ++ t :: later) (he : ∀ i ∈ earlier, ¬s.Serves i) (ht : s.Serves t) :
    s.lookForWork = s.beginTurn t := by
  have hf : (writerOrder s.writer.pointer).find? s.servable = some t := by
    rw [List.find?_eq_some_iff_append]
    refine ⟨(s.servable_iff t).mpr ht, earlier, later, ho, fun i hi => ?_⟩
    rw [Bool.not_eq_true', ← Bool.not_eq_true, s.servable_iff]
    exact he i hi
  unfold State.lookForWork
  rw [hw, hf]

/-! ### The turn begun -/

section

variable {s : State} {t : TransportNo} {e : Element} {p : Piece} {b : Bin}

theorem State.beginTurn_idle (hp : (s.tr t).headPiece = some (e, p)) (hl : (s.lane p.lane).state = .idle) :
    s.beginTurn t = (s.setLane p.lane { s.lane p.lane with binTake := true }).setWriter
      { pointer := some t, turn := some (t, .binTake) } := by
  conv_lhs => unfold State.beginTurn; simp only [hp, hl, if_true]
  rfl

theorem State.beginTurn_opened (hp : (s.tr t).headPiece = some (e, p)) (hl : (s.lane p.lane).state = .opened) :
    s.beginTurn t = (s.setWriter { s.writer with pointer := some t }).continueTurn t := by
  unfold State.beginTurn
  simp only [hp, hl, reduceCtorEq, if_false]

theorem State.continueTurn_fits (hp : (s.tr t).headPiece = some (e, p)) (hb : (s.lane p.lane).bin = some b)
    (hf : entryFits e p (b.capacity - b.filled) = true) :
    s.continueTurn t = ((s.setLane p.lane { s.lane p.lane with flushTimer := none }).setTr t
      (if p.firstWritten then s.tr t else (s.tr t).touch p.lane)).setWriter { s.writer with turn := some (t, .entry) } := by
  conv_lhs => unfold State.continueTurn; simp only [hp, hb, hf, if_true]
  rfl

theorem State.continueTurn_full (hp : (s.tr t).headPiece = some (e, p)) (hb : (s.lane p.lane).bin = some b)
    (hf : entryFits e p (b.capacity - b.filled) = false) :
    s.continueTurn t = (s.setLane p.lane ((s.lane p.lane).beginHandBack false)).setWriter
      { s.writer with turn := some (t, .handBack) } := by
  conv_lhs => unfold State.continueTurn; simp only [hp, hb, hf, Bool.false_eq_true, if_false]
  rfl

end

theorem Transport.mem_touch (x : Transport) (n : LaneNo) : n ∈ (x.touch n).batch.lanesTouched := by
  unfold Transport.touch
  split
  · next h => exact List.contains_iff_mem.mp h
  · exact List.mem_append_right _ (List.mem_singleton_self n)

theorem Transport.touch_of_mem {x : Transport} {n : LaneNo} (h : n ∈ x.batch.lanesTouched) : x.touch n = x := by
  unfold Transport.touch
  rw [if_pos (List.contains_iff_mem.mpr h)]

theorem Transport.touch_eq (x : Transport) (n : LaneNo) : { (x.touch n) with
    batch := { (x.touch n).batch with lanesTouched := x.batch.lanesTouched } } = x := by
  unfold Transport.touch
  split <;> rfl

/-- The next entry begun, as the statement says it: only the lane's flush timer, the lanes touched and the writer differ. -/
theorem State.entry_begun (s : State) (t : TransportNo) (p : Piece) (w : Writer) :
    let u := ((s.setLane p.lane { s.lane p.lane with flushTimer := none }).setTr t
      (if p.firstWritten then s.tr t else (s.tr t).touch p.lane)).setWriter w
    u.writer = w ∧ u.lane p.lane = { s.lane p.lane with flushTimer := none } ∧
      (∀ n, n ≠ p.lane → u.lane n = s.lane n) ∧ s.OnlyTransport { u with lanes := s.lanes, writer := s.writer } t ∧
      (p.firstWritten = false → p.lane ∈ (u.tr t).batch.lanesTouched) ∧
      (p.firstWritten ∨ p.lane ∈ (s.tr t).batch.lanesTouched → u.tr t = s.tr t) ∧
      { (u.tr t) with batch := { (u.tr t).batch with lanesTouched := (s.tr t).batch.lanesTouched } } = s.tr t := by
  intro u
  have htr : u.tr t = if p.firstWritten then s.tr t else (s.tr t).touch p.lane := State.tr_setTr_self _ _ _
  refine ⟨rfl, State.lane_setLane_self _ _ _, fun n hn => State.lane_setLane_of_ne _ _ hn, State.OnlyTransport.setTr s t _, ?_, ?_, ?_⟩
  · intro hf
    rw [htr, hf]
    exact Transport.mem_touch ..
  · intro h
    rw [htr]
    split
    · rfl
    · next hf => exact Transport.touch_of_mem (h.resolve_left hf)
  · rw [htr]
    split
    · rfl
    · exact Transport.touch_eq ..

/-! ### The header as read -/

theorem EntryKind.code_lt (k : EntryKind) : k.code < 256 ^ 1 := by cases k <;> decide

theorem MarkResult.code_lt (m : MarkResult) : m.code < 256 ^ 1 := by
  cases m with
  | divider d => cases d <;> decide
  | pending => decide
  | noDivider => decide

theorem MarkResult.isDivider_iff (m : MarkResult) : m.isDivider = true ↔ ∃ d, m = .divider d := by
  cases m <;> simp [MarkResult.isDivider]

theorem field_of_word {l : List Byte} {o : Nat} {w : Word} (h : PartAt l o (leBytes w.toNat 4)) : field l o 4 = w.toNat :=
  (field_of_leBytes h).trans (Nat.mod_eq_of_lt w.isLt)

theorem entryKind_code_eq (p : Piece) :
    p.entryKind.code = (match p.image with | none => 3 | some _ => if p.firstWritten then 2 else 1) := by
  unfold Piece.entryKind
  cases p.image with
  | none => rfl
  | some i => cases p.firstWritten <;> rfl

theorem entryKind_continuation_iff (p : Piece) : p.entryKind = .continuation ↔ p.image ≠ none ∧ p.firstWritten = true := by
  unfold Piece.entryKind
  cases p.image with
  | none => simp
  | some i => cases p.firstWritten <;> simp

theorem entrySegments_getElem {e : Element} {p : Piece} {i : Nat} {g : Segment}
    (hi : i < if p.entryKind = .continuation then 0 else e.verdict.segments.length) (hg : e.verdict.segments[i]? = some g) :
    (entrySegments e p.entryKind)[i]? = some g := by
  cases hk : p.entryKind with
  | image => exact hg
  | placeholder => exact hg
  | continuation => rw [if_pos hk] at hi; exact absurd hi (Nat.not_lt_zero i)

/-- The bits of a field of one or two bytes that holds a flag word. -/
theorem FlagWord.testBit_field {l : List Byte} {o v n : Nat} {flags : List Bool} (h : FlagWord v flags)
    (hp : PartAt l o (leBytes v n)) (hn : flags.length ≤ 8 * n) :
    field l o n = v ∧ ∀ i, (field l o n).testBit i = flags.getD i false := by
  have hv : v < 256 ^ n := Nat.lt_of_lt_of_le h.1
    (Nat.le_trans (Nat.pow_le_pow_right (by decide) hn) (by rw [Nat.pow_mul]))
  have e : field l o n = v := (field_of_leBytes hp).trans (Nat.mod_eq_of_lt hv)
  exact ⟨e, fun i => by rw [e]; exact h.2 i⟩

end Sys2Proof.Machine

end


/-! PROOFS. The statement about the writer's choice and its entries. -/

section

namespace Sys2Proof.Machine

/-- The first transport that can be served is served: a bin take, the next entry, or the bin handed back as full (R130, R136). -/
theorem State.beginTurn_opened_cases {s : State} {t : TransportNo} {e : Element} {p : Piece} {b : Bin}
    (hp : (s.tr t).headPiece = some (e, p)) (hl : (s.lane p.lane).state = .opened) (hb : (s.lane p.lane).bin = some b) :
    let need := entryHeaderLength e p + min 64 (p.total - p.progress)
    (need ≤ b.capacity - b.filled → s.beginTurn t = ((s.setLane p.lane { s.lane p.lane with flushTimer := none }).setTr t
      (if p.firstWritten then s.tr t else (s.tr t).touch p.lane)).setWriter { pointer := some t, turn := some (t, .entry) }) ∧
    (b.capacity - b.filled < need → s.beginTurn t = (s.setLane p.lane ((s.lane p.lane).beginHandBack false)).setWriter
      { pointer := some t, turn := some (t, .handBack) }) := by
  rw [State.beginTurn_opened hp hl]
  refine ⟨fun hn => ?_, fun hn => ?_⟩
  · rw [State.continueTurn_fits (s := s.setWriter { s.writer with pointer := some t }) hp hb ((entryFits_iff e p _).mpr hn)]
    rfl
  · have hf : entryFits e p (b.capacity - b.filled) = false := by
      rw [← Bool.not_eq_true, entryFits_iff]; omega
    rw [State.continueTurn_full (s := s.setWriter { s.writer with pointer := some t }) hp hb hf]
    rfl

/-- The fields of an entry's image, and the flags that its image alone sets (R137). -/
theorem entryHeader_image (t : TransportNo) (e : Element) (p : Piece) (room : Nat) :
    let h := entryHeader t e p room
    (p.image = none → field h 2 2 = 0 ∧ field h 30 2 = 0 ∧ field h 32 4 = 0 ∧ field h 36 4 = 0 ∧ field h 40 4 = 0) ∧
    (∀ i, p.image = some i → field h 30 2 = i.width % 2 ^ 16 ∧ field h 32 4 = i.lines % 2 ^ 32 ∧
      (∀ k, (k, i.side) ∈ [(1, Side.front), (2, .back)] → field h 2 1 = k) ∧
      ∀ k, (k, i.format) ∈ [(1, Format.colour), (2, .grey), (3, .greyRun)] → field h 3 1 = k) := by
  intro h
  obtain ⟨-, -, hside, hformat, -, -, -, -, -, -, -, -, -, hwidth, hlines, hdata, htotal, -⟩ := entryHeader_parts t e p room
  refine ⟨fun hi => ?_, fun i hi => ?_⟩
  · have ht : p.total = 0 := by rw [Piece.total, hi]; rfl
    rw [hi] at hside hformat hwidth hlines
    rw [ht] at htotal
    rw [entryDataLength, ht, Nat.zero_sub, Nat.zero_min] at hdata
    exact ⟨by rw [field_two, field_of_leBytes hside, field_of_leBytes hformat]; rfl, field_of_leBytes hwidth,
      field_of_leBytes hlines, field_of_leBytes hdata, field_of_leBytes htotal⟩
  · rw [hi] at hside hformat hwidth hlines
    refine ⟨field_of_leBytes hwidth, field_of_leBytes hlines, fun k hk => ?_, fun k hk => ?_⟩
    · rw [field_of_leBytes hside]
      cases hs : i.side <;> rw [hs] at hk <;> simp at hk <;> subst hk <;> simp only [Option.elim_some, hs] <;> rfl
    · rw [field_of_leBytes hformat]
      cases hs : i.format <;> rw [hs] at hk <;> simp at hk <;> subst hk <;> simp only [Option.elim_some, hs] <;> rfl

/-- The segment count, the segment slots and the bytes after them (R136, R137). -/
theorem entryHeader_segments (t : TransportNo) (e : Element) (p : Piece) (room : Nat) :
    let h := entryHeader t e p room
    let continued := p.entryKind = .continuation
    let slots := if continued then 0 else e.verdict.segments.length
    field h 44 1 = slots % 2 ^ 8 ∧ field h 45 1 = (if continued then 0 else e.verdict.further % 2 ^ 8) ∧ field h 46 2 = 0 ∧
    (∀ i g, i < slots → e.verdict.segments[i]? = some g → field h (48 + 16 * i) 2 = g.offset % 2 ^ 16 ∧
      field h (50 + 16 * i) 2 = g.length % 2 ^ 16 ∧ field h (52 + 16 * i) 1 = (if g.exempt then 1 else 0) ∧
      field h (53 + 16 * i) 11 = 0) ∧
    (∀ i, 48 + 16 * slots ≤ i → field h i 1 = 0) := by
  intro h continued slots
  obtain ⟨-, -, -, -, -, -, -, -, -, -, -, -, -, -, -, -, -, hcount, hfurther, hzero, hsegs⟩ := entryHeader_parts t e p room
  refine ⟨?_, ?_, field_of_zeroBytes hzero, fun i g hi hg => ?_, fun i hi => ?_⟩
  · rw [field_of_leBytes hcount, entrySegments_length]
    rfl
  · rw [field_of_leBytes hfurther]
    split <;> rfl
  · obtain ⟨h1, h2, h3, h4⟩ := fields_of_segment (partAt_segment hsegs (entrySegments_getElem hi hg))
    rw [show 48 + 16 * i + 2 = 50 + 16 * i by omega] at h2
    rw [show 48 + 16 * i + 4 = 52 + 16 * i by omega] at h3
    rw [show 48 + 16 * i + 5 = 53 + 16 * i by omega] at h4
    exact ⟨h1, h2, h3, h4⟩
  · exact entryHeader_fill t e p room (by rw [entrySegments_length]; exact hi)

/-- Each flag of a header is set exactly when its rule sets it (R137, 10 Table 10-12). -/
theorem entryHeader_flags (t : TransportNo) (e : Element) (p : Piece) (room : Nat) :
    let flag := (field (entryHeader t e p room) 4 2).testBit
    let image := fun f : PieceImage → Bool => ∃ i, p.image = some i ∧ f i = true
    (flag 0 ↔ e.sheetFirst = false) ∧ (flag 1 ↔ entryDataLength e p room < p.total - p.progress) ∧
    (flag 2 ↔ image fun i => decide (0 < i.repaired)) ∧ (flag 3 ↔ image (·.damaged)) ∧ (flag 4 ↔ image (·.clipped)) ∧
    (flag 5 ↔ image (·.blank) ∨ (p.image = none ∧ p.blankDropped = true)) ∧ (flag 6 ↔ ∃ d, e.markResult = .divider d) ∧
    (flag 7 ↔ e.kind = .overrun) ∧ (flag 8 ↔ e.standing = .accepted) ∧ (flag 9 ↔ e.standing = .flagged) ∧
    (flag 10 ↔ p.noRoute = true) ∧ (flag 11 ↔ e.verdict.ampUnavailable = true) ∧
    (flag 12 ↔ e.verdict.lengthUnverified = true) ∧ (flag 13 ↔ e.kind = .omitted) ∧ (flag 14 ↔ e.kind = .discarded) ∧
    (flag 15 ↔ e.switchRefused = true) := by
  intro flag image
  obtain ⟨-, -, -, -, hword, -⟩ := entryHeader_parts t e p room
  obtain ⟨-, hbits⟩ := (flagWord_entryFlags e p (!e.sheetFirst) _).testBit_field hword (Nat.le_refl _)
  have himage : ∀ f : PieceImage → Bool, p.image.any f = true ↔ image f := fun f => Option.any_eq_true ..
  have hblank : p.image.elim p.blankDropped (·.blank) = true ↔ image (·.blank) ∨ (p.image = none ∧ p.blankDropped = true) := by
    simp only [image]
    cases p.image <;> simp
  have via : ∀ (i : Nat) {P : Prop}, (_ = true ↔ P) → (flag i = true ↔ P) := fun i _ h =>
    (iff_of_eq (congrArg (· = true) (hbits i))).trans h
  exact ⟨via 0 (iff_of_eq (Bool.not_eq_true' _)), via 1 decide_eq_true_iff, via 2 (himage _), via 3 (himage _), via 4 (himage _),
    via 5 hblank, via 6 (MarkResult.isDivider_iff _), via 7 beq_iff_eq, via 8 beq_iff_eq, via 9 beq_iff_eq, via 10 Iff.rfl,
    via 11 Iff.rfl, via 12 Iff.rfl, via 13 beq_iff_eq, via 14 beq_iff_eq, via 15 Iff.rfl⟩

/-- The verdict flags of a header (10 Table 10-11). -/
theorem entryHeader_verdict (t : TransportNo) (e : Element) (p : Piece) (room : Nat) :
    let h := entryHeader t e p room
    let verdict := (field h 7 1).testBit
    (verdict 0 ↔ e.verdict.overlap = true) ∧ (verdict 1 ↔ e.verdict.long = true) ∧ (verdict 2 ↔ e.verdict.short = true) ∧
    field h 7 1 < 8 := by
  intro h verdict
  obtain ⟨-, -, -, -, -, -, hword, -⟩ := entryHeader_parts t e p room
  obtain ⟨hv, hbits⟩ := (flagWord_verdictBits e.verdict).testBit_field hword (by decide : 3 ≤ 8 * 1)
  have via : ∀ (i : Nat) {P : Prop}, (_ = true ↔ P) → (verdict i = true ↔ P) := fun i _ h =>
    (iff_of_eq (congrArg (· = true) (hbits i))).trans h
  exact ⟨via 0 Iff.rfl, via 1 Iff.rfl, via 2 Iff.rfl, by rw [hv]; exact (flagWord_verdictBits e.verdict).1⟩

/-- Settles O54: the choice by the first transport that `servable` finds, the rooms by arithmetic, the header part by part. -/
theorem writerAndEntries : Obligations.WriterAndEntries := by
  unfold Obligations.WriterAndEntries
  refine ⟨fun s hw => ?_, fun e p hn => ⟨entryHeaderLength_eq e p hn, entryFits_least e p hn,
    fun room hr hf => entry_in_room e p hr hf⟩, fun t e p room => ?_⟩
  · intro order serves u
    have hserves : ∀ t, serves t ↔ s.Serves t := fun t => Iff.rfl
    have horder : writerOrder s.writer.pointer = order := by
      simp only [order]
      cases s.writer.pointer <;> rfl
    refine ⟨fun h => State.lookForWork_none h, fun earlier t later e p ho he ht hp => ?_⟩
    have hu : u = s.beginTurn t := State.lookForWork_some hw (horder.trans ho) he ht
    intro l turn
    refine ⟨fun hl => hu.trans (State.beginTurn_idle hp hl), fun b hl hb => ?_⟩
    obtain ⟨hfits, hfull⟩ := State.beginTurn_opened_cases hp hl hb
    refine ⟨fun hn => ?_, fun hn => hu.trans (hfull hn)⟩
    rw [hu, hfits hn]
    exact s.entry_begun t p _
  · obtain ⟨hkind, hno, -, -, -, hmark, -, hbatch, hfolder, hdoc, hsheet, hinDoc, hlength, -, -, hdata, htotal, -⟩ :=
      entryHeader_parts t e p room
    obtain ⟨himage, hfield⟩ := entryHeader_image t e p room
    obtain ⟨hoverlap, hlong, hshort, hverdict⟩ := entryHeader_verdict t e p room
    obtain ⟨hcount, hfurther, hzero, hslots, hfill⟩ := entryHeader_segments t e p room
    refine ⟨length_entryHeader t e p room, ?_, ?_, entryKind_continuation_iff p, himage, hfield, hoverlap, hlong, hshort, hverdict,
      fun n hl => ?_, hcount, hfurther, hzero, hslots, hfill, ?_, field_of_word hbatch, field_of_word hfolder, field_of_word hdoc,
      field_of_word hsheet, field_of_word hinDoc, field_of_leBytes hdata, field_of_leBytes htotal, entryHeader_flags t e p room⟩
    · rw [field_of_leBytes hkind, Nat.mod_eq_of_lt (EntryKind.code_lt _)]
      exact entryKind_code_eq p
    · exact (field_of_leBytes hno).trans (Nat.mod_eq_of_lt (by have := t.isLt; omega))
    · rw [hl] at hlength
      exact field_of_leBytes hlength
    · exact (field_of_leBytes hmark).trans (Nat.mod_eq_of_lt (MarkResult.code_lt _))

end Sys2Proof.Machine

end


/-! PROOFS. Admission, the waiting list and the pick-wait reasons (R35, R36, R122 to R125). -/

section

namespace Sys2Proof.Machine

/-! ### A grant and the requests of the list -/

theorem reserve_newSide (p : Profile) (u : Setup) (total : Nat) (sd : Side) : (newSide p u total sd).reserve = sideNeed p u total sd := by
  unfold newSide
  by_cases h : takesSide p u.backCamera sd = true
  · rw [if_pos h]
  · rw [if_neg h, sideNeed, if_neg h]

theorem pages_newSide (p : Profile) (u : Setup) (total : Nat) (sd : Side) : (newSide p u total sd).pages = [] := by
  unfold newSide
  split <;> rfl

/-- The record of a pick carries the page need of the next sheet and holds no page (R38, R121). -/
theorem State.newRecord_reserve (s : State) (t : TransportNo) :
    ((s.tr t).newRecord s.hold.total).reserve = s.needOf t ∧ ((s.tr t).newRecord s.hold.total).pages = [] := by
  have hr : ((s.tr t).newRecord s.hold.total).reserve = _ + _ := rfl
  have hp : ((s.tr t).newRecord s.hold.total).pages = _ ++ _ := rfl
  refine ⟨?_, ?_⟩
  · rw [hr]
    unfold Transport.newRecord
    dsimp only
    rw [reserve_newSide, reserve_newSide]
    rfl
  · rw [hp]
    unfold Transport.newRecord
    dsimp only
    rw [pages_newSide, pages_newSide]
    rfl

namespace State

variable {s u v : State} {t i : TransportNo}

theorem hold_grant (s : State) (t : TransportNo) (need : Nat) : (s.grant t need).hold = { s.hold with
    reserved := s.hold.reserved + need
    below := decide (s.hold.free.length - (s.hold.reserved + need) < s.hold.lowMark) } :=
  (s.setHold { s.hold with reserved := s.hold.reserved + need }).refreshMark_hold

theorem asks_iff (s : State) (t : TransportNo) : (s.tr t).eligible = true → (∀ r ∈ s.hold.waiting, r.transport ≠ t) →
    ((s.tr t).eligible && s.hold.waiting.all fun r => r.transport != t) = true := by
  intro he hn
  rw [he, Bool.true_and, List.all_eq_true]
  exact fun r hr => bne_iff_ne.mpr (hn r hr)

theorem askAdmission_granted (he : (s.tr t).eligible = true) (hn : ∀ r ∈ s.hold.waiting, r.transport ≠ t)
    (hw : s.hold.waiting = []) (hf : s.needOf t ≤ s.hold.freePages) : s.askAdmission t = s.grant t (s.needOf t) := by
  unfold askAdmission
  rw [if_pos (s.asks_iff t he hn), if_pos ⟨hw, hf⟩]

theorem askAdmission_queued (he : (s.tr t).eligible = true) (hn : ∀ r ∈ s.hold.waiting, r.transport ≠ t)
    (h : s.hold.waiting ≠ [] ∨ s.hold.freePages < s.needOf t) : s.askAdmission t = s.setHold { s.hold with
      waiting := s.hold.waiting ++ [{ transport := t, need := s.needOf t, selector := (s.tr t).batch.active }] } := by
  unfold askAdmission
  rw [if_pos (s.asks_iff t he hn), if_neg fun ⟨hw, hf⟩ => h.elim (· hw) (by omega)]

theorem askAdmission_idle (h : (s.tr t).eligible = false ∨ ∃ r ∈ s.hold.waiting, r.transport = t) : s.askAdmission t = s := by
  unfold askAdmission
  refine if_neg fun hc => ?_
  rw [Bool.and_eq_true, List.all_eq_true] at hc
  rcases h with h | ⟨r, hr, e⟩
  · rw [h] at hc; cases hc.1
  · exact bne_iff_ne.mp (hc.2 r hr) e

/-! ### The list served -/

theorem stands_iff (s : State) (r : Request) :
    s.stands r = true ↔ (s.tr r.transport).eligible = true ∧ (s.tr r.transport).batch.active = r.selector := by
  rw [stands, Bool.and_eq_true, beq_iff_eq]

/-- The head left on the list after it is served still stands, and free pages do not cover it (R36, R123). -/
theorem head_serveWaiting (s : State) (l : List Request) {r : Request} {rest : List Request}
    (h : (s.serveWaiting l).hold.waiting = r :: rest) :
    (s.serveWaiting l).stands r = true ∧ (s.serveWaiting l).hold.freePages < r.need := by
  induction l generalizing s with
  | nil => cases h
  | cons q more ih =>
    unfold serveWaiting at h ⊢
    by_cases hs : s.stands q = true
    · rw [if_pos hs] at h ⊢
      by_cases hn : q.need ≤ s.hold.freePages
      · rw [if_pos hn] at h ⊢
        exact ih _ h
      · rw [if_neg hn] at h ⊢
        obtain ⟨rfl, -⟩ := List.cons.inj h
        exact ⟨hs, not_le.mp hn⟩
    · rw [if_neg hs] at h ⊢
      exact ih _ h

/-! ### A return of pages -/

theorem evt_refreshMark (x : State) : x.refreshMark.room.evt =
    if x.hold.freePages < x.hold.lowMark ∧ x.hold.below = false then x.room.evt ||| 0x2000#16 else x.room.evt := by
  unfold refreshMark
  by_cases h1 : x.hold.freePages < x.hold.lowMark
  · cases h2 : x.hold.below with
    | true => simp [h1]
    | false =>
      simp only [h1, decide_true, Bool.not_false, Bool.and_self, if_true, and_self]
      rfl
  · simp [h1]

theorem takeBack_spec (w : State) (pages : List Nat) (reserve : Nat) : let v := w.takeBack pages reserve
    v.transports = w.transports ∧ v.lanes = w.lanes ∧ v.hold.waiting = w.hold.waiting ∧ v.hold.free = w.hold.free ++ pages ∧
      v.hold.reserved = w.hold.reserved - reserve ∧ (v.hold.below = true ↔ v.hold.freePages < v.hold.lowMark) ∧
      v.room.evt = if v.hold.freePages < v.hold.lowMark ∧ w.hold.below = false then w.room.evt ||| 0x2000#16 else w.room.evt := by
  intro v
  obtain ⟨x, hx⟩ : ∃ x : State, x = w.setHold { w.hold with free := w.hold.free ++ pages, reserved := w.hold.reserved - reserve } :=
    ⟨_, rfl⟩
  have hv : v = x.refreshMark := by rw [hx]; rfl
  have hh : v.hold = { x.hold with below := decide (x.hold.freePages < x.hold.lowMark) } := hv ▸ x.refreshMark_hold
  have hb : x.hold.below = w.hold.below := by rw [hx]; rfl
  refine ⟨by rw [hv, refreshMark_transports, hx]; rfl, by rw [hv, (outside_refreshMark x).lanes, hx]; rfl,
    by rw [hh, hx]; rfl, by rw [hh, hx]; rfl, by rw [hh, hx]; rfl, by rw [hh]; exact decide_eq_true_iff, ?_⟩
  have hf : v.hold.freePages < v.hold.lowMark ↔ x.hold.freePages < x.hold.lowMark := by rw [hh]; exact Iff.rfl
  have he : x.room.evt = w.room.evt := by rw [hx]; rfl
  rw [congrArg (fun s : State => s.room.evt) hv, evt_refreshMark, hb, he]
  exact if_congr (and_congr_left' hf.symm) rfl rfl

end State

/-! ### The pick-wait reason -/

/-- w is the reason of the first unmet condition of a list. -/
def FirstUnmetIs (w : PickWait) (l : List (PickWait × Prop)) : Prop :=
  ∀ earlier q later, l = earlier ++ q :: later → (∀ p ∈ earlier, p.2) → ¬q.2 → w = q.1

theorem firstUnmetIs_nil (w : PickWait) : FirstUnmetIs w [] := fun earlier q later h => by
  cases earlier <;> cases h

theorem FirstUnmetIs.cons {w a : PickWait} {P : Prop} {l : List (PickWait × Prop)} (hn : ¬P → w = a) (hp : P → FirstUnmetIs w l) :
    FirstUnmetIs w ((a, P) :: l) := fun earlier q later h he hq => by
  cases earlier with
  | nil =>
    obtain ⟨rfl, -⟩ := List.cons.inj h
    exact hn hq
  | cons p earlier =>
    obtain ⟨rfl, rfl⟩ := List.cons.inj h
    exact hp (he _ (List.mem_cons_self ..)) earlier q later rfl (fun r hr => he r (List.mem_cons_of_mem _ hr)) hq

namespace Transport

/-- The newest record, where there is one, has a property. -/
def Newest (x : Transport) (P : SheetRecord → Prop) : Prop := ∀ older q, x.track = older ++ [q] → P q

theorem newest_iff {x : Transport} {P : SheetRecord → Prop} : x.Newest P ↔ ∀ q, x.newest = some q → P q := by
  unfold Newest Transport.newest
  refine ⟨fun h q hq => ?_, fun h older q e => h q (by rw [e]; exact List.getLast?_concat)⟩
  obtain ⟨older, ho⟩ := List.getLast?_eq_some_iff.mp hq
  exact h older q ho

theorem gapCondition_iff (x : Transport) : x.gapCondition = true ↔ x.Newest fun q => q.entry.trail.isSome ∧ q.gap = .met := by
  rw [newest_iff]
  unfold gapCondition
  cases x.newest <;> simp

theorem countReached_iff (x : Transport) : x.countReached = false ↔ ∀ k, x.batch.ticket = some k → k.stopAtCount = true →
    k.expected ≠ 0 → x.batch.counters.settled - x.batch.counters.overrun + (x.track.filter fun q => q.life != .withdrawn).length <
      k.expected := by
  unfold countReached live
  rw [List.countP_eq_length_filter]
  cases x.batch.ticket with
  | none => simp
  | some k => simp [Bool.and_eq_false_iff, or_iff_not_imp_left]

theorem markCondition_iff (x : Transport) : x.markCondition = true ↔
    ((x.profileOf x.batch.active).markWait = true → x.Newest fun q => q.markResult ≠ .pending) := by
  rw [newest_iff]
  unfold markCondition
  cases (x.profileOf x.batch.active).markWait <;> cases x.newest <;> simp

/-- The conditions of a pick with the reason that each gives while it is unmet, in order (02 Table 2-5). -/
def pickConditions (x : Transport) : List (PickWait × Prop) :=
  [(.runOn, x.runOn = none), (.runIn, x.motor = .driving), (.trackFull, x.track.length < 6),
   (.gap, x.Newest fun q => q.entry.trail.isSome ∧ q.gap = .met), (.tray, x.pos.trayEmpty.level = false),
   (.count, ∀ k, x.batch.ticket = some k → k.stopAtCount = true → k.expected ≠ 0 →
     x.batch.counters.settled - x.batch.counters.overrun + (x.track.filter fun q => q.life != .withdrawn).length < k.expected),
   (.mark, (x.profileOf x.batch.active).markWait = true → x.Newest fun q => q.markResult ≠ .pending)]

theorem firstUnmet_none_iff (x : Transport) : x.firstUnmet = .none ↔ ∀ q ∈ x.pickConditions, q.2 := by
  rw [firstUnmet_eq_none_iff, gapCondition_iff, countReached_iff, markCondition_iff]
  simp [pickConditions]

theorem firstUnmet_is (x : Transport) : FirstUnmetIs x.firstUnmet x.pickConditions := by
  unfold pickConditions
  rw [← gapCondition_iff, ← countReached_iff, ← markCondition_iff]
  unfold firstUnmet
  refine .cons (fun h => ?_) fun h1 => .cons (fun h => ?_) fun h2 => .cons (fun h => ?_) fun h3 => .cons (fun h => ?_) fun h4 =>
    .cons (fun h => ?_) fun h5 => .cons (fun h => ?_) fun h6 => .cons (fun h => ?_) fun h7 => firstUnmetIs_nil _
  all_goals simp_all

end Transport

namespace State

variable {s u v : State} {t i : TransportNo}

/-- Where a transport may pick, its request is on the waiting list. -/
def Asked (s : State) (t : TransportNo) : Prop := (s.tr t).eligible = true → ∃ r ∈ s.hold.waiting, r.transport = t

theorem askAdmission_cases (s : State) (t : TransportNo) : s.askAdmission t = s ∧ s.Asked t ∨
    s.askAdmission t = s.grant t (s.needOf t) ∨
    s.askAdmission t = s.setHold { s.hold with
      waiting := s.hold.waiting ++ [{ transport := t, need := s.needOf t, selector := (s.tr t).batch.active }] } := by
  by_cases he : (s.tr t).eligible = true
  · by_cases hn : ∀ r ∈ s.hold.waiting, r.transport ≠ t
    · by_cases h : s.hold.waiting = [] ∧ s.needOf t ≤ s.hold.freePages
      · exact .inr (.inl (askAdmission_granted he hn h.1 h.2))
      · exact .inr (.inr (askAdmission_queued he hn (by by_cases hw : s.hold.waiting = [] <;> [right; left] <;> simp_all)))
    · have hr : ∃ r ∈ s.hold.waiting, r.transport = t := by simpa using hn
      exact .inl ⟨askAdmission_idle (.inr hr), fun _ => hr⟩
  · exact .inl ⟨askAdmission_idle (.inl (Bool.not_eq_true _ ▸ he)), fun h => absurd h he⟩

theorem asked_askAdmission (s : State) (t : TransportNo) : (s.askAdmission t).Asked t := by
  rcases s.askAdmission_cases t with ⟨e, h⟩ | e | e <;> rw [e]
  · exact h
  · intro he
    rw [tr_grant, if_pos rfl, Transport.eligible_pick] at he
    cases he
  · exact fun _ => ⟨_, List.mem_append_right _ (List.mem_singleton_self _), rfl⟩

theorem Asked.askAdmission (h : s.Asked i) (t : TransportNo) : (s.askAdmission t).Asked i := by
  by_cases hi : i = t
  · exact hi ▸ s.asked_askAdmission t
  rcases s.askAdmission_cases t with ⟨e, -⟩ | e | e <;> rw [e]
  · exact h
  · intro he
    rw [tr_grant, if_neg hi] at he
    rw [hold_grant]
    exact h he
  · intro he
    obtain ⟨r, hr, hrt⟩ := h he
    exact ⟨r, List.mem_append_left _ hr, hrt⟩

theorem asked_foldl (s : State) {l : List TransportNo} (h : t ∈ l) : (l.foldl State.askAdmission s).Asked t := by
  have kept : ∀ (l : List TransportNo) (s : State), s.Asked t → (l.foldl State.askAdmission s).Asked t := fun l => by
    induction l with
    | nil => exact fun _ h => h
    | cons a l ih => exact fun s h => ih _ (h.askAdmission a)
  obtain ⟨a, b, rfl⟩ := List.mem_iff_append.mp h
  rw [List.foldl_append, List.foldl_cons]
  exact kept b _ (asked_askAdmission _ t)

theorem hold_updateWaits (s : State) : s.updateWaits.hold = s.hold :=
  hold_foldl (f := fun s t => s.modTr t fun x => { x with pickWait := x.waitReason }) (fun _ _ => rfl) _ _

/-- Each pick-wait reason brought up to date is that of its transport (R35). -/
theorem updateWaits_waits (w : State) (t : TransportNo) (h : w.Asked t) : let x := w.updateWaits.tr t
    x.pickWait = x.waitReason ∧ (x.eligible = true → ∃ r ∈ w.updateWaits.hold.waiting, r.transport = t) := by
  dsimp only
  rw [tr_updateWaits, hold_updateWaits]
  exact ⟨rfl, h⟩

/-- After the pick stage a transport that waits for pages is on the list (R36). -/
theorem pickStage_waits (s : State) (t : TransportNo) : let x := s.pickStage.tr t
    x.pickWait = x.waitReason ∧ (x.eligible = true → ∃ r ∈ s.pickStage.hold.waiting, r.transport = t) :=
  updateWaits_waits _ t (asked_foldl s.serveList (mem_allTransports t))

end State

open State in
/-- Settles O58: each clause by the branch of `askAdmission`, `serveWaiting` or `takeBack` that it speaks of, the reasons by
the order of `firstUnmet`. -/
theorem admissionInOrder : Obligations.AdmissionInOrder := by
  unfold Obligations.AdmissionInOrder
  refine ⟨fun s t he hn => ?_, fun s r rest => ?_, fun s h => ?_, fun s r rest h => head_serveWaiting s _ h,
    fun s pages reserve => ⟨_, rfl, s.serveList.takeBack_spec pages reserve⟩, fun s t => ?_⟩
  · intro u
    have hg := askAdmission_granted he hn
    have hq := askAdmission_queued he hn
    refine ⟨?_, ?_, fun hw hf => ?_, fun h => ?_⟩
    · intro i hi
      rcases s.askAdmission_cases t with ⟨e, -⟩ | e | e <;> rw [show u = _ from e]
      · rw [tr_grant, if_neg hi]
      · rfl
    · rcases s.askAdmission_cases t with ⟨e, -⟩ | e | e <;> rw [show u = _ from e]
      · exact .refl s
      · exact outside_grant ..
      · exact .setHold
    · obtain ⟨hres, hpages⟩ := s.newRecord_reserve t
      rw [show u = _ from hg hw hf, hold_grant, tr_grant, if_pos rfl]
      exact ⟨hw, rfl, rfl, rfl, _, rfl, rfl, rfl, hres, hpages⟩
    · rw [show u = _ from hq h]
      exact ⟨rfl, rfl⟩
  · intro x stands picks
    have hst : s.stands r = true ↔ stands := s.stands_iff r
    refine ⟨fun h => ?_, fun h hf => ?_, fun h hf => ⟨s.grant r.transport r.need, ?_, ?_⟩⟩
    · rw [serveWaiting, if_neg (hst.not.mpr h)]
    · rw [serveWaiting, if_pos (hst.mpr h), if_neg (not_le.mpr hf)]
    · rw [serveWaiting, if_pos (hst.mpr h), if_pos hf]
    · simp only [picks, hold_grant, tr_grant, if_true]
      exact ⟨trivial, trivial, fun i hi => if_neg hi, rfl, rfl⟩
  · unfold serveList
    rw [List.filter_eq_nil_iff.mpr fun r hr => by rw [h r hr]; exact Bool.false_ne_true]
    rfl
  · intro u x c live newest met
    obtain ⟨hwait, hask⟩ := s.pickStage_waits t
    have hw : x.pickWait = x.waitReason := hwait
    have hmet : met = x.pickConditions := rfl
    unfold Transport.waitReason at hw
    refine ⟨fun h => by rw [hw, if_neg h], fun h hall => ?_, fun h earlier w later e he hn => ?_⟩
    · have hf : x.firstUnmet = .none := x.firstUnmet_none_iff.mpr (hmet ▸ hall)
      exact ⟨by rw [hw, if_pos h, if_pos hf], hask (Transport.eligible_iff.mpr ⟨h, hf⟩)⟩
    · have hf : x.firstUnmet ≠ .none := fun k =>
        hn (x.firstUnmet_none_iff.mp k w (by rw [← hmet, e]; exact List.mem_append_right _ (List.mem_cons_self ..)))
      rw [hw, if_pos h, if_neg hf]
      exact x.firstUnmet_is earlier w later (hmet ▸ e) he hn

end Sys2Proof.Machine

end


/-! PROOFS. Picks (R34, R38): what a transport holds from a pick on to the end of the command, and what keeps it. -/

section

namespace Sys2Proof.Machine

namespace Transport

variable {x y : Transport} {k n : Nat}

/-! ### The record of a pick, and the transport that has picked it -/

/-- r is the record number k of a pick in a part with n pages, as the pick leaves it (R38). -/
structure IsNew (k n : Nat) (x : Transport) (r : SheetRecord) : Prop where
  id : r.id = k
  life : r.life = .picked
  pickPos : r.pickPos = x.pos.counter
  selector : r.selector = x.batch.active
  leadEnd : r.entry.leadEnd = .at (r.pickPos + BitVec.ofNat 32 x.cfg.pickWindow)
  trail : r.entry.trail = none
  reserve : r.reserve = sheetNeed (x.profileOf x.batch.active) x.cfg n
  pages : r.pages = []
  waits : ∀ sd, (r.side sd).capture ≠ .capturing

/-- The record before a pick is past ENTRY with its gap met and, where the profile says so, its mark decided (02 Table 2-5). -/
def PastEntry (x : Transport) (q : SheetRecord) : Prop :=
  q.entry.trail.isSome ∧ q.gap = .met ∧ ((x.profileOf x.batch.active).markWait = true → q.markResult ≠ .pending)

/-- The sheets settled and those in the track do not pass the count of STOP_AT_COUNT. -/
def CountLeft (x : Transport) : Prop := ∀ e, x.batch.ticket = some e → e.stopAtCount = true → e.expected ≠ 0 →
  x.batch.counters.settled - x.batch.counters.overrun + (x.track.filter fun q => q.life != .withdrawn).length ≤ e.expected

/-- The transport has picked record number k, with every condition of the pick met (R34, R38). -/
structure Picked (k n : Nat) (x : Transport) : Prop where
  running : x.state = .running
  clutch : x.clutch = true
  runOn : x.runOn = none
  motor : x.motor = .driving
  length : x.track.length ≤ 6
  tray : x.pos.trayEmpty.level = false
  count : x.CountLeft
  newest : ∃ rest r, x.track = rest ++ [r] ∧ x.IsNew k n r ∧ ∀ older q, rest = older ++ [q] → x.PastEntry q

/-- Record number k has left the transport, which is not RUNNING. -/
def Gone (k : Nat) (x : Transport) : Prop := x.state ≠ .running ∧ ∀ q ∈ x.track, q.id ≠ k

/-- The transport has picked at most one record from number k on, and one that it has picked stands as the pick left it unless it
has left the track. -/
def Fresh (k n : Nat) (x : Transport) : Prop := x.nextId ≤ k ∨ (x.nextId = k + 1 ∧ (x.Picked k n ∨ x.Gone k))

theorem Fresh.map (h : x.Fresh k n) (hn : y.nextId = x.nextId) (hp : x.Picked k n → y.Picked k n) (hg : x.Gone k → y.Gone k) :
    y.Fresh k n := by
  unfold Fresh
  rw [hn]
  exact h.imp_right fun ⟨e, h⟩ => ⟨e, h.imp hp hg⟩

/-- A transport that is not RUNNING has picked nothing that is left. -/
theorem Fresh.map_of_not_running (h : x.Fresh k n) (hx : x.state ≠ .running) (hn : y.nextId = x.nextId) (hg : x.Gone k → y.Gone k) :
    y.Fresh k n := h.map hn (fun p => absurd p.running hx) hg

/-- After a pick no further one can follow at once (pick condition 3). -/
theorem Picked.not_eligible (h : x.Picked k n) : x.eligible = false := by
  obtain ⟨rest, r, ht, hr, -⟩ := h.newest
  rw [Bool.eq_false_iff]
  intro he
  obtain ⟨-, -, -, -, hgap, -⟩ := (eligible_iff.mp he).imp_right firstUnmet_eq_none_iff.mp
  have hmet : r.entry.trail.isSome = true := ((gapCondition_iff x).mp hgap rest r ht).1
  rw [hr.trail] at hmet
  cases hmet

theorem Gone.not_eligible (h : x.Gone k) : x.eligible = false := by
  rw [Bool.eq_false_iff]
  exact fun he => h.1 (eligible_iff.mp he).1

/-- A pick by a transport that may pick. -/
theorem picked_pick (he : x.eligible = true) : (x.pick n).Picked x.nextId n := by
  obtain ⟨hs, ho, hm, hl, hg, ht, hc, hk⟩ := (eligible_iff.mp he).imp_right firstUnmet_eq_none_iff.mp
  have htrack : (x.pick n).track = x.track ++ [x.newRecord n] := rfl
  rw [gapCondition_iff] at hg
  rw [markCondition_iff] at hk
  have hcapture : ∀ p u sd, (newSide p u n sd).capture ≠ .capturing := fun p u sd => by
    unfold newSide
    split <;> exact nofun
  refine ⟨hs, rfl, ho, hm, ?_, ht, fun e h1 h2 h3 => ?_, x.track, x.newRecord n, htrack,
    ⟨rfl, rfl, rfl, rfl, rfl, rfl, ?_, ?_, fun sd => by cases sd <;> exact hcapture _ _ _⟩, fun older q e => ?_⟩
  · rw [htrack, List.length_append, List.length_singleton]
    exact hl
  · have := (countReached_iff x).mp hc e h1 h2 h3
    rw [htrack, List.filter_append, List.length_append]
    exact this
  · show (newSide _ _ _ _).reserve + (newSide _ _ _ _).reserve = _
    rw [reserve_newSide, reserve_newSide]
    rfl
  · show (newSide _ _ _ _).pages ++ (newSide _ _ _ _).pages = _
    rw [pages_newSide, pages_newSide]
    rfl
  · obtain ⟨h1, h2⟩ := hg older q e
    exact ⟨h1, h2, fun h => hk h older q e⟩

theorem Fresh.mayPick (h : x.Fresh k n) (hp : x.MayPick n y) : y.Fresh k n := by
  rcases hp with rfl | ⟨he, rfl⟩
  · exact h
  · rcases h with h | ⟨-, h | h⟩
    · rcases Nat.lt_or_eq_of_le h with h | rfl
      · exact .inl h
      · exact .inr ⟨rfl, .inl (picked_pick he)⟩
    · rw [h.not_eligible] at he; cases he
    · rw [h.not_eligible] at he; cases he

/-! ### What keeps a pick -/

/-- What a pick rests on stays: all but the counts, the track and what has no part in a pick. -/
structure SamePick (x y : Transport) : Prop where
  nextId : y.nextId = x.nextId := by rfl
  state : y.state = x.state := by rfl
  clutch : y.clutch = x.clutch := by rfl
  runOn : y.runOn = x.runOn := by rfl
  motor : y.motor = x.motor := by rfl
  pos : y.pos = x.pos := by rfl
  setup : y.setup = x.setup := by rfl
  active : y.batch.active = x.batch.active := by rfl
  ticket : y.batch.ticket = x.batch.ticket := by rfl
  snapshot : y.batch.snapshot = x.batch.snapshot := by rfl

theorem SamePick.cfg (h : x.SamePick y) : y.cfg = x.cfg := by unfold Transport.cfg; rw [h.setup]

theorem SamePick.profileOf (h : x.SamePick y) (sel : Selector) : y.profileOf sel = x.profileOf sel := by
  unfold Transport.profileOf Transport.copyOf
  rw [h.snapshot]

theorem SamePick.isNew (h : x.SamePick y) {r : SheetRecord} (hr : x.IsNew k n r) : y.IsNew k n r where
  id := hr.id
  life := hr.life
  pickPos := by rw [h.pos]; exact hr.pickPos
  selector := by rw [h.active]; exact hr.selector
  leadEnd := by rw [h.cfg]; exact hr.leadEnd
  trail := hr.trail
  reserve := by rw [h.active, h.profileOf, h.cfg]; exact hr.reserve
  pages := hr.pages
  waits := hr.waits

theorem SamePick.pastEntry (h : x.SamePick y) {q : SheetRecord} (hq : x.PastEntry q) : y.PastEntry q := by
  unfold PastEntry
  rw [h.active, h.profileOf]
  exact hq

/-- A pick stands while its new record stays the last one, the record before it is past ENTRY, and the counts do not rise. -/
theorem Picked.of_samePick (p : x.Picked k n) (h : x.SamePick y) (hlen : y.track.length ≤ x.track.length) (hc : x.CountLeft → y.CountLeft)
    (ht : ∀ rest r, x.track = rest ++ [r] → x.IsNew k n r → (∀ older q, rest = older ++ [q] → x.PastEntry q) →
      ∃ rest', y.track = rest' ++ [r] ∧ ∀ older q, rest' = older ++ [q] → x.PastEntry q) : y.Picked k n := by
  obtain ⟨rest, r, htr, hr, hq⟩ := p.newest
  obtain ⟨rest', htr', hq'⟩ := ht rest r htr hr hq
  exact ⟨h.state.trans p.running, h.clutch.trans p.clutch, h.runOn.trans p.runOn, h.motor.trans p.motor, Nat.le_trans hlen p.length,
    h.pos ▸ p.tray, hc p.count, rest', r, htr', h.isNew hr, fun older q e => h.pastEntry (hq' older q e)⟩

/-- A change of what has no part in a pick. -/
theorem Fresh.of_samePick (f : x.Fresh k n) (h : x.SamePick y) (ht : y.track = x.track) (hc : y.batch.counters = x.batch.counters) :
    y.Fresh k n := by
  refine f.map h.nextId (fun p => p.of_samePick h (by rw [ht]) (fun c => ?_) fun rest r e _ hq => ⟨rest, ht.trans e, hq⟩)
    fun ⟨g1, g2⟩ => ⟨h.state ▸ g1, ht ▸ g2⟩
  unfold CountLeft
  rw [h.ticket, hc, ht]
  exact c

/-- A side of another record, or of any record of a transport that has no pick left, changes. -/
def Clear (k : Nat) (x : Transport) (id : Nat) : Prop := x.nextId ≤ k ∨ x.state ≠ .running ∨ id ≠ k

theorem Fresh.modRecord (f : x.Fresh k n) {id : Nat} (h : x.Clear k id) {g : SheetRecord → SheetRecord}
    (hg : ∀ q, (g q).id = q.id ∧ (g q).life = q.life ∧ (g q).entry = q.entry ∧ (g q).gap = q.gap ∧
      (g q).markResult = q.markResult) : (x.modRecord id g).Fresh k n := by
  have hid : ∀ q, (if q.id = id then g q else q).id = q.id := fun q => by split; exacts [(hg q).1, rfl]
  have hgone : x.Gone k → (x.modRecord id g).Gone k := fun ⟨h1, h2⟩ => ⟨h1, fun q hq => by
    obtain ⟨o, ho, rfl⟩ := List.mem_map.mp hq
    rw [hid]
    exact h2 o ho⟩
  rcases h with h | h | h
  · exact .inl h
  · exact f.map_of_not_running h rfl hgone
  · refine f.map rfl (fun p => p.of_samePick {} ?_ (fun c => ?_) fun rest r ht hr hq => ?_) hgone
    · exact Nat.le_of_eq (List.length_map ..)
    · have hlive : ∀ l : List SheetRecord, ((l.map fun q => if q.id = id then g q else q).filter fun q => q.life != .withdrawn).length =
          (l.filter fun q => q.life != .withdrawn).length := fun l => by
        rw [← List.countP_eq_length_filter, ← List.countP_eq_length_filter, List.countP_map]
        refine List.countP_congr fun q _ => ?_
        have : (if q.id = id then g q else q).life = q.life := by split; exacts [(hg q).2.1, rfl]
        simp only [Function.comp, this]
      unfold CountLeft
      rw [track_modRecord, hlive]
      exact c
    · refine ⟨rest.map fun q => if q.id = id then g q else q, ?_, fun older q e => ?_⟩
      · rw [track_modRecord, ht, List.map_append, List.map_singleton, if_neg fun e => h (e.symm.trans hr.id)]
      · obtain ⟨older', l', rfl, -, hl⟩ := List.map_eq_append_iff.mp e
        obtain ⟨o, rfl⟩ : ∃ o, l' = [o] := List.length_eq_one_iff.mp (by have := congrArg List.length hl; simpa using this)
        have hq := hq older' o rfl
        obtain rfl : (if o.id = id then g o else o) = q := by simpa using hl
        split
        · obtain ⟨-, -, h1, h2, h3⟩ := hg o
          unfold PastEntry at hq ⊢
          rw [h1, h2, h3]
          exact hq
        · exact hq

theorem Fresh.setUnit (f : x.Fresh k n) (sd : Side) (u : CaptureUnit) : (x.setUnit sd u).Fresh k n := by
  obtain ⟨a, b, e⟩ := setUnit_eq x sd u
  rw [e]
  exact f.of_samePick {} rfl rfl

theorem Fresh.putSide (f : x.Fresh k n) {id : Nat} (h : x.Clear k id) (sd : Side) (g : SheetRecord → SideRecord) (u : CaptureUnit) :
    (x.putSide id sd g u).Fresh k n :=
  (f.modRecord h (g := fun q => q.setSide sd (g q)) fun q => by cases sd <;> exact ⟨rfl, rfl, rfl, rfl, rfl⟩).setUnit sd u

/-! ### A stop -/

theorem nextId_stopped (x : Transport) (reason : StopReason) : (x.stopped reason).nextId = x.nextId := by
  obtain ⟨f, b, h⟩ := foldl_endCaptures_eq x.motorOff (x.track.filter (·.givesUp))
  unfold Transport.stopped
  rw [h]
  exact (contents_motorOff x).nextId

/-- A stop takes the record just picked off the track (R42). -/
theorem Fresh.stopped (f : x.Fresh k n) (p : x.PageLaw) (reason : StopReason) : (x.stopped reason).Fresh k n := by
  have hnext : (x.stopped reason).nextId = x.nextId := x.nextId_stopped reason
  have hsorted : ∀ q ∈ (x.stopped reason).track, ∃ o ∈ x.track, o.life ≠ .picked ∧ q.id = o.id := fun q hq => by
    obtain ⟨o, ho, hs⟩ := List.mem_filterMap.mp hq
    refine ⟨o, ho, ?_⟩
    unfold SheetRecord.sorted at hs
    split at hs <;> cases hs <;> rename_i hl <;> refine ⟨by rw [hl]; exact nofun, rfl⟩
  rcases f with f | ⟨hn, f⟩
  · exact .inl (hnext ▸ f)
  · refine .inr ⟨hnext.trans hn, .inr ⟨nofun, fun q hq e => ?_⟩⟩
    obtain ⟨o, ho, hl, hid⟩ := hsorted q hq
    rcases f with f | f
    · obtain ⟨rest, r, ht, hr, -⟩ := f.newest
      have hm : r ∈ x.track := by rw [ht]; exact List.mem_append_right _ (List.mem_singleton_self r)
      obtain rfl := p.eq_of_id hm ho (hid.symm.trans (e.trans hr.id.symm))
      exact hl hr.life
    · exact f.2 o ho (hid.symm.trans e)

end Transport

end Sys2Proof.Machine

end


/-! PROOFS. The end of a step keeps what a pick leaves, and leaves at most one new record in a transport (R34, R38). -/

section

namespace Sys2Proof.Machine

theorem settle_kept (b : BatchContext) (r : SheetRecord) :
    (b.settle r).active = b.active ∧ (b.settle r).ticket = b.ticket ∧ (b.settle r).snapshot = b.snapshot := by
  unfold BatchContext.settle
  cases r.markResult with
  | pending => exact ⟨rfl, rfl, rfl⟩
  | noDivider => exact ⟨rfl, rfl, rfl⟩
  | divider d => cases d <;> exact ⟨rfl, rfl, rfl⟩

namespace Transport

variable {x y : Transport} {k n : Nat}

/-- A settlement takes the head record from the track into the count of those settled, or settled and overrun (05 Table 5-8). -/
theorem countLeft_settle {unused : LaneNo → Bool} {r : SheetRecord} {rest : List SheetRecord} (ht : x.track = r :: rest)
    (hl : r.life = .done) (c : x.CountLeft) : (x.settleRecord unused r).transport.CountLeft := by
  intro e h1 h2 h3
  obtain ⟨-, hticket, -⟩ := settle_kept x.batch r
  rw [settleRecord_eq] at h1
  have h := c e (hticket.symm.trans h1) h2 h3
  have hlive : (x.track.filter fun q => q.life != .withdrawn).length = (rest.filter fun q => q.life != .withdrawn).length + 1 := by
    rw [ht, List.filter_cons_of_pos (by rw [hl]; rfl), List.length_cons]
  rw [settleRecord_eq]
  show (settledBatch x unused r).counters.settled - (settledBatch x unused r).counters.overrun + _ ≤ _
  rw [settledBatch_counters]
  dsimp only
  rw [ht, List.tail_cons]
  unfold sat32
  split <;> omega

theorem Fresh.settled {unused : LaneNo → Bool} {r : SheetRecord} {rest : List SheetRecord} (ht : x.track = r :: rest)
    (hl : r.life = .done) (f : x.Fresh k n) : (x.settleRecord unused r).transport.Fresh k n := by
  have htrack : (x.settleRecord unused r).transport.track = rest := by
    rw [settleRecord_eq]
    exact congrArg List.tail ht
  obtain ⟨hactive, hticket, hsnapshot⟩ := settle_kept x.batch r
  have hsame : x.SamePick (x.settleRecord unused r).transport := by
    rw [settleRecord_eq]
    exact { active := hactive, ticket := hticket, snapshot := hsnapshot }
  refine f.map hsame.nextId (fun p => p.of_samePick hsame ?_ (countLeft_settle ht hl) fun older q e hq hp => ?_) fun ⟨g1, g2⟩ =>
    ⟨hsame.state ▸ g1, fun q hq => g2 q (by rw [ht]; exact List.mem_cons_of_mem _ (htrack ▸ hq))⟩
  · rw [htrack, ht, List.length_cons]
    exact Nat.le_succ _
  · rw [ht] at e
    rcases List.cons_eq_append_iff.mp e with ⟨rfl, e'⟩ | ⟨older', rfl, e'⟩
    · obtain ⟨rfl, -⟩ := List.cons.inj e'
      rw [hq.life] at hl
      cases hl
    · exact ⟨older', htrack.trans e', fun o q' eo => hp (r :: o) q' (by rw [eo]; rfl)⟩

theorem Fresh.tested (f : x.Fresh k n) : x.endTests.Fresh k n := by
  unfold endTests
  split
  · next h =>
    obtain ⟨hr, hn, -⟩ := endTest_iff.mp h
    have hnext : x.endCondition.nextId = x.nextId := by
      unfold endCondition
      rw [if_pos hr]
    refine f.map hnext (fun p => ?_) fun g => absurd hr g.1
    obtain ⟨rest, r, ht, hq, -⟩ := p.newest
    exact absurd hq.life (hn r (by rw [ht]; exact List.mem_append_right _ (List.mem_singleton_self r)))
  · exact f

/-- A motor commanded off or into its run-off, in a transport that is not RUNNING before nor after. -/
theorem Fresh.of_motorOnly (f : x.Fresh k n) (hx : x.state ≠ .running) {z : Transport} (h : z.MotorOnly y) (hz : z.state ≠ .running)
    (hn : z.nextId = x.nextId) (ht : z.track = x.track) : y.Fresh k n := by
  obtain ⟨mo, cl, a, ro, st, d, rfl, -⟩ := h
  exact f.map_of_not_running hx hn fun ⟨_, g⟩ => ⟨hz, fun q hq => g q (ht ▸ hq)⟩

theorem Fresh.pauseDone (f : x.Fresh k n) : x.pauseDone.Fresh k n := by
  unfold Transport.pauseDone
  split
  · next h => exact f.of_motorOnly (by rw [h.1]; exact nofun) (motorOnly_beginRunOff _) nofun rfl rfl
  · exact f

theorem Fresh.left (f : x.Fresh k n) (hd : x.state = .draining) :
    ({ x with batch := { x.batch with closure := .notAsked } } : Transport).leaveDraining.Fresh k n := by
  have hx : x.state ≠ .running := by rw [hd]; exact nofun
  unfold leaveDraining
  dsimp only
  split
  · exact f.of_motorOnly hx (motorOnly_motorOff _) nofun rfl rfl
  · exact f.of_motorOnly hx (motorOnly_beginRunOff _) nofun rfl rfl

end Transport

open Transport in
/-- The end of a step keeps what a pick leaves, and a transport that has picked picks no more. -/
theorem State.endSteps_fresh (k n : Nat) : State.EndStepsAt n fun x y => x.Fresh k n → y.Fresh k n where
  refl _ := id
  trans h g := g ∘ h
  settled x unused r rest h hc := Fresh.settled h ((canSettle_iff x r).mp hc).1
  picked h f := f.mayPick h
  tested _ := Fresh.tested
  waits _ _ f := f.of_samePick {} rfl rfl
  paused _ := Fresh.pauseDone
  asked _ _ f := f.of_samePick {} rfl rfl
  closed x m f := by
    unfold laneClosed
    split <;> exact f.of_samePick {} rfl rfl
  outcome _ _ _ f := f.of_samePick {} rfl rfl
  left _ hd _ f := f.left hd
  touched x m f := by
    unfold touch
    split <;> exact f.of_samePick {} rfl rfl

namespace State

variable {s u v : State} {t i : TransportNo} {K : TransportNo → Nat} {n : Nat}

/-! ### The whole part -/

/-- In a part with n pages every transport has picked at most one record from its number on, as the pick left it. -/
def FreshAt (K : TransportNo → Nat) (n : Nat) (s : State) : Prop := s.hold.total = n ∧ ∀ i, (s.tr i).Fresh (K i) n

theorem FreshAt.same (f : s.FreshAt K n) (ht : ∀ i, u.tr i = s.tr i) (hd : u.hold.dram = s.hold.dram) : u.FreshAt K n :=
  ⟨(congrArg DramSize.pages hd).trans f.1, fun i => by rw [ht i]; exact f.2 i⟩

theorem FreshAt.setTr (f : s.FreshAt K n) {x : Transport} (h : x.Fresh (K t) n) : (s.setTr t x).FreshAt K n :=
  ⟨f.1, fun i => by
    rw [tr_setTr]
    split
    · next e => exact e ▸ h
    · exact f.2 i⟩

theorem FreshAt.modTr (f : s.FreshAt K n) {g : Transport → Transport} (h : (s.tr t).Fresh (K t) n → (g (s.tr t)).Fresh (K t) n) :
    (s.modTr t g).FreshAt K n := f.setTr (h (f.2 t))

/-- A transport that has not picked yet changes in any way that does not number a record. -/
theorem FreshAt.modTr_early (f : s.FreshAt K n) (he : (s.tr t).nextId ≤ K t) {g : Transport → Transport}
    (h : (g (s.tr t)).nextId = (s.tr t).nextId) : (s.modTr t g).FreshAt K n := f.setTr (.inl (h ▸ he))

theorem FreshAt.returnPages (f : s.FreshAt K n) (pages : List Nat) (m : Nat) : (s.returnPages pages m).FreshAt K n :=
  ⟨(s.poolKept_returnPages pages m).total.trans f.1, fun i => (f.2 i).mayPick (f.1 ▸ s.mayPick_returnPages pages m i)⟩

theorem FreshAt.returnSides (f : s.FreshAt K n) (r : SheetRecord) : (s.returnSides r).FreshAt K n :=
  (f.returnPages _ _).returnPages _ _

theorem FreshAt.finishVia (f : s.FreshAt K n) (before : State) (path : List State) (forced : List TransportNo) :
    (s.finishVia before path forced).FreshAt K n :=
  ⟨((endSteps_fresh 0 n).finishVia s before path forced f.1).1,
    fun i => ((endSteps_fresh (K i) n).finishVia s before path forced f.1).2 i (f.2 i)⟩

theorem FreshAt.finish (f : s.FreshAt K n) (before : State) (forced : List TransportNo) : (s.finish before forced).FreshAt K n :=
  f.finishVia before [] forced

/-- Records are numbered by picks alone. -/
def NextKept (s u : State) : Prop := u.hold.dram = s.hold.dram ∧ ∀ i, (u.tr i).nextId ≤ (s.tr i).nextId

theorem NextKept.refl (s : State) : s.NextKept s := ⟨rfl, fun _ => Nat.le_refl _⟩

theorem NextKept.trans (h : s.NextKept u) (g : u.NextKept v) : s.NextKept v :=
  ⟨g.1.trans h.1, fun i => Nat.le_trans (g.2 i) (h.2 i)⟩

theorem NextKept.same (ht : ∀ i, u.tr i = s.tr i) (hd : u.hold.dram = s.hold.dram) : s.NextKept u :=
  ⟨hd, fun i => by rw [ht i]⟩

theorem NextKept.setTr {x : Transport} (h : x.nextId = (s.tr t).nextId) : s.NextKept (s.setTr t x) :=
  ⟨rfl, fun i => by
    rw [tr_setTr]
    split
    · next e => rw [h, e]
    · exact Nat.le_refl _⟩

theorem NextKept.modTr {g : Transport → Transport} (h : (g (s.tr t)).nextId = (s.tr t).nextId) : s.NextKept (s.modTr t g) := .setTr h

theorem NextKept.ite {p : Prop} [Decidable p] (h : s.NextKept u) (g : s.NextKept v) : s.NextKept (if p then u else v) := by
  split
  · exact h
  · exact g

theorem NextKept.foldl {α : Type} {f : State → α → State} (h : ∀ (s : State) (a : α), s.NextKept (f s a)) (s : State) (l : List α) :
    s.NextKept (l.foldl f s) := by
  induction l generalizing s with
  | nil => exact .refl s
  | cons a rest ih => exact (h s a).trans (ih _)

/-- What a command may leave of new records: one in each transport, as its pick left it. -/
def Picks (s u : State) : Prop := u.FreshAt (fun i => (s.tr i).nextId) s.hold.total

theorem NextKept.picks (h : s.NextKept u) : s.Picks u := ⟨congrArg DramSize.pages h.1, fun i => .inl (h.2 i)⟩

theorem picks_refl (s : State) : s.Picks s := (NextKept.refl s).picks

end State

end Sys2Proof.Machine

end


/-! PROOFS. Captures and stops keep what a pick leaves: a side captured is never one of the record just picked. -/

section

namespace Sys2Proof.Machine

namespace Transport

variable {x y : Transport} {k n : Nat}

/-- The unit of a side captures for no record just picked, whose sides wait. -/
theorem Fresh.clear_unit (f : x.Fresh k n) (p : x.PageLaw) {sd : Side} {id : Nat} {e : Bool}
    (h : (x.unit sd).activity = .capturing id e) : x.Clear k id := by
  rcases f with f | ⟨-, f | f⟩
  · exact .inl f
  · refine .inr (.inr fun hid => ?_)
    obtain ⟨rest, q, ht, hq, -⟩ := f.newest
    have hm : q ∈ x.track := by rw [ht]; exact List.mem_append_right _ (List.mem_singleton_self q)
    exact hq.waits sd ((p.linked sd id e h).2 q hm (hq.id.trans hid.symm))
  · exact .inr (.inl f.1)

theorem nextId_putSide (x : Transport) (id : Nat) (sd : Side) (g : SheetRecord → SideRecord) (u : CaptureUnit) :
    (x.putSide id sd g u).nextId = x.nextId ∧ (x.putSide id sd g u).state = x.state := by
  obtain ⟨f, b, h⟩ := x.putSide_eq id sd g u
  rw [h]
  exact ⟨rfl, rfl⟩

theorem nextId_setUnit (x : Transport) (sd : Side) (u : CaptureUnit) :
    (x.setUnit sd u).nextId = x.nextId ∧ (x.setUnit sd u).state = x.state := by
  cases sd <;> exact ⟨rfl, rfl⟩

end Transport

namespace State

variable {s u v : State} {t i : TransportNo} {sd : Side} {K : TransportNo → Nat} {n : Nat}

/-! ### Lines taken -/

/-- The unit of a side captures for no record just picked. -/
def UnitClear (K : TransportNo → Nat) (t : TransportNo) (sd : Side) (s : State) : Prop :=
  ∀ id e, ((s.tr t).unit sd).activity = .capturing id e → (s.tr t).Clear (K t) id

theorem unitClear_early (h : (s.tr t).nextId ≤ K t) : s.UnitClear K t sd := fun _ _ _ => .inl h

theorem UnitClear.of_fresh (f : s.FreshAt K n) (p : (s.tr t).PageLaw) : s.UnitClear K t sd := fun _ _ h => (f.2 t).clear_unit p h

theorem nextKept_takeLine (s : State) (pixels : List Pixel) (isRepair : Bool) : s.NextKept (s.takeLine t sd pixels isRepair) := by
  cases h : (s.tr t).capturedRecord sd with
  | none => rw [takeLine_none h]; exact .refl s
  | some r =>
    obtain ⟨z, w, l, -⟩ := linesTaken_takeLine (pixels := pixels) (isRepair := isRepair) h
    refine ⟨l.dram, fun i => ?_⟩
    by_cases hi : i = t
    · subst hi
      rw [l.tr, (Transport.nextId_putSide _ _ _ _ _).1]
    · rw [l.others i hi]

theorem nextKept_repairLines (s : State) (m : Nat) : s.NextKept (s.repairLines t sd m) := by
  induction m generalizing s with
  | zero => exact .refl s
  | succ m ih => exact (nextKept_takeLine s _ _).trans (ih _)

theorem nextKept_triggerLine (s : State) : s.NextKept (s.triggerLine t sd) := by
  unfold triggerLine
  exact (NextKept.ite (nextKept_takeLine s _ _) (.refl s)).trans (.modTr (Transport.nextId_setUnit _ _ _).1)

theorem nextKept_captureCount (s : State) (forward : Bool) : s.NextKept (s.captureCount t sd forward) := by
  have hunit : ∀ u, s.NextKept (s.modTr t fun x => x.setUnit sd u) := fun u => .modTr (Transport.nextId_setUnit _ _ _).1
  have hrewind : ∀ g : Transport → CaptureUnit, s.NextKept (s.modTr t fun x => x.setUnit sd (g x)) := fun g =>
    .modTr (Transport.nextId_setUnit _ _ _).1
  unfold captureCount
  dsimp only
  split
  · exact .ite (.refl s) (.ite (hrewind _) (.ite (hunit _) (.ite ((hunit _).trans (nextKept_triggerLine _)) (hunit _))))
  · exact .refl s

theorem FreshAt.takeLine (f : s.FreshAt K n) (c : s.UnitClear K t sd) (pixels : List Pixel) (isRepair : Bool) :
    (s.takeLine t sd pixels isRepair).FreshAt K n ∧ (s.takeLine t sd pixels isRepair).UnitClear K t sd := by
  cases h : (s.tr t).capturedRecord sd with
  | none => rw [takeLine_none h]; exact ⟨f, c⟩
  | some r =>
    obtain ⟨z, w, l, -⟩ := linesTaken_takeLine (pixels := pixels) (isRepair := isRepair) h
    obtain ⟨-, -, e, he⟩ := Transport.capturedRecord_some h
    refine ⟨⟨(congrArg DramSize.pages l.dram).trans f.1, fun i => ?_⟩, fun id e' hu => ?_⟩
    · by_cases hi : i = t
      · subst hi
        rw [l.tr]
        exact (f.2 i).putSide (c _ e he) sd _ _
      · rw [l.others i hi]
        exact f.2 i
    · rw [l.tr, Transport.unit_putSide_self] at hu
      obtain ⟨h1, h2⟩ := Transport.nextId_putSide (s.tr t) r.id sd (fun _ => z) w
      unfold Transport.Clear
      rw [l.tr, h1, h2]
      exact c id e' (l.activity ▸ hu)

theorem FreshAt.repairLines (f : s.FreshAt K n) (c : s.UnitClear K t sd) (m : Nat) :
    (s.repairLines t sd m).FreshAt K n ∧ (s.repairLines t sd m).UnitClear K t sd := by
  induction m generalizing s with
  | zero => exact ⟨f, c⟩
  | succ m ih => exact ih (f.takeLine c _ _).1 (f.takeLine c _ _).2

theorem FreshAt.triggerLine (f : s.FreshAt K n) (c : s.UnitClear K t sd) : (s.triggerLine t sd).FreshAt K n := by
  unfold State.triggerLine
  refine FreshAt.modTr ?_ fun g => g.setUnit sd _
  split
  · exact (f.takeLine c _ _).1
  · exact f

theorem FreshAt.completeSide (f : s.FreshAt K n) (c : s.UnitClear K t sd) : (s.completeSide t sd).FreshAt K n := by
  cases h : (s.tr t).capturedRecord sd with
  | none =>
    unfold State.completeSide
    simp only [h]
    exact f.modTr fun g => g.setUnit sd _
  | some r =>
    obtain ⟨-, -, e, he⟩ := Transport.capturedRecord_some h
    rw [completeSide_eq h]
    exact (f.modTr fun g => g.putSide (c _ e he) sd _ _).returnPages _ _

theorem FreshAt.repairAndComplete (f : s.FreshAt K n) (c : s.UnitClear K t sd) : (s.repairAndComplete t sd).FreshAt K n :=
  have ⟨f', c'⟩ := f.repairLines c ((s.tr t).unit sd).outstanding
  f'.completeSide c'

/-! ### Windows -/

/-- A side and its unit changed, of a record that is not just picked. -/
theorem FreshAt.modSide (f : s.FreshAt K n) {id : Nat} (h : (s.tr t).Clear (K t) id) (g : SheetRecord → SideRecord)
    (w : Transport → CaptureUnit) :
    (s.modTr t fun x => (x.modRecord id fun r => r.setSide sd (g r)).setUnit sd (w x)).FreshAt K n ∧
      ∀ id' e', (w (s.tr t)).activity = .capturing id' e' → id' = id →
        (s.modTr t fun x => (x.modRecord id fun r => r.setSide sd (g r)).setUnit sd (w x)).UnitClear K t sd := by
  refine ⟨f.modTr fun k => (k.modRecord h fun q => by cases sd <;> exact ⟨rfl, rfl, rfl, rfl, rfl⟩).setUnit sd _,
    fun id' e' hw hid a b hu => ?_⟩
  rw [tr_modTr_self, Transport.unit_setUnit_self, hw] at hu
  cases hu
  obtain ⟨h1, h2⟩ := Transport.nextId_setUnit ((s.tr t).modRecord id fun r => r.setSide sd (g r)) sd (w (s.tr t))
  unfold Transport.Clear
  rw [tr_modTr_self, h1, h2, hid]
  exact h

theorem FreshAt.beginCapture (f : s.FreshAt K n) {id : Nat} (h : (s.tr t).Clear (K t) id) : (s.beginCapture t sd id).FreshAt K n := by
  unfold State.beginCapture
  obtain ⟨f', c'⟩ := f.modSide (sd := sd) h (fun r => { r.side sd with capture := .capturing, windowStart := .idle }) fun x =>
    { x.unit sd with activity := .capturing id false, previous := none, inkHistory := [], rewind := 0, accumulator := 0 }
  exact f'.triggerLine (c' id false rfl rfl)

theorem FreshAt.captureStart (f : s.FreshAt K n) (c : s.UnitClear K t sd) {id : Nat} (h : id ≠ K t) :
    (s.captureStart t sd id).FreshAt K n := by
  unfold State.captureStart
  split
  · exact f.beginCapture (.inr (.inr h))
  · split
    · exact (f.repairAndComplete c).beginCapture (.inr (.inr h))
    · exact f

theorem FreshAt.captureEnd (f : s.FreshAt K n) {id : Nat} (h : (s.tr t).Clear (K t) id) : (s.captureEnd t sd id).FreshAt K n := by
  unfold State.captureEnd
  obtain ⟨f', c'⟩ := f.modSide (sd := sd) h (fun r => { r.side sd with windowEnd := .idle }) fun x =>
    { x.unit sd with activity := .capturing id true, packetWait := true }
  dsimp only
  split
  · exact f'.completeSide (c' id true rfl rfl)
  · exact f'

/-- A window position of another record's side. -/
theorem FreshAt.modWindow (f : s.FreshAt K n) (c : s.UnitClear K t sd) {id : Nat} (h : id ≠ K t) (g : SheetRecord → SideRecord) :
    (s.modTr t fun x => x.modRecord id fun q => q.setSide sd (g q)).FreshAt K n ∧
      (s.modTr t fun x => x.modRecord id fun q => q.setSide sd (g q)).UnitClear K t sd := by
  refine ⟨f.modTr fun k => k.modRecord (.inr (.inr h)) fun q => by cases sd <;> exact ⟨rfl, rfl, rfl, rfl, rfl⟩, fun a b hu => ?_⟩
  rw [tr_modTr_self] at hu ⊢
  have := c a b (by cases sd <;> exact hu)
  exact this

theorem FreshAt.armWindowStart (f : s.FreshAt K n) (c : s.UnitClear K t sd) {id : Nat} (h : id ≠ K t) (p : Pos) :
    (s.armWindowStart t id sd p).FreshAt K n := by
  unfold State.armWindowStart
  split
  · exact f
  · split
    · split
      · obtain ⟨f', c'⟩ := f.modWindow c h fun q => { q.side sd with windowStart := .raised }
        exact f'.captureStart c' h
      · exact (f.modWindow c h _).1
    · exact f

theorem FreshAt.armWindowEnd (f : s.FreshAt K n) (c : s.UnitClear K t sd) {id : Nat} (h : id ≠ K t) (p : Pos) :
    (s.armWindowEnd t id sd p).FreshAt K n := by
  unfold State.armWindowEnd
  split
  · exact f
  · dsimp only
    split
    · split
      · obtain ⟨f', -⟩ := f.modWindow c h fun q => { q.side sd with windowEnd := .raised }
        split
        · exact f'.captureEnd (.inr (.inr h))
        · exact f'
      · exact (f.modWindow c h _).1
    · exact f

/-! ### Packets -/

theorem nextKept_judgePacket (s : State) (bytes : List Byte) : s.NextKept (s.judgePacket t sd bytes) := by
  unfold judgePacket
  dsimp only
  have hpacket : ∀ u : State, u.NextKept (u.takePacketLine t sd bytes) := fun u => by
    unfold takePacketLine
    exact .ite (nextKept_takeLine u _ _) (nextKept_takeLine u _ _)
  exact .ite (.ite (nextKept_takeLine s _ _) (.refl s)) (.ite ((nextKept_repairLines s _).trans (hpacket _)) (.refl s))

theorem FreshAt.completeIfDrained (f : s.FreshAt K n) (c : s.UnitClear K t sd) : (s.completeIfDrained t sd).FreshAt K n := by
  unfold State.completeIfDrained
  split
  · split
    · exact f.completeSide c
    · exact f
  · exact f
  · exact f

/-! ### Stops -/

/-- New records as FreshAt says, in a part whose transport t is not RUNNING and has m as its next number. -/
structure Stopped (K : TransportNo → Nat) (n : Nat) (t : TransportNo) (m : Nat) (s : State) : Prop where
  fresh : s.FreshAt K n
  state : (s.tr t).state ≠ .running
  next : (s.tr t).nextId = m

namespace Stopped

variable {m : Nat}

theorem returnPages (h : s.Stopped K n t m) (pages : List Nat) (j : Nat) : (s.returnPages pages j).Stopped K n t m := by
  have e := (s.mayPick_returnPages pages j t).eq_of_state_ne h.state
  exact ⟨h.fresh.returnPages pages j, e ▸ h.state, e ▸ h.next⟩

theorem modTr (h : s.Stopped K n t m) {g : Transport → Transport} (f : (s.modTr t g).FreshAt K n)
    (hg : (g (s.tr t)).nextId = (s.tr t).nextId ∧ (g (s.tr t)).state = (s.tr t).state) : (s.modTr t g).Stopped K n t m :=
  ⟨f, by rw [tr_modTr_self, hg.2]; exact h.state, by rw [tr_modTr_self, hg.1]; exact h.next⟩

theorem returnGivenUp (h : s.Stopped K n t m) (r : SheetRecord) : (s.returnGivenUp r).Stopped K n t m := by
  unfold State.returnGivenUp
  split
  · exact h.returnPages _ _
  · exact (h.returnPages _ _).returnPages _ _

theorem completeSide (h : s.Stopped K n t m) (sd : Side) : (s.completeSide t sd).Stopped K n t m := by
  cases hc : (s.tr t).capturedRecord sd with
  | none =>
    unfold State.completeSide
    simp only [hc]
    exact h.modTr (h.fresh.modTr fun g => g.setUnit sd _) (Transport.nextId_setUnit _ _ _)
  | some r =>
    rw [completeSide_eq hc]
    exact (h.modTr (h.fresh.modTr fun g => g.putSide (.inr (.inl h.state)) sd _ _) (Transport.nextId_putSide _ _ _ _ _)).returnPages _ _

theorem captureEnd (h : s.Stopped K n t m) (sd : Side) (id : Nat) : (s.captureEnd t sd id).Stopped K n t m := by
  have h' : (s.modTr t fun x => (x.modRecord id fun r => r.setSide sd { r.side sd with windowEnd := .idle }).setUnit sd
      { x.unit sd with activity := .capturing id true, packetWait := true }).Stopped K n t m :=
    h.modTr (h.fresh.modSide (.inr (.inl h.state)) _ _).1 (Transport.nextId_setUnit _ _ _)
  unfold State.captureEnd
  dsimp only
  split
  · exact h'.completeSide sd
  · exact h'

theorem endWindowAtStop (h : s.Stopped K n t m) (sd : Side) : (s.endWindowAtStop t sd).Stopped K n t m := by
  unfold State.endWindowAtStop
  split
  · split
    · exact h
    · exact h.captureEnd sd _
  · exact h
  · exact h

end Stopped

/-- A stop numbers no record: it takes the record just picked off its track and leaves the others' picks alone. -/
theorem FreshAt.takeStop (f : s.FreshAt K n) (p : (s.tr t).PageLaw) (reason : StopReason) :
    (s.takeStop t reason).FreshAt K n ∧ ((s.takeStop t reason).tr t).nextId = (s.tr t).nextId := by
  unfold State.takeStop
  split
  · have h0 : (s.modTr t (·.stopped reason)).Stopped K n t (s.tr t).nextId :=
      ⟨f.modTr fun g => g.stopped p reason, by rw [tr_modTr_self]; exact stopped_state _ _,
        by rw [tr_modTr_self]; exact Transport.nextId_stopped _ _⟩
    have hfold : ∀ (l : List SheetRecord) (w : State), w.Stopped K n t (s.tr t).nextId →
        (l.foldl State.returnGivenUp w).Stopped K n t (s.tr t).nextId := fun l => by
      induction l with
      | nil => exact fun _ h => h
      | cons r rest ih => exact fun w h => ih _ (h.returnGivenUp r)
    have h1 := ((hfold ((s.tr t).track.filter (·.givesUp)) _ h0).endWindowAtStop .front).endWindowAtStop .back
    exact ⟨h1.fresh, h1.next⟩
  · exact ⟨f, rfl⟩

end State

end Sys2Proof.Machine

end


/-! PROOFS. The changes of one transport that number no record: all of them but a pick (R38). -/

section

namespace Sys2Proof.Machine

namespace Transport

variable (x : Transport)

@[simp] theorem nextId_modRecord (id : Nat) (f : SheetRecord → SheetRecord) : (x.modRecord id f).nextId = x.nextId := rfl

@[simp] theorem nextId_setSensor (sn : Sensor) (c : SensorState) : (x.setSensor sn c).nextId = x.nextId := rfl

@[simp] theorem nextId_beginMeasurement (latch : Pos) : (x.beginMeasurement latch).nextId = x.nextId := by
  unfold beginMeasurement
  split <;> rfl

@[simp] theorem nextId_rawEdge (sn : Sensor) : (x.rawEdge sn).nextId = x.nextId := by
  unfold rawEdge
  dsimp only
  split
  · rfl
  · split
    · rfl
    · split
      · exact nextId_beginMeasurement ..
      · rfl

@[simp] theorem nextId_routeSample (a : Nat) (q : Pos) : (x.routeSample a q).nextId = x.nextId := by
  have hrun : ∀ r : SheetRecord, (x.runSample r a q).nextId = x.nextId := fun r => by
    unfold runSample
    split
    · split <;> rfl
    · split <;> rfl
    · rfl
  have hgap : (x.gapSample a).nextId = x.nextId := by
    unfold gapSample
    split
    · rfl
    · split <;> rfl
  unfold routeSample
  split
  · split
    · split <;> rfl
    · split
      · split
        · split
          · rfl
          · exact hrun _
        · rfl
      · exact hgap
    · rfl
    · rfl
  · rfl

@[simp] theorem nextId_count (line : EncLine) (adc : BitVec 10) (forward : Bool) : (x.count line adc forward).nextId = x.nextId := by
  have hsample : ∀ (y : Transport) (a : Nat), (y.sampleCount a).nextId = y.nextId := fun y a => by
    unfold sampleCount
    split
    · rfl
    · split
      · rfl
      · exact nextId_routeSample ..
  unfold count
  split
  · exact hsample ..
  · rfl

@[simp] theorem nextId_motorOff : x.motorOff.nextId = x.nextId := (contents_motorOff x).nextId

@[simp] theorem nextId_startMotor : x.startMotor.nextId = x.nextId := (contents_startMotor x).nextId

@[simp] theorem nextId_beginRunOff : x.beginRunOff.nextId = x.nextId := (contents_beginRunOff x).nextId

@[simp] theorem nextId_enterRunning : x.enterRunning.nextId = x.nextId := (contents_enterRunning x).nextId

@[simp] theorem nextId_enterDraining (p : Purpose) : (x.enterDraining p).nextId = x.nextId := (contents_enterDraining x p).nextId

@[simp] theorem nextId_endCondition : x.endCondition.nextId = x.nextId := by
  unfold endCondition
  split
  · rfl
  · split <;> rfl

@[simp] theorem nextId_decisionEffects (id : Nat) (m : MarkResult) : (x.decisionEffects id m).nextId = x.nextId := by
  unfold decisionEffects
  split
  · unfold switchDecision
    dsimp only
    split <;> rfl
  · exact nextId_endCondition _
  all_goals rfl

@[simp] theorem nextId_decideMark (r : SheetRecord) (close : Pos) : (x.decideMark r close).nextId = x.nextId :=
  nextId_decisionEffects ..

@[simp] theorem nextId_markWindowExpired : x.markWindowExpired.nextId = x.nextId := by
  unfold markWindowExpired
  split
  · split
    · exact nextId_decideMark ..
    · rfl
  · rfl
  · rfl

@[simp] theorem nextId_markLead (r : SheetRecord) (latch : Pos) : (x.markLead r latch).nextId = x.nextId := by
  unfold markLead
  split
  · dsimp only
    split
    · exact nextId_markWindowExpired _
    · rfl
  · rfl

@[simp] theorem nextId_markTrail (r : SheetRecord) (trail : Pos) : (x.markTrail r trail).nextId = x.nextId := by
  unfold markTrail
  split
  · exact nextId_decideMark ..
  · rfl

@[simp] theorem nextId_dfLead (id : Nat) : (x.dfLead id).nextId = x.nextId := by
  unfold dfLead
  dsimp only
  split <;> rfl

@[simp] theorem nextId_dfTrail (id : Nat) (trail : Pos) : (x.dfTrail id trail).nextId = x.nextId := by
  unfold dfTrail
  dsimp only
  split
  · split <;> rfl
  · rfl

@[simp] theorem nextId_dropProvisional : x.dropProvisional.nextId = x.nextId := by
  unfold dropProvisional
  split <;> rfl

@[simp] theorem nextId_modHeadPiece (f : Piece → Piece) : (x.modHeadPiece f).nextId = x.nextId := by
  unfold modHeadPiece
  split <;> rfl

@[simp] theorem nextId_laneClosed (n : LaneNo) : (x.laneClosed n).nextId = x.nextId := by
  unfold laneClosed
  split <;> rfl

@[simp] theorem nextId_halted : x.halted.nextId = x.nextId := by
  unfold halted
  split
  · rfl
  · exact nextId_motorOff _
  · rfl
  · split <;> rfl
  · exact nextId_motorOff _
  · split <;> rfl

@[simp] theorem nextId_disabled : x.disabled.nextId = x.nextId := nextId_motorOff x

@[simp] theorem nextId_paused : x.paused.nextId = x.nextId := by
  unfold paused
  split
  · exact nextId_beginRunOff _
  · rfl

@[simp] theorem nextId_leaveHeld : x.leaveHeld.nextId = x.nextId := by
  unfold leaveHeld
  split
  · exact nextId_enterRunning _
  · split
    · rfl
    · exact nextId_enterDraining ..
  all_goals exact nextId_enterDraining ..

@[simp] theorem nextId_endCaptures (id : Nat) : (x.endCaptures id).nextId = x.nextId := rfl

end Transport

end Sys2Proof.Machine

end


/-! PROOFS. Pick misses and the changes accepted at a sensor keep what a pick leaves. -/

section

namespace Sys2Proof.Machine

theorem Transport.PageLaw.mayPick {x y : Transport} {n : Nat} (p : x.PageLaw) (h : x.MayPick n y) : y.PageLaw := by
  rcases h with rfl | ⟨he, rfl⟩
  · exact p
  · exact (safe_pick x he).pageLaw p

namespace State

variable {s u v : State} {t i : TransportNo} {K : TransportNo → Nat} {n : Nat}

/-- The laws that a change of a transport rests on: those of the pages, and new records as FreshAt says. -/
structure Lawful (K : TransportNo → Nat) (n : Nat) (s : State) : Prop where
  pages : s.PageLawWith []
  fresh : s.FreshAt K n

theorem Lawful.step (h : s.Lawful K n) (hs : s.Safe [] u []) (hf : u.FreshAt K n) : u.Lawful K n := ⟨hs.pages h.pages, hf⟩

theorem Lawful.record_lt (h : s.Lawful K n) (he : (s.tr t).nextId ≤ K t) {r : SheetRecord} (hr : r ∈ (s.tr t).track) : r.id ≠ K t :=
  Nat.ne_of_lt (Nat.lt_of_lt_of_le ((h.pages.records t).2.1 r hr) he)

theorem Lawful.unitClear (h : s.Lawful K n) (sd : Side) : s.UnitClear K t sd := .of_fresh h.fresh (h.pages.records t)

/-- A transport replaced, and pages of it returned. -/
theorem FreshAt.replaced (f : s.FreshAt K n) {y : Transport} (h : y.Fresh (K t) n) (p : y.PageLaw) (pages : List Nat) (m : Nat) :
    ((s.setTr t y).returnPages pages m).FreshAt K n ∧ (((s.setTr t y).returnPages pages m).tr t).PageLaw := by
  refine ⟨(f.setTr h).returnPages pages m, Transport.PageLaw.mayPick ?_ (mayPick_returnPages _ _ _ t)⟩
  rw [tr_setTr_self]
  exact p

/-- A pick miss before any pick of its transport: what the return of its pages then picks stands, unless the stop takes it. -/
theorem Lawful.pickMissed (h : s.Lawful K n) (he : (s.tr t).nextId ≤ K t) {r : SheetRecord} (hr : r ∈ (s.tr t).track) :
    (s.pickMissed t r).FreshAt K n := by
  unfold State.pickMissed
  dsimp only
  generalize (if (s.tr t).state = .running ∧ (s.tr t).runOn = none then (s.tr t).retries + 1 else 0) = m
  obtain ⟨f, p⟩ := h.fresh.replaced (y := { s.tr t with
    track := (s.tr t).track.filter fun q => q.id != r.id, clutch := false, retries := m }) (.inl he)
    (((s.tr t).safe_pickMissed hr m).pageLaw (h.pages.records t)) r.pages r.reserve
  split
  · exact (f.takeStop p _).1
  · exact f

/-! ### Station edges -/

theorem Lawful.dfLeadSeen (h : s.Lawful K n) (he : (s.tr t).nextId ≤ K t) {r : SheetRecord} (hr : r ∈ (s.tr t).track) (latch : Pos) :
    (s.dfLeadSeen t r latch).FreshAt K n := by
  have hid := h.record_lt he hr
  have h1 : (s.modTr t fun x => (x.fillLead r .df latch).dfLead r.id).Lawful K n :=
    h.step (.modTr_nil ((Transport.safe_fillLead _ r .df latch).trans_nil (Transport.safe_dfLead _ r.id)))
      (h.fresh.modTr_early he (Transport.nextId_dfLead _ _))
  have h2 := h1.step (safe_armWindowStart t .front _ r.id (posPlus latch ((s.tr t).cfg.cameraDistance .front)))
    (h1.fresh.armWindowStart (h1.unitClear .front) hid _)
  exact h2.fresh.armWindowStart (h2.unitClear .back) hid _

theorem Lawful.dfTrailSeen (h : s.Lawful K n) (he : (s.tr t).nextId ≤ K t) {r : SheetRecord} (hr : r ∈ (s.tr t).track) (latch : Pos) :
    (s.dfTrailSeen t r latch).FreshAt K n := by
  have hid := h.record_lt he hr
  have h1 : (s.modTr t fun x => (x.fillTrail r .df latch).dfTrail r.id latch).Lawful K n :=
    h.step (.modTr_nil ((Transport.safe_fillTrail _ r .df latch).trans_nil (Transport.safe_dfTrail _ r.id latch)))
      (h.fresh.modTr_early he (Transport.nextId_dfTrail _ _ _))
  have h2 := h1.step (safe_armWindowEnd t .front _ r.id (posPlus latch ((s.tr t).cfg.cameraDistance .front)))
    (h1.fresh.armWindowEnd (h1.unitClear .front) hid _)
  exact h2.fresh.armWindowEnd (h2.unitClear .back) hid _

/-- New records as FreshAt says, and none yet of transport t unless the station is DF. -/
def Edged (K : TransportNo → Nat) (n : Nat) (t : TransportNo) (df : Prop) (s : State) : Prop :=
  s.FreshAt K n ∧ (¬df → (s.tr t).nextId ≤ K t)

theorem Lawful.takeStop (h : s.Lawful K n) (reason : StopReason) {df : Prop} (he : ¬df → (s.tr t).nextId ≤ K t) :
    (s.takeStop t reason).Edged K n t df :=
  have ⟨f, e⟩ := h.fresh.takeStop (h.pages.records t) reason
  ⟨f, fun hd => e ▸ he hd⟩

theorem edged_modTr (h : s.Lawful K n) (he : (s.tr t).nextId ≤ K t) {df : Prop} {g : Transport → Transport}
    (hg : (g (s.tr t)).nextId = (s.tr t).nextId) : (s.modTr t g).Edged K n t df :=
  ⟨h.fresh.modTr_early he hg, fun _ => by rw [tr_modTr_self, hg]; exact he⟩

theorem Lawful.leadEdge (h : s.Lawful K n) (he : (s.tr t).nextId ≤ K t) (st : Station) (latch : Pos) :
    (s.leadEdge t st latch).Edged K n t (st = .df) := by
  unfold State.leadEdge
  split
  · exact h.takeStop _ fun _ => he
  · next r hr =>
    have hm : r ∈ (s.tr t).track := by
      unfold Transport.leadOwner at hr
      split at hr <;> exact List.mem_of_find?_eq_some hr
    dsimp only
    split
    · cases st with
      | entry => exact edged_modTr h he rfl
      | df => exact ⟨h.dfLeadSeen he hm latch, fun hn => absurd rfl hn⟩
      | mark => exact edged_modTr h he (Transport.nextId_markLead _ _ _)
      | exit => exact edged_modTr h he rfl
    · exact h.takeStop _ fun _ => he

theorem Lawful.trailEdge (h : s.Lawful K n) (he : (s.tr t).nextId ≤ K t) (st : Station) (latch : Pos) :
    (s.trailEdge t st latch).Edged K n t (st = .df) := by
  unfold State.trailEdge
  split
  · exact h.takeStop _ fun _ => he
  · next r hr =>
    have hm : r ∈ (s.tr t).track := List.mem_of_find?_eq_some hr
    split
    · exact h.takeStop _ fun _ => he
    · cases st with
      | entry => exact edged_modTr h he rfl
      | df => exact ⟨h.dfTrailSeen he hm latch, fun hn => absurd rfl hn⟩
      | mark => exact edged_modTr h he (Transport.nextId_markTrail _ _ _)
      | exit =>
        have h1 : (s.modTr t fun x => x.fillTrail r .exit latch).Lawful K n :=
          h.step (.modTr_nil (Transport.safe_fillTrail _ r .exit latch)) (h.fresh.modTr_early he rfl)
        have he1 : ((s.modTr t fun x => x.fillTrail r .exit latch).tr t).nextId ≤ K t := by
          rw [tr_modTr_self]; exact he
        show (s.exitTrail t r latch).Edged K n t _
        unfold State.exitTrail
        dsimp only
        split
        · have h2 := h1.step (safe_life t _ r.id (by decide : Lifecycle.parked ≠ .withdrawn)) (h1.fresh.modTr_early he1 rfl)
          refine h2.takeStop _ fun _ => ?_
          rw [tr_modTr_self]
          exact he1
        · exact edged_modTr h1 he1 rfl

theorem Lawful.deliver (h : s.Lawful K n) (he : (s.tr t).nextId ≤ K t) (sn : Sensor) (level : Bool) (latch : Pos) :
    (s.deliver t sn level latch).Edged K n t (sn = .station .df) := by
  have hsame : s.Edged K n t (sn = .station .df) := ⟨h.fresh, fun _ => he⟩
  cases sn with
  | station st =>
    have weaken : ∀ w : State, w.Edged K n t (st = .df) → w.Edged K n t (Sensor.station st = .station .df) := fun w hw =>
      ⟨hw.1, fun hn => hw.2 fun e => hn (by rw [e])⟩
    show (s.stationChange t st level latch).Edged K n t _
    unfold State.stationChange
    split
    · split
      · exact weaken _ (h.leadEdge he st latch)
      · exact weaken _ (h.trailEdge he st latch)
    · split
      · exact edged_modTr h he (Transport.nextId_dropProvisional _)
      · exact hsame
  | trayEmpty => exact hsame
  | coverOpen =>
    show (s.coverChange t level).Edged K n t _
    unfold State.coverChange
    dsimp only
    split
    · split
      · exact h.takeStop _ fun _ => he
      · split
        · exact edged_modTr h he (Transport.nextId_motorOff _)
        · exact hsame
    · split
      · exact edged_modTr h he (Transport.nextId_startMotor _)
      · exact hsame

theorem Lawful.acceptChange (h : s.Lawful K n) (he : (s.tr t).nextId ≤ K t) (sn : Sensor) :
    (s.acceptChange t sn).Edged K n t (sn = .station .df) := by
  have h1 : ∀ c : SensorState, (s.modTr t fun x => x.setSensor sn c).Lawful K n := fun c =>
    h.step (.modTr_nil (Transport.safe_setSensor _ sn c)) (h.fresh.modTr_early he rfl)
  have he1 : ∀ c : SensorState, ((s.modTr t fun x => x.setSensor sn c).tr t).nextId ≤ K t := fun c => by
    rw [tr_modTr_self]; exact he
  unfold State.acceptChange
  dsimp only
  split
  · exact ⟨h.fresh, fun _ => he⟩
  · split
    · exact (h1 _).deliver (he1 _) sn _ _
    · split
      · exact edged_modTr (h1 _) (he1 _) (Transport.nextId_dropProvisional _)
      · exact ⟨(h1 _).fresh, fun _ => he1 _⟩

/-! ### What a change held back -/

theorem resolve_station (s : State) (t : TransportNo) (st : Station) : s.resolve t (.station st) =
    (((s.acceptChange t (.station st)).ifActive t fun s => if st = .mark then s.takeMarkExpiry t else s).ifActive t
      fun s => s.takeTrailExpiry t st).ifActive t fun s => s.takeLeadExpiry t st := rfl

/-- The laws and the picks of a state on the way of a resolution. -/
def Resolving (K : TransportNo → Nat) (n : Nat) (t : TransportNo) (df : Prop) (s : State) : Prop :=
  s.PageLawWith [] ∧ s.Edged K n t df

theorem Resolving.ifActive {df : Prop} (h : s.Resolving K n t df) {f : State → State}
    (hf : s.Resolving K n t df → (f s).Resolving K n t df) : (s.ifActive t f).Resolving K n t df := by
  unfold State.ifActive
  split
  · exact hf h
  · exact h

/-- The last of what a change held back. -/
theorem Resolving.takeLead {st : Station} (h : s.Resolving K n t (Sensor.station st = .station .df)) :
    (s.ifActive t fun s => s.takeLeadExpiry t st).FreshAt K n := by
  obtain ⟨p, f, e⟩ := h
  unfold State.ifActive
  dsimp only
  split
  · unfold State.takeLeadExpiry
    split
    · exact f
    · next r hr =>
      split
      · next hst => exact Lawful.pickMissed ⟨p, f⟩ (e (by rw [hst]; exact nofun)) (List.mem_of_find?_eq_some hr)
      · exact (f.takeStop (p.records t) _).1
  · exact f

/-- A change resolved before any pick of its transport, with what it held back (R6, R12, R13, R95). -/
theorem Lawful.resolve (h : s.Lawful K n) (he : (s.tr t).nextId ≤ K t) (sn : Sensor) : (s.resolve t sn).FreshAt K n := by
  have h0 := h.acceptChange he sn
  cases sn with
  | trayEmpty => exact h0.1
  | coverOpen => exact h0.1
  | station st =>
    have h1 : (s.acceptChange t (.station st)).Resolving K n t (Sensor.station st = .station .df) :=
      ⟨(safe_acceptChange t s (.station st)).pages h.pages, h0⟩
    rw [resolve_station]
    have h2 := h1.ifActive (f := fun s => if st = .mark then s.takeMarkExpiry t else s) fun ⟨p, f, e⟩ => by
      split
      · next hst =>
        have he' := e (by rw [hst]; exact nofun)
        refine ⟨(safe_takeMarkExpiry t _).pages p, ?_⟩
        unfold State.takeMarkExpiry
        split
        · exact edged_modTr ⟨p, f⟩ he' (Transport.nextId_markWindowExpired _)
        · exact ⟨f, e⟩
      · exact ⟨p, f, e⟩
    have h3 := h2.ifActive (f := fun s => s.takeTrailExpiry t st) fun ⟨p, f, e⟩ => by
      refine ⟨(safe_takeTrailExpiry t _ st).pages p, ?_⟩
      unfold State.takeTrailExpiry
      split
      · exact ⟨f, e⟩
      · exact Lawful.takeStop ⟨p, f⟩ _ e
    exact h3.takeLead

end State

end Sys2Proof.Machine

end


/-! PROOFS. Each command of the paper path leaves at most one new record in a transport, as its pick left it (R34, R38). -/

section

namespace Sys2Proof.Machine

open State

theorem Transport.Fresh.mono {x : Transport} {k m n : Nat} (f : x.Fresh k n) (h : k ≤ m) : x.Fresh m n := by
  rcases Nat.lt_or_eq_of_le h with h | rfl
  · rcases f with f | ⟨e, -⟩
    · exact .inl (Nat.le_trans f (Nat.le_of_lt h))
    · exact .inl (e ▸ h)
  · exact f

namespace State

variable {s u v : State} {t : TransportNo} {sd : Side}

/-- What follows a change that numbers no record. -/
theorem NextKept.then (h : s.NextKept u) (p : u.Picks v) : s.Picks v := by
  have e : u.hold.total = s.hold.total := congrArg DramSize.pages h.1
  exact ⟨p.1.trans e, fun i => e ▸ (p.2 i).mono (h.2 i)⟩

theorem Picks.finishVia (p : s.Picks u) (before : State) (path : List State) (forced : List TransportNo) :
    s.Picks (u.finishVia before path forced) := FreshAt.finishVia p before path forced

theorem Picks.finish (p : s.Picks u) (before : State) (forced : List TransportNo) : s.Picks (u.finish before forced) :=
  p.finishVia before [] forced

theorem NextKept.finish (h : s.NextKept u) (before : State) (forced : List TransportNo) : s.Picks (u.finish before forced) :=
  h.picks.finish before forced

/-- A part whose pages are lawful and that has picked nothing since. -/
theorem lawful_start (p : s.PageLaw) : s.Lawful (fun i => (s.tr i).nextId) s.hold.total := ⟨pageLaw_iff.mp p, s.picks_refl⟩

theorem Lawful.modTr {K : TransportNo → Nat} {n : Nat} (h : s.Lawful K n) (he : (s.tr t).nextId ≤ K t) {g : Transport → Transport}
    (hs : (s.tr t).Safe [] (g (s.tr t))) (hn : (g (s.tr t)).nextId = (s.tr t).nextId) : (s.modTr t g).Lawful K n :=
  h.step (.modTr_nil hs) (h.fresh.modTr_early he hn)

/-- What a command answers leaves at most one new record in each transport. -/
def PicksIn (s : State) (r : Result) : Prop := ∀ u, r = .next u → s.Picks u

theorem picksIn_next (h : s.Picks u) : s.PicksIn (.next u) := fun _ e => Host.Outcome.next.inj e ▸ h

theorem picksIn_self (s : State) : s.PicksIn (.next s) := picksIn_next s.picks_refl

theorem picksIn_ite {p : Prop} [Decidable p] {a b : Result} (h : p → s.PicksIn a) (g : s.PicksIn b) :
    s.PicksIn (if p then a else b) := by
  split
  · next hp => exact h hp
  · exact g

theorem NextKept.picksIn (h : s.NextKept u) : s.PicksIn (.next u) := picksIn_next h.picks

/-! ### Counts and sensors -/

theorem picksIn_encoderCount (t : TransportNo) (line : EncLine) (adc : BitVec 10) (s : State) :
    s.PicksIn (execEncoderCount t line adc s) :=
  picksIn_ite (fun _ => ((NextKept.modTr (Transport.nextId_count _ _ _ _)).trans
    ((nextKept_captureCount _ _).trans (nextKept_captureCount _ _))).picksIn) s.picksIn_self

theorem picksIn_uncountedEncoderEdge (t : TransportNo) (line : EncLine) (s : State) : s.PicksIn (execUncountedEncoderEdge t line s) :=
  picksIn_ite (fun _ => s.picksIn_self) (NextKept.modTr (t := t) rfl).picksIn

theorem picksIn_encoderSkip (t : TransportNo) (s : State) : s.PicksIn (execEncoderSkip t s) := (NextKept.modTr rfl).picksIn

theorem picksIn_reflectiveTransition (t : TransportNo) (s : State) : s.PicksIn (execReflectiveTransition t s) :=
  (NextKept.modTr rfl).picksIn

theorem Lawful.resolveStep (h : u.Lawful (fun i => (s.tr i).nextId) s.hold.total) (he : (u.tr t).nextId ≤ (s.tr t).nextId)
    (before : State) (sn : Sensor) : s.Picks (u.resolveStep before t sn) :=
  Picks.finishVia (h.resolve he sn) before _ []

theorem picksIn_sensorRawEdge (t : TransportNo) (sn : Sensor) (p : s.PageLaw) : s.PicksIn (execSensorRawEdge t sn s) := by
  have hn := Transport.nextId_rawEdge (s.tr t) sn
  have h := (lawful_start p).modTr (t := t) (g := (·.rawEdge sn)) (Nat.le_refl _) (Transport.safe_rawEdge _ sn) hn
  refine picksIn_ite (fun _ => picksIn_next (h.resolveStep ?_ s sn)) (picksIn_next h.fresh)
  rw [tr_modTr_self, hn]

theorem picksIn_debounceHoldExpiry (t : TransportNo) (sn : Sensor) (p : s.PageLaw) : s.PicksIn (execDebounceHoldExpiry t sn s) :=
  picksIn_ite (fun _ => picksIn_next ((lawful_start p).resolveStep (Nat.le_refl _) s sn)) s.picksIn_self

/-! ### Expiries -/

theorem picksIn_pickMiss (t : TransportNo) (p : s.PageLaw) : s.PicksIn (execPickMiss t s) := by
  unfold execPickMiss
  dsimp only
  split
  · next r hr =>
    exact picksIn_ite (fun _ => picksIn_next (Picks.finish
      ((lawful_start p).pickMissed (Nat.le_refl _) (List.mem_of_find?_eq_some hr)) s [])) s.picksIn_self
  · exact s.picksIn_self

theorem picks_takeStop (t : TransportNo) (p : s.PageLaw) (reason : StopReason) : s.Picks (s.takeStop t reason) :=
  (FreshAt.takeStop s.picks_refl ((lawful_start p).pages.records t) reason).1

theorem picksIn_leadWindowEndPassed (t : TransportNo) (st : Station) (p : s.PageLaw) : s.PicksIn (execLeadWindowEndPassed t st s) :=
  picksIn_ite (fun _ => picksIn_next ((picks_takeStop t p _).finish s [])) s.picksIn_self

theorem picksIn_trailDeadlinePassed (t : TransportNo) (st : Station) (p : s.PageLaw) : s.PicksIn (execTrailDeadlinePassed t st s) :=
  picksIn_ite (fun _ => picksIn_next ((picks_takeStop t p _).finish s [])) s.picksIn_self

theorem picksIn_runInDone (t : TransportNo) (s : State) : s.PicksIn (execRunInDone t s) :=
  picksIn_ite (fun _ => picksIn_next ((NextKept.modTr (g := (·.finishRunIn)) rfl).finish s [])) s.picksIn_self

theorem picksIn_gapMet (t : TransportNo) (s : State) : s.PicksIn (execGapMet t s) := by
  unfold execGapMet
  split
  · exact picksIn_next ((NextKept.modTr (Transport.nextId_modRecord _ _ _)).finish s [])
  · exact s.picksIn_self

theorem picksIn_captureWindowStart (t : TransportNo) (sd : Side) (p : s.PageLaw) : s.PicksIn (execCaptureWindowStart t sd s) := by
  unfold execCaptureWindowStart
  split
  · next r hr =>
    have h := lawful_start p
    exact picksIn_next (Picks.finish (h.fresh.captureStart (h.unitClear sd)
      (h.record_lt (Nat.le_refl _) (List.mem_of_find?_eq_some hr))) s [])
  · exact s.picksIn_self

theorem picksIn_captureWindowEnd (t : TransportNo) (sd : Side) (s : State) : s.PicksIn (execCaptureWindowEnd t sd s) := by
  unfold execCaptureWindowEnd
  split
  · exact picksIn_next (Picks.finish (FreshAt.captureEnd s.picks_refl (.inl (Nat.le_refl _))) s [])
  · exact s.picksIn_self

theorem picksIn_markWindowEnd (t : TransportNo) (s : State) : s.PicksIn (execMarkWindowEnd t s) := by
  have h : s.NextKept (s.takeMarkExpiry t) := by
    unfold State.takeMarkExpiry
    exact .ite (.modTr (Transport.nextId_markWindowExpired _)) (.refl s)
  exact picksIn_ite (fun _ => picksIn_next (h.finish s [])) s.picksIn_self

/-! ### Timers and packets -/

theorem picksIn_motorOff {q : Prop} [Decidable q] (t : TransportNo) (s : State) :
    s.PicksIn (if q then .next ((s.modTr t (·.motorOff)).finish s []) else .next s) :=
  picksIn_ite (fun _ => picksIn_next ((NextKept.modTr (Transport.nextId_motorOff _)).finish s [])) s.picksIn_self

theorem picksIn_stallTimerExpiry (t : TransportNo) (p : s.PageLaw) : s.PicksIn (execStallTimerExpiry t s) :=
  picksIn_ite (fun _ => picksIn_ite (fun _ => picksIn_next ((picks_takeStop t p _).finish s [])) (s.picksIn_motorOff t))
    s.picksIn_self

theorem picksIn_runOffTimerExpiry (t : TransportNo) (s : State) : s.PicksIn (execRunOffTimerExpiry t s) := s.picksIn_motorOff t

theorem picksIn_packetWaitExpiry (t : TransportNo) (sd : Side) (s : State) : s.PicksIn (execPacketWaitExpiry t sd s) :=
  picksIn_ite (fun _ => picksIn_next (Picks.finish
    (FreshAt.repairAndComplete s.picks_refl (unitClear_early (Nat.le_refl _))) s [])) s.picksIn_self

theorem picksIn_linePacket (t : TransportNo) (sd : Side) (bytes : List Byte) (s : State) : s.PicksIn (execLinePacket t sd bytes s) := by
  refine picksIn_next (Picks.finish ?_ s [])
  unfold State.packet
  split
  · exact s.picks_refl
  · have h := s.nextKept_judgePacket (t := t) (sd := sd) bytes
    exact FreshAt.completeIfDrained h.picks (unitClear_early (h.2 t))

/-! ### Resets -/

theorem picks_afterReset (s : State) (units : TransportNo → PositionUnit) (a b : Word) (n : Nat) : s.Picks (s.afterReset units a b n) :=
  NextKept.picks ⟨rfl, fun i => by
    show ((Vector.ofFn fun i => ({ pos := units i } : Transport))[i]).nextId ≤ _
    simp⟩

end State

end Sys2Proof.Machine

end


/-! PROOFS. Each command of the registers, the control blocks, the tickets and the lanes leaves at most one new record in a transport
(R34, R38); what every command leaves of new records. -/

section

namespace Sys2Proof.Machine

open State

namespace State

variable {s u v : State} {t : TransportNo}

theorem nextKept_eachTransport (s : State) {f : Transport → Transport} (h : ∀ x, (f x).nextId = x.nextId) :
    s.NextKept (s.eachTransport f) := .foldl (fun _ _ => .modTr (h _)) s allTransports

/-- A change beside the transports and the hold store. -/
theorem NextKept.beside (ht : u.transports = s.transports) (hh : u.hold = s.hold) : s.NextKept u :=
  .same (fun i => congrArg (·[i]) ht) (congrArg HoldStore.dram hh)

theorem nextKept_modRoom (s : State) (f : RoomInterface → RoomInterface) : s.NextKept (s.modRoom f) := .beside rfl rfl

theorem nextKept_setEvent (s : State) (e : Event) : s.NextKept (s.setEvent e) := .beside rfl rfl

theorem nextKept_hostWrite (s : State) (r : BusWrite) (cells : List Host.Cell) : s.NextKept (s.hostWrite r cells) := .beside rfl rfl

theorem nextKept_modLane (s : State) (n : LaneNo) (f : Lane → Lane) : s.NextKept (s.modLane n f) := .beside rfl rfl

theorem nextKept_setWriter (s : State) (w : Writer) : s.NextKept (s.setWriter w) := .beside rfl rfl

/-! ### Registers and sweeps -/

theorem nextKept_writePeriod (s : State) (p : Byte) : s.NextKept (s.writePeriod p) := .ite (.refl s) (nextKept_modRoom s _)

theorem nextKept_requestSweep (s : State) : s.NextKept s.requestSweep := by
  unfold requestSweep
  split <;> exact .beside rfl rfl

theorem picksIn_rbaseWrite (high : Bool) (w : Word) (s : State) : s.PicksIn (execRbaseWrite high w s) :=
  picksIn_ite (fun _ => (nextKept_modRoom s _).picksIn) s.picksIn_self

theorem picksIn_start (p : Byte) (s : State) : s.PicksIn (execStart p s) :=
  ((nextKept_writePeriod s p).trans (.ite (.ite (nextKept_modRoom _ _) (.ite (nextKept_modRoom _ _) (nextKept_modRoom _ _)))
    (.refl _))).picksIn

theorem nextKept_loadHeader (s : State) (base : Addr) (h : Header) : s.NextKept (s.loadHeader base h) := by
  have hd := (safe_loadHeader (l := []) s base h).dram
  refine .same (fun i => ?_) hd
  unfold loadHeader
  extract_lets s1 s2
  generalize hs3 : s2.setHold { s2.hold with lowMark := h.lowMark, below := false } = s3
  have ht : s3.refreshMark.requestSweep.transports = s3.transports := by
    unfold requestSweep
    split <;> exact refreshMark_transports s3
  have h3 : s3.transports = s.transports := hs3 ▸ rfl
  exact congrArg (·[i]) (ht.trans h3)

theorem picksIn_startHeaderReadDone (header : MemRead) (s : State) : s.PicksIn (execStartHeaderReadDone header s) := by
  unfold execStartHeaderReadDone
  split
  · refine picksIn_next ?_
    unfold judgeStart
    split
    · exact ((nextKept_modRoom s _).trans (nextKept_setEvent _ _)).picks
    · dsimp only
      split
      · exact (nextKept_loadHeader s _ _).finish s allTransports
      · exact (nextKept_modRoom s _).picks
  · exact s.picksIn_self

theorem picksIn_halt (p : Byte) (s : State) : s.PicksIn (execHalt p s) := by
  refine picksIn_next ((nextKept_writePeriod s p).then ?_)
  unfold takeHalt
  split
  · exact ((nextKept_modRoom _ _).trans (nextKept_eachTransport _ Transport.nextId_halted)).finish _ []
  · exact picks_refl _

theorem picksIn_pollPeriodWrite (p : Byte) (s : State) : s.PicksIn (execPollPeriodWrite p s) := (nextKept_writePeriod s p).picksIn

theorem picksIn_registerWrite (reg : InertRegister) (w : Word) (s : State) : s.PicksIn (execRegisterWrite reg w s) := by
  cases reg with
  | evt => exact s.picksIn_self
  | evtact => exact s.picksIn_self
  | runctlReadOnly => exact (nextKept_writePeriod s _).picksIn

theorem picksIn_partHalted (s : State) : s.PicksIn (execPartHalted s) :=
  picksIn_ite (fun _ => ((nextKept_modRoom s _).trans (nextKept_setEvent _ _)).picksIn) s.picksIn_self

theorem picksIn_pollTimerExpiry (s : State) : s.PicksIn (execPollTimerExpiry s) :=
  picksIn_ite (fun _ => ((nextKept_requestSweep s).trans (nextKept_modRoom _ _)).picksIn) s.picksIn_self

theorem picksIn_sweepWrite (w : Word) (s : State) : s.PicksIn (execSweepWrite w s) :=
  picksIn_ite (fun _ => (nextKept_requestSweep s).picksIn) s.picksIn_self

theorem picksIn_sweepEnd (links turns : List LaneRead) (s : State) : s.PicksIn (execSweepEnd links turns s) := by
  have hlane : ∀ (v : State) n link turn, v.NextKept (v.examine n link turn) := fun v n link turn => by
    unfold examine
    split
    · split
      · exact .refl v
      · exact nextKept_setEvent v _
      · exact .ite (.refl v) (nextKept_modLane v n _)
    · exact .refl v
  have hend : ∀ v : State, v.NextKept v.endSweep := fun v => by
    unfold endSweep
    exact .ite ((nextKept_modRoom v _).trans (nextKept_modRoom _ _)) (nextKept_modRoom v _)
  exact picksIn_ite (fun _ => ((NextKept.foldl (f := fun s n => s.examine n (readFor links n) (readFor turns n))
    (fun v n => hlane v n _ _) s allLanes).trans (hend _)).picksIn) s.picksIn_self

/-! ### Answers and status blocks -/

theorem picksIn_answerWriteDone (r : BusWrite) (s : State) : s.PicksIn (execAnswerWriteDone r s) := by
  unfold execAnswerWriteDone
  split
  · exact s.picksIn_self
  · cases r <;> exact NextKept.picksIn (.beside rfl rfl)

theorem picksIn_owedAnswerWrite (b : CommandBlock) (turn : MemRead) (s : State) : s.PicksIn (execOwedAnswerWrite b turn s) := by
  unfold execOwedAnswerWrite
  split
  · split
    · cases turn <;> exact NextKept.picksIn (.beside rfl rfl)
    · exact s.picksIn_self
  · exact s.picksIn_self

theorem picksIn_statusBlockWriteDone (t : TransportNo) (r : BusWrite) (s : State) : s.PicksIn (execStatusBlockWriteDone t r s) := by
  unfold execStatusBlockWriteDone
  split
  · exact s.picksIn_self
  · generalize hw : (s.hostWrite r (s.statusInFlight t)).setEvent _ = w
    have h : s.NextKept w := hw ▸ .beside rfl rfl
    refine NextKept.picksIn (h.trans ?_)
    unfold statusEnded
    exact .ite (.beside rfl rfl) (nextKept_modRoom _ _)

/-! ### Transport commands -/

theorem Picks.answer (p : s.Picks u) (b : CommandBlock) (c : Answer) (m : Word) : s.Picks (u.answer b c m) := by
  exact FreshAt.same p (fun _ => rfl) rfl

theorem picksIn_readControl (s : State) (t : TransportNo) (block : MemRead) (k : ControlCommand) {act : Word → State → State}
    (h : ∀ (m : Word) (v : State), v.Picks (act m v)) : s.PicksIn (s.readControl t block k act) := by
  unfold readControl
  refine picksIn_ite (fun _ => ?_) s.picksIn_self
  split
  · exact NextKept.picksIn (.beside rfl rfl)
  · exact picksIn_ite (fun _ => picksIn_next ((nextKept_modRoom s _).then (h _ _))) s.picksIn_self

theorem picksIn_command (s : State) (t : TransportNo) (block : MemRead) (k : ControlCommand) {act : State → Answer × State}
    (h : ∀ v : State, v.Picks (act v).2) : s.PicksIn (s.command t block k act) :=
  picksIn_readControl s t block k fun _ v => (h v).answer _ _ _

/-- A command taken, with the end of its step, or answered without effect. -/
theorem picks_taken {q : Prop} [Decidable q] {a b : Answer} (h : v.Picks u) :
    v.Picks (if q then (a, u.finish v []) else (b, v)).2 := by
  split
  · dsimp only
    exact h.finish v []
  · exact picks_refl v

theorem picksIn_enable (t : TransportNo) (block : MemRead) (s : State) : s.PicksIn (execEnable t block s) :=
  picksIn_readControl s t block .enable fun _ v => NextKept.picks <| by
    split
    · exact .beside rfl rfl
    · split <;> exact .beside rfl rfl

theorem picksIn_setupReadDone (t : TransportNo) (setup : MemRead) (s : State) : s.PicksIn (execSetupReadDone t setup s) := by
  unfold execSetupReadDone
  split
  · refine picksIn_ite (fun _ => picksIn_next (((nextKept_modRoom s fun r => { r with setupRead := none }).then ?_).answer _ _ _))
      s.picksIn_self
    unfold judgeSetup
    split
    · exact (nextKept_setEvent _ _).picks
    · split
      · exact picks_refl _
      · dsimp only
        exact (NextKept.modTr rfl).finish _ []
  · exact s.picksIn_self

theorem picksIn_disable (t : TransportNo) (block : MemRead) (s : State) : s.PicksIn (execDisable t block s) :=
  s.picksIn_command t block .disable fun _ => picks_taken (NextKept.modTr (Transport.nextId_disabled _)).picks

theorem picksIn_pause (t : TransportNo) (block : MemRead) (s : State) : s.PicksIn (execPause t block s) :=
  s.picksIn_command t block .pause fun _ => picks_taken (NextKept.modTr (Transport.nextId_paused _)).picks

theorem picksIn_resume (t : TransportNo) (block : MemRead) (s : State) : s.PicksIn (execResume t block s) :=
  s.picksIn_command t block .resume fun _ => picks_taken (NextKept.picks
    (.modTr (g := fun x => ({ x with retries := 0 } : Transport).enterRunning) (Transport.nextId_enterRunning _)))

/-- An offender disposed of before any pick, with what its sides give up. -/
theorem picks_dispose (s : State) (t : TransportNo) (gives : Bool) {f : Transport → SheetRecord → Transport}
    {g : Transport → Transport} (hf : ∀ x r, (f x r).nextId = x.nextId) (hg : ∀ x, (g x).nextId = x.nextId) :
    s.Picks (s.dispose t gives f g) := by
  unfold dispose
  split
  · exact (NextKept.modTr (hg _)).picks
  · next r _ =>
    have h : s.Picks (s.modTr t fun x => g (f x r)) := 
      (NextKept.modTr (g := fun x => g (f x r)) ((hg _).trans (hf _ r))).picks
    dsimp only
    split
    · exact FreshAt.returnSides h r
    · exact h

theorem nextId_refeed (x : Transport) (r : SheetRecord) : (x.refeed r).nextId = x.nextId := rfl

theorem picks_abortHeld (s : State) (t : TransportNo) : s.Picks (s.abortHeld t) :=
  (NextKept.modTr (g := (·.removeWithdrawn)) rfl).then (picks_dispose _ t true nextId_refeed fun _ => Transport.nextId_enterDraining _ _)

theorem picksIn_abort (t : TransportNo) (block : MemRead) (s : State) : s.PicksIn (execAbort t block s) := by
  refine s.picksIn_command t block .abort fun v => ?_
  split
  · dsimp only
    exact (NextKept.modTr rfl).finish v []
  · dsimp only
    exact (NextKept.modTr (t := t) (g := fun x => ({ x with state := .draining, purpose := .abort } : Transport).motorOff.freshEntry)
      (Transport.nextId_motorOff _)).finish v []
  · exact picks_taken (v.picks_abortHeld t)
  all_goals exact picks_refl v

theorem picksIn_rule (s : State) (t : TransportNo) (block : MemRead) (k : Ruling) (gives : Bool)
    {f : Transport → SheetRecord → Transport} (hf : ∀ x r, (f x r).nextId = x.nextId) : s.PicksIn (s.rule t block k gives f) := by
  refine s.picksIn_command t block (.rule k) fun v => ?_
  dsimp only
  split
  · dsimp only
    exact Picks.finish ((NextKept.modTr (g := (·.removeWithdrawn)) rfl).then
      (picks_dispose _ t gives hf Transport.nextId_leaveHeld)) v []
  · exact picks_refl v

/-! ### Tickets -/

theorem picksIn_ticketTake (t : TransportNo) (link turn : MemRead) (s : State) : s.PicksIn (execTicketTake t link turn s) := by
  refine picksIn_ite (fun _ => NextKept.picksIn (NextKept.trans ?_ (nextKept_modRoom _ _))) s.picksIn_self
  unfold noteCandidate
  exact .ite ((NextKept.modTr rfl).trans (nextKept_setEvent _ _)) (.modTr rfl)

theorem picks_endTake (s : State) (t : TransportNo) (a : Addr) (o : TakeOutcome) : s.Picks (s.endTake t a o) := by
  cases o with
  | abandoned => exact ((NextKept.modTr rfl).trans (nextKept_setEvent _ _)).picks
  | refused reason => exact (NextKept.modTr rfl).picks
  | start k main alt routes lane =>
    exact (NextKept.modTr (t := t) (g := fun x => x.startBatch (x.newBatch a k main alt routes lane))
      (Transport.nextId_enterRunning _)).finish s []

theorem picksIn_ticketTakeDone (t : TransportNo) (ticket main alt route : MemRead) (s : State) :
    s.PicksIn (execTicketTakeDone t ticket main alt route s) := by
  unfold execTicketTakeDone
  split
  · exact s.picksIn_self
  · exact picksIn_ite (fun _ => picksIn_next (s.picks_endTake t _ _)) s.picksIn_self

theorem picksIn_outcomeWriteDone (t : TransportNo) (r : BusWrite) (s : State) : s.PicksIn (execOutcomeWriteDone t r s) := by
  unfold execOutcomeWriteDone
  split
  · exact s.picksIn_self
  · next w _ =>
    have h : s.NextKept ((s.hostWrite r (outcomeCells w)).modTr t fun x => { x with batch := x.batch.finished w }) :=
      (nextKept_hostWrite s r _).trans (.modTr rfl)
    cases r with
    | ok => exact picksIn_next (h.finish s [t])
    | busError _ => exact picksIn_next ((h.trans (nextKept_setEvent _ _)).finish s [t])

/-! ### Lanes -/

theorem picksIn_roomCommand (s : State) (block : MemRead) (k : RoomCommand) {act : Nat → State → Answer × State}
    (h : ∀ (n : Nat) (v : State), v.Picks (act n v).2) : s.PicksIn (s.roomCommand block k act) := by
  unfold State.roomCommand
  refine picksIn_ite (fun _ => ?_) s.picksIn_self
  split
  · exact NextKept.picksIn (.beside rfl rfl)
  · exact picksIn_ite (fun _ => picksIn_next (((nextKept_modRoom s _).then (h _ _)).answer _ _ _)) s.picksIn_self

theorem picksIn_laneRestart (block : MemRead) (s : State) : s.PicksIn (execLaneRestart block s) := by
  refine s.picksIn_roomCommand block .laneRestart fun n v => ?_
  split
  · exact picks_refl v
  · split
    · exact picks_refl v
    · exact (nextKept_modLane v _ _).picks

theorem picksIn_laneRestartReadDone (n : LaneNo) (record : MemRead) (s : State) : s.PicksIn (execLaneRestartReadDone n record s) := by
  refine picksIn_ite (fun _ => picksIn_next (NextKept.finish ?_ s [])) s.picksIn_self
  unfold restartEnded
  split
  · exact (nextKept_modLane s n _).trans (nextKept_setEvent _ _)
  · exact (nextKept_modLane s n _).trans (nextKept_eachTransport _ fun _ => Transport.nextId_modHeadPiece _ _)

theorem picksIn_laneClose (block : MemRead) (s : State) : s.PicksIn (execLaneClose block s) := by
  have hclose : ∀ (v : State) n, v.NextKept (v.closeLane n) := fun v n => by
    unfold closeLane
    dsimp only
    split
    · exact .refl v
    · exact .ite (nextKept_modLane v n _) (.ite (nextKept_modLane v n _) (nextKept_modLane v n _))
  refine s.picksIn_roomCommand block .laneClose fun n v => ?_
  split
  · exact picks_refl v
  · next k _ =>
    split
    · exact picks_refl v
    · dsimp only
      exact (hclose v k).finish v []

theorem picksIn_roomUnknownCommand (s : State) : s.PicksIn (execRoomUnknownCommand s) :=
  picksIn_ite (fun _ => NextKept.picksIn (.beside rfl rfl)) s.picksIn_self

theorem nextKept_continueTurn (s : State) (t : TransportNo) : s.NextKept (s.continueTurn t) := by
  have htouch : ∀ (p : Piece) (x : Transport), (if p.firstWritten then x else x.touch p.lane).nextId = x.nextId := fun p x => by
    unfold Transport.touch
    split
    · rfl
    · split <;> rfl
  unfold continueTurn
  split
  · exact nextKept_setWriter s _
  · next e p _ =>
    split
    · exact nextKept_setWriter s _
    · exact .ite (((nextKept_modLane s _ _).trans (.modTr (htouch p _))).trans (nextKept_setWriter _ _))
        ((nextKept_modLane s _ _).trans (nextKept_setWriter _ _))

theorem picksIn_binTakeDone (n : LaneNo) (link bin : MemRead) (s : State) : s.PicksIn (execBinTakeDone n link bin s) := by
  have hafter : ∀ v : State, v.NextKept (v.afterBinTake n) := fun v => by
    unfold afterBinTake
    split
    · exact .ite (.ite (nextKept_continueTurn v _) (nextKept_setWriter v _)) (.refl v)
    all_goals exact .refl v
  refine picksIn_next (NextKept.finish ?_ s [])
  unfold binTakeEnded
  refine .ite (NextKept.trans ?_ (hafter _)) (.refl s)
  exact .ite ((nextKept_modLane s n _).trans (nextKept_setEvent _ _)) (nextKept_modLane s n _)

theorem nextKept_meetRequests (s : State) (n : LaneNo) : s.NextKept (s.meetRequests n) :=
  (nextKept_modLane s n _).trans (.foldl (f := fun s t => s.modTr t (·.laneClosed n))
    (fun _ _ => .modTr (Transport.nextId_laneClosed _ _)) _ _)

theorem picks_entryWritten (s : State) (t : TransportNo) (e : Element) (p : Piece) (b : Bin) : s.Picks (s.entryWritten t e p b) := by
  have h : ∀ (g : Lane → Lane) (w : Writer), s.Picks
      (((s.modTr t fun x => { x with queue := advanceQueue (entryDataLength e p (b.capacity - b.filled)) x.queue }).modLane p.lane
        g).setWriter w) := fun g w => NextKept.picks ((NextKept.trans (.modTr rfl) (nextKept_modLane _ _ _)).trans (nextKept_setWriter _ _))
  unfold entryWritten
  dsimp only
  split
  · exact FreshAt.returnPages (h _ _) _ _
  · exact h _ _

theorem nextKept_entryFault (s : State) (t : TransportNo) (p : Piece) (b : Bin) : s.NextKept (s.entryFault t p b) := by
  have h : s.NextKept (((s.modTr t (·.modHeadPiece fun q => { q with interrupted := true })).setWriter
      { s.writer with turn := none }).setEvent .memfault) :=
    NextKept.trans (u := s.modTr t (·.modHeadPiece fun q => { q with interrupted := true }))
      (.modTr (Transport.nextId_modHeadPiece _ _)) (.beside rfl rfl)
  unfold entryFault
  exact .ite (h.trans (nextKept_modLane _ _ _)) (h.trans ((nextKept_modLane _ _ _).trans (nextKept_meetRequests _ _)))

theorem picksIn_entryWriteDone (r : BusWrite) (s : State) : s.PicksIn (execEntryWriteDone r s) := by
  refine picksIn_next (Picks.finish ?_ s [])
  unfold entryDone
  split
  · split
    · exact s.picks_refl
    · split
      · exact s.picks_refl
      · next t _ _ e p _ _ b _ =>
        refine (nextKept_hostWrite s r (entryCells t e p b)).then ?_
        cases r with
        | ok => exact picks_entryWritten _ _ _ _ _
        | busError _ => exact (nextKept_entryFault _ _ _ _).picks
  all_goals exact s.picks_refl

theorem nextKept_afterHandBack (s : State) (n : LaneNo) : s.NextKept (s.afterHandBack n) := by
  have hbreak : ∀ i, s.NextKept (s.breakTurn i) := fun _ =>
    NextKept.trans (.modTr (Transport.nextId_modHeadPiece _ _)) (nextKept_setWriter _ _)
  unfold afterHandBack
  split
  · exact .ite (.ite ((nextKept_modLane s n _).trans (nextKept_setWriter _ _)) (hbreak _)) (.refl s)
  all_goals exact .refl s

theorem picksIn_handBackDone (n : LaneNo) (r : BusWrite) (s : State) : s.PicksIn (execHandBackDone n r s) := by
  refine picksIn_next (NextKept.finish ?_ s [])
  unfold handBackEnded
  split
  · next h b _ _ =>
    have hw : ∀ f e, s.NextKept (((s.hostWrite r (handBackCells b n (s.lane n).sequence h)).modLane n f).setEvent e) :=
      fun _ _ => .beside rfl rfl
    cases r <;> exact ((hw _ _).trans (nextKept_meetRequests _ n)).trans (nextKept_afterHandBack _ n)
  · exact .refl s

theorem picksIn_flushTimerExpiry (n : LaneNo) (s : State) : s.PicksIn (execFlushTimerExpiry n s) :=
  picksIn_ite (fun _ => picksIn_next ((nextKept_modLane s n _).finish s [])) s.picksIn_self

/-! ### Every command -/

/-- Every command leaves at most one new record in a transport, as its pick left it unless a stop has taken it. -/
theorem picks_of_exec {c : Instr} (p : s.PageLaw) (h : exec c s = .next u) : s.Picks u := by
  suffices hc : s.PicksIn (exec c s) from hc u h
  cases c with
  | powerOn l0 l1 l2 l3 => exact picksIn_next (picks_afterReset s _ _ _ _)
  | encoderCount t line adc => exact picksIn_encoderCount t line adc s
  | uncountedEncoderEdge t line => exact picksIn_uncountedEncoderEdge t line s
  | encoderSkip t => exact picksIn_encoderSkip t s
  | sensorRawEdge t sn => exact picksIn_sensorRawEdge t sn p
  | debounceHoldExpiry t sn => exact picksIn_debounceHoldExpiry t sn p
  | reflectiveTransition t => exact picksIn_reflectiveTransition t s
  | pickMiss t => exact picksIn_pickMiss t p
  | leadWindowEndPassed t st => exact picksIn_leadWindowEndPassed t st p
  | trailDeadlinePassed t st => exact picksIn_trailDeadlinePassed t st p
  | runInDone t => exact picksIn_runInDone t s
  | gapMet t => exact picksIn_gapMet t s
  | captureWindowStart t sd => exact picksIn_captureWindowStart t sd p
  | captureWindowEnd t sd => exact picksIn_captureWindowEnd t sd s
  | markWindowEnd t => exact picksIn_markWindowEnd t s
  | stallTimerExpiry t => exact picksIn_stallTimerExpiry t p
  | runOffTimerExpiry t => exact picksIn_runOffTimerExpiry t s
  | packetWaitExpiry t sd => exact picksIn_packetWaitExpiry t sd s
  | flushTimerExpiry n => exact picksIn_flushTimerExpiry n s
  | pollTimerExpiry => exact picksIn_pollTimerExpiry s
  | linePacket t sd bytes => exact picksIn_linePacket t sd bytes s
  | rbaseWrite high w => exact picksIn_rbaseWrite high w s
  | start q => exact picksIn_start q s
  | startHeaderReadDone header => exact picksIn_startHeaderReadDone header s
  | halt q => exact picksIn_halt q s
  | softReset q => exact picksIn_next (picks_afterReset s _ _ _ _)
  | pollPeriodWrite q => exact picksIn_pollPeriodWrite q s
  | sweepWrite w => exact picksIn_sweepWrite w s
  | evtclrWrite w => exact (nextKept_modRoom s _).picksIn
  | evtenWrite w => exact (nextKept_modRoom s _).picksIn
  | registerWrite reg w => exact picksIn_registerWrite reg w s
  | sweepEnd links turns => exact picksIn_sweepEnd links turns s
  | enable t block => exact picksIn_enable t block s
  | setupReadDone t setup => exact picksIn_setupReadDone t setup s
  | disable t block => exact picksIn_disable t block s
  | pause t block => exact picksIn_pause t block s
  | resume t block => exact picksIn_resume t block s
  | abort t block => exact picksIn_abort t block s
  | ruleAccept t block => exact s.picksIn_rule t block .accept false fun _ _ => rfl
  | ruleReview t block => exact s.picksIn_rule t block .review false fun _ _ => rfl
  | ruleRefeed t block => exact s.picksIn_rule t block .refeed true nextId_refeed
  | ruleDiscard t block => exact s.picksIn_rule t block .discard true fun _ _ => rfl
  | ruleClear t block => exact s.picksIn_rule t block .clear false fun _ _ => rfl
  | unknownCommand t block => exact s.picksIn_command t block .unknown fun v => v.picks_refl
  | laneRestart block => exact picksIn_laneRestart block s
  | laneRestartReadDone n record => exact picksIn_laneRestartReadDone n record s
  | laneClose block => exact picksIn_laneClose block s
  | roomUnknownCommand => exact picksIn_roomUnknownCommand s
  | owedAnswerWrite b turn => exact picksIn_owedAnswerWrite b turn s
  | answerWriteDone r => exact picksIn_answerWriteDone r s
  | ticketTake t link turn => exact picksIn_ticketTake t link turn s
  | ticketTakeDone t ticket main alt route => exact picksIn_ticketTakeDone t ticket main alt route s
  | binTakeDone n link bin => exact picksIn_binTakeDone n link bin s
  | entryWriteDone r => exact picksIn_entryWriteDone r s
  | handBackDone n r => exact picksIn_handBackDone n r s
  | statusBlockWriteDone t r => exact picksIn_statusBlockWriteDone t r s
  | partHalted => exact picksIn_partHalted s
  | outcomeWriteDone t r => exact picksIn_outcomeWriteDone t r s

end State

/-- Settles O57: a transport numbers at most one record in a command, and one that is left in its track is as its pick left it. -/
theorem picksOnlyInRunning : Obligations.PicksOnlyInRunning := by
  intro c s u p h t y
  have law : y.PageLaw := (pageLaw_iff.mpr ((kept_of_exec h).safe.pages (pageLaw_iff.mp p))).2.2 t
  obtain ⟨htotal, hfresh⟩ := picks_of_exec p h
  have hy : y.Fresh (s.tr t).nextId s.hold.total := hfresh t
  have hids := law.2.1
  refine ⟨?_, fun r hr hid => ?_⟩
  · rcases hy with hy | ⟨hy, -⟩
    · exact Nat.le_succ_of_le hy
    · exact Nat.le_of_eq hy
  · have hlast : y.nextId = (s.tr t).nextId + 1 → r.id = (s.tr t).nextId := fun e =>
      Nat.le_antisymm (Nat.le_of_lt_succ (e ▸ hids r hr : r.id < (s.tr t).nextId + 1)) hid
    rcases hy with hy | ⟨hy, hp | hg⟩
    · exact absurd (hids r hr) (Nat.not_lt.mpr (Nat.le_trans hy hid))
    · obtain ⟨rest, q, htrack, hq, hpast⟩ := hp.newest
      have hm : q ∈ y.track := by rw [htrack]; exact List.mem_append_right _ (List.mem_singleton_self q)
      obtain rfl : r = q := Transport.PageLaw.eq_of_id law hm hr ((hlast hy).trans hq.id.symm)
      refine ⟨hq.life, hq.pickPos, hq.selector, hp.running, hp.clutch, hq.leadEnd, hp.runOn, hp.motor, hp.length, hp.tray, ?_,
        hq.pages, hp.count, rest, htrack, fun older o e => ?_⟩
      · rw [hq.reserve, ← htotal]
        rfl
      · rw [hq.selector]
        exact hpast older o e
    · exact absurd (hlast hy) (hg.2 r hr)

end Sys2Proof.Machine

end
